-- ==== Sys2Proof/Word.lean ====
section
/-!
DEFINITION. The words of the machine: 64-bit registers (R244), 1,024-bit vector registers (R244), bytes.
-/
namespace Sys2Proof

/-- A 64-bit register (s, a, l, nest and shape registers: R244). -/
abbrev Word := BitVec 64

/-- A vector register (R244): 32 lanes of 32 bits. -/
abbrev VWord := BitVec 1024

/-- One byte. -/
abbrev Byte := BitVec 8

end Sys2Proof
end

