-- ==== Sys2Proof/Fields.lean ====
section
/-!
DEFINITION. The operand fields of the instructions: register numbers, conditions, widths, types, address forms
(R241, R260 to R387). The bits of each are in Decode.lean; the numeric limits a type does not state are in
WellFormed.lean.
-/
namespace Sys2Proof

/-- Register numbers, at the width of their field (R241, R244, R247). -/
abbrev SReg := BitVec 6
abbrev VReg := BitVec 9
abbrev KReg := BitVec 4
abbrev AReg := BitVec 5
abbrev LReg := BitVec 2
abbrev PReg := BitVec 4
abbrev FReg := BitVec 6
abbrev ZReg := BitVec 3
/-- Relative tile number (R80). -/
abbrev TileNo := BitVec 5
/-- Relative plane and stream array number (R80). -/
abbrev PlaneNo := BitVec 2
/-- Ordering class (R186). -/
abbrev Cls := BitVec 4
/-- Relative galley number (R80). -/
abbrev GalleyNo := BitVec 4
/-- Relative local-store region number (R80). -/
abbrev RegionNo := BitVec 6
/-- Cluster number (R13) and hardware context number (R126). -/
abbrev ClusterNo := BitVec 9
abbrev CtxNo := BitVec 2

/-- Target displacements of a YT or YC branch (R241, R253). -/
structure BrTarget where
  ldisp : BitVec 18
  bdisp : BitVec 20
deriving DecidableEq, Repr

/-- Summary tests of BRS and SETP (R268). -/
inductive SumTest where
  | any | all | none | nall
deriving DecidableEq, Repr

/-- Tests of BRV (R269). -/
inductive MaskTest where
  | all | none
deriving DecidableEq, Repr

/-- A register whose poison bit CHK tests (R271). -/
inductive PoisonReg where
  | s (n : SReg)
  | v (n : VReg)
deriving DecidableEq, Repr

/-- The eight flags of WAIT (R241, R275), F0 in the lowest bits. -/
structure WaitFlags where
  f0 : FReg
  f1 : FReg
  f2 : FReg
  f3 : FReg
  f4 : FReg
  f5 : FReg
  f6 : FReg
  f7 : FReg
deriving DecidableEq, Repr

/-- One entry of WAITP (R241): valid bit and flag f0 to f31. -/
structure WaitEntry where
  valid : Bool
  flag : BitVec 5
deriving DecidableEq, Repr

/-- The seven entries of WAITP (R241). -/
structure WaitEntries where
  s : WaitEntry
  v0 : WaitEntry
  v1 : WaitEntry
  m : WaitEntry
  l : WaitEntry
  t : WaitEntry
  c : WaitEntry
deriving DecidableEq, Repr

/-- Source of SETP (R274). -/
inductive SetpSrc where
  | flag (f : FReg)
  | sum (cc : SumTest) (z : ZReg)
  | value (b : Bool)
deriving DecidableEq, Repr

/-- Target group of POST (R272, R277): an immediate index, or bits [23:0] of an l register. -/
inductive PostTarget where
  | group (g : BitVec 24)
  | link (l : LReg)
deriving DecidableEq, Repr

/-- Conditions of CMP, CMPI and VCMP (R262). -/
inductive Cond where
  | eq | ne | lt | ge | ltn | gen | tst | ntst
deriving DecidableEq, Repr

/-- Amount of an S-slot shift (R260): bits [5:0] of a register, or an immediate. -/
inductive ShAmt where
  | reg (sb : SReg)
  | imm (n : BitVec 6)
deriving DecidableEq, Repr

/-- Vector element widths (R285). -/
inductive EW where
  | w8 | w16 | w32
deriving DecidableEq, Repr

/-- FN of the integer vector instructions (R290). -/
structure VInt where
  w : EW
  n : Bool
  sat : Bool
deriving DecidableEq, Repr

/-- Amount of a vector shift (R291). -/
inductive VAmt where
  | reg (v : VReg)
  | imm (n : BitVec 5)
deriving DecidableEq, Repr

/-- Source of VIOTA (R294): element numbers of a width, or the prefix count of a mask. -/
inductive IotaSrc where
  | index (w : EW)
  | pfx (k : KReg)
deriving DecidableEq, Repr

/-- The three forms of VKOP (R295). -/
inductive KopForm where
  | table (kd ka kb : KReg) (tt : BitVec 4)
  | toMask (kd : KReg) (va : VReg)
  | fromMask (vd : VReg) (ka : KReg)
deriving DecidableEq, Repr

/-- Floating types of the vector arithmetic (R298). -/
inductive FT where
  | f32 | f16 | bf16
deriving DecidableEq, Repr

/-- Element type of VREDA (R296). -/
inductive RedaForm where
  | fp (t : FT)
  | int (f : VInt)
deriving DecidableEq, Repr

/-- Element type of VREDM (R296). -/
inductive RedmForm where
  | fp (t : FT)
  | int (w : EW) (n : Bool)
deriving DecidableEq, Repr

/-- Source of VTEST (R297). -/
inductive TestSrc where
  | v (va : VReg)
  | k (kb : KReg)
deriving DecidableEq, Repr

/-- Rounding modes (R33). -/
inductive Rm where
  | rne | rz | ru | rd
deriving DecidableEq, Repr

/-- Sub-op of VFMA (R299). -/
inductive FmaForm where
  | pp | ms | nm | nms
deriving DecidableEq, Repr

/-- Conditions of VFCMP (R301). -/
inductive FCond where
  | eq | ne | lt | le | gt | ge | un | ord
deriving DecidableEq, Repr

/-- Type codes of VCVT (R303). -/
inductive CvtT where
  | f32 | f16 | bf16 | e4m3 | e5m2 | e2m1
deriving DecidableEq, Repr

/-- Block formats of VCVTX (R305). -/
inductive BlkT where
  | mxe4m3 | mxe5m2 | mxfp4 | mxi8 | mxn8
deriving DecidableEq, Repr

/-- Width code of VPACK's source and VUNPK's destination (R306). -/
inductive PackW where
  | w16 | w32
deriving DecidableEq, Repr

/-- CV codes of the tile moves (R307). -/
inductive TileCv where
  | plain | band | bf16
deriving DecidableEq, Repr

/-- Edge formats of a nest (R355). -/
inductive EdgeFmt where
  | mxi8 | mxn8 | mxfp4
deriving DecidableEq, Repr

/-- Target of SLIT (R360). -/
inductive SlitTgt where
  | hm (n : BitVec 2)
  | n (l : BitVec 3)
deriving DecidableEq, Repr

/-- A set of planes, bit n for acc n (R359). -/
abbrev PlaneSet := BitVec 4

/-- Scalar access widths 1, 2, 4, 8 bytes (R311). -/
inductive SW where
  | b1 | b2 | b4 | b8
deriving DecidableEq, Repr

/-- Vector access widths 32, 64, 128 bytes (R311). -/
inductive VW where
  | b32 | b64 | b128
deriving DecidableEq, Repr

/-- The two widths of atomics and WAITADDR, 4 and 8 bytes (R316, R327). -/
inductive AW where
  | b4 | b8
deriving DecidableEq, Repr

/-- An s or a register as load destination or store data (R316, R327). -/
inductive SAReg where
  | s (n : SReg)
  | a (n : AReg)
deriving DecidableEq, Repr

/-- Cache hints (R158). -/
inductive Hint where
  | none | nal | nas | byp
deriving DecidableEq, Repr

/-- The address form of R312: base register, offset, local or far; class and hint. -/
structure MAddr where
  loc : Bool
  ab : AReg
  off : BitVec 21
  cls : Cls
  hint : Hint
deriving DecidableEq, Repr

/-- The address form of LDG and STX (R316): base, stride register, local or far; class and hint. -/
structure GAddr where
  loc : Bool
  ab : AReg
  sr : AReg
  cls : Cls
  hint : Hint
deriving DecidableEq, Repr

/-- The far address form of a base register and an offset (LDX, PREF, RFETCH, RFLUSH). -/
structure FAddr where
  ab : AReg
  off : BitVec 21
deriving DecidableEq, Repr

/-- Destination and width of LDS (R316, R318). -/
inductive LdsDst where
  | s (n : SReg) (w : SW) (sx : Bool)
  | v (n : VReg) (w : VW)
deriving DecidableEq, Repr

/-- Scopes (R185, R316). -/
inductive Scope where
  | clu | chp | arc | mod | sys
deriving DecidableEq, Repr

/-- The segment of LDT and STT (R324): a row segment, or 128 scale-band bytes. -/
inductive TileSeg where
  | data (row : BitVec 11) (seg : BitVec 5)
  | band (idx : BitVec 6)
deriving DecidableEq, Repr

/-- The memory side of LDT and STT (R324). -/
structure TAddr where
  loc : Bool
  ab : AReg
  tile : TileNo
  seg : TileSeg
  cls : Cls
  hint : Hint
deriving DecidableEq, Repr

/-- Operations of ATOM and RED (R329, R330). -/
inductive AtomOp where
  | add | and | or | xor | min | max | minn | maxn | swap | cas | fadd
deriving DecidableEq, Repr

/-- Operations of CLINE (R332). -/
inductive ClineOp where
  | clean | flush | zero
deriving DecidableEq, Repr

/-- Galley kinds of BIND (R338, R343). -/
inductive BindKind where
  | rd | wr | ldx
deriving DecidableEq, Repr

/-- Region modes of RESHAPE (R160, R338). -/
inductive RegMode where
  | plain | stash | cache
deriving DecidableEq, Repr

/-- The fields common to CPY, CPYC, CPYT and CPYE (R338). -/
structure CpyArgs where
  sw : Bool
  hc : BitVec 2
  cls : Cls
  hint : Hint
  flag : Option FReg
deriving DecidableEq, Repr

/-- Operations of slamo (R227). -/
inductive AmoOp where
  | add | and | or | xor | min | max | minn | maxn | swap
deriving DecidableEq, Repr

end Sys2Proof
end

