-- ==== Sys2Proof/Config.lean ====
section
/-!
DEFINITION. What one form of the part fixes (R1, R23) and the values that the spec leaves open. Every opaque constant
has no body that a proof can see: a statement about it holds whatever its value (log 4).
-/
namespace Sys2Proof.Config

/-- LPDDR-6 channels (R23). -/
def nchan : Nat := 96

/-- A free value of w bits: `n` is the machine's counter of free values (R6, log 4). -/
opaque freeBits (w n : Nat) : BitVec w

/-- A byte of memory whose contents are undefined since the n-th time memory was made undefined (R6, log 4). -/
opaque freeByte (n a : Nat) : BitVec 8

/-- Does a read of a register in the window of R248 see the new value? `tag` names the pending result, `b` the
reading bundle and `slot` the reading slot (log 5). -/
opaque seesNew (tag b slot : Nat) : Bool

/-- The Ed25519 verification and signature of R427, R429 and R430, which RFC 8032 defines and this spec only names
(log 14). -/
opaque ed25519Verify (key msg sig : List (BitVec 8)) : Bool
opaque ed25519Sign (seed msg : List (BitVec 8)) : List (BitVec 8)
opaque ed25519Public (seed : List (BitVec 8)) : List (BitVec 8)

/-- The root public key in the mask of the forme ROM, 32 bytes (R426, log 14). -/
opaque rootKey : BitVec 256

/-- The PUF's response corrected with the helper data (R430, log 14). -/
opaque pufCorrect (raw helper : List (BitVec 8)) : List (BitVec 8)

/-- What the signature of an SPDM 1.2 measurement response covers, for a requester's nonce: R429 names the protocol alone
(log 30). -/
opaque spdmTranscript (nonce : Nat) (blocks : List (BitVec 8)) : List (BitVec 8)

/-- The bytes of the SPDM 1.2 response to a request that carries this content (log 30). -/
opaque spdmMessage (req content : List (BitVec 8)) : List (BitVec 8)

/-- The outcome of a physical step of a start that no rule computes: training, self-test, initialisation (R424). -/
opaque startStepOk (start step : Nat) : Bool

end Sys2Proof.Config
end

