-- ==== Sys2Proof/RvFields.lean ====
section
/-!
DEFINITION. The base instructions of a slice's handler core (R205): RV64IMAC without ECALL and EBREAK, which R205
makes illegal. The layout and meaning of these instructions are those of the RISC-V unprivileged specification,
which R205 names and this spec does not print (PRESUMED, log 6).
-/
namespace Sys2Proof

/-- A handler register x0 to x31. -/
abbrev XReg := BitVec 5

/-- Conditional branches. -/
inductive RvBr where
  | beq | bne | blt | bge | bltu | bgeu
deriving DecidableEq, Repr

/-- Loads. -/
inductive RvLd where
  | lb | lh | lw | ld | lbu | lhu | lwu
deriving DecidableEq, Repr

/-- Stores. -/
inductive RvSt where
  | sb | sh | sw | sd
deriving DecidableEq, Repr

/-- Register-immediate operations. -/
inductive RvImm where
  | addi | slti | sltiu | xori | ori | andi
deriving DecidableEq, Repr

/-- Shifts by an immediate. -/
inductive RvSh where
  | sll | srl | sra
deriving DecidableEq, Repr

/-- Register-register operations. -/
inductive RvOpR where
  | add | sub | sll | slt | sltu | xor | srl | sra | or | and
deriving DecidableEq, Repr

/-- Register-register operations on 32 bits. -/
inductive RvOpW where
  | addw | subw | sllw | srlw | sraw
deriving DecidableEq, Repr

/-- Multiplications and divisions. -/
inductive RvMul where
  | mul | mulh | mulhsu | mulhu | div | divu | rem | remu
deriving DecidableEq, Repr

/-- Multiplications and divisions on 32 bits. -/
inductive RvMulW where
  | mulw | divw | divuw | remw | remuw
deriving DecidableEq, Repr

/-- Atomic memory operations. -/
inductive RvAmo where
  | swap | add | xor | and | or | min | max | minu | maxu
deriving DecidableEq, Repr

/-- One base instruction. Immediates hold the encoded bits; branch and jump offsets are without their zero bit 0. -/
inductive RvOp where
  | lui (rd : XReg) (imm : BitVec 20)
  | auipc (rd : XReg) (imm : BitVec 20)
  | jal (rd : XReg) (off : BitVec 20)
  | jalr (rd rs1 : XReg) (imm : BitVec 12)
  | branch (c : RvBr) (rs1 rs2 : XReg) (off : BitVec 12)
  | load (w : RvLd) (rd rs1 : XReg) (imm : BitVec 12)
  | store (w : RvSt) (rs1 rs2 : XReg) (imm : BitVec 12)
  | opImm (o : RvImm) (rd rs1 : XReg) (imm : BitVec 12)
  | shImm (o : RvSh) (rd rs1 : XReg) (sh : BitVec 6)
  | op (o : RvOpR) (rd rs1 rs2 : XReg)
  | addiw (rd rs1 : XReg) (imm : BitVec 12)
  | shImmW (o : RvSh) (rd rs1 : XReg) (sh : BitVec 5)
  | opW (o : RvOpW) (rd rs1 rs2 : XReg)
  | mulDiv (o : RvMul) (rd rs1 rs2 : XReg)
  | mulDivW (o : RvMulW) (rd rs1 rs2 : XReg)
  | lr (dbl aq rl : Bool) (rd rs1 : XReg)
  | sc (dbl aq rl : Bool) (rd rs1 rs2 : XReg)
  | amo (o : RvAmo) (dbl aq rl : Bool) (rd rs1 rs2 : XReg)
  | fence (fm : BitVec 4) (pred succ : BitVec 4) (rd rs1 : XReg)
deriving DecidableEq, Repr

/-- A base instruction as fetched: a full 32-bit word, or a 16-bit word of the C extension. -/
inductive RvWord where
  | full (op : RvOp)
  | compressed (bits : BitVec 16)
deriving DecidableEq, Repr

end Sys2Proof
end

