-- ==== Sys2Proof/Syntax.lean ====
section
/-!
DEFINITION. The instructions and events of the part: one constructor for each row of spec/opcode_table.json.
A slot instruction carries its operation and operands; the predicate of its slot (R239, R240) stands beside it in a
`Slot` (Decode.lean). An event carries the unit it concerns and what the outside world supplies to it (log 1).
-/
namespace Sys2Proof

/-- Every row of the table of operations and events. `nop` carries the operand bits of a NOP slot: zero, or the block
descriptor in the Y slot of a BLK bundle (R83). -/
inductive Instr where
  -- Y slot (R267 to R283, R381)
  | nop (desc : BitVec 48)
  | br (t : BrTarget)
  | bra (l : LReg)
  | brs (cc : SumTest) (z : ZReg) (t : BrTarget)
  | brv (cc : MaskTest) (k : KReg) (t : BrTarget)
  | call (l : LReg) (t : BrTarget)
  | ret (l : LReg)
  | jmpl (ld l : LReg)
  | loopi (l : LReg) (count : BitVec 16)
  | loope (l : LReg) (t : BrTarget)
  | chk (r : PoisonReg) (t : BrTarget)
  | wait (fs : WaitFlags)
  | waitp (es : WaitEntries)
  | setf (f : FReg)
  | clrf (f : FReg)
  | setp (pd : PReg) (src : SetpSrc)
  | post (tgt : PostTarget) (f : FReg)
  | dbar (lvl : BitVec 3) (lead : Bool)
  | send (dmod : BitVec 12) (ch : BitVec 4) (l : LReg) (nfl : BitVec 4)
  | recv (smod : BitVec 12) (ch : BitVec 4) (l : LReg) (nfl : BitVec 4)
  | mark (lm : BitVec 16)
  | yield
  | exit
  | trap (code : BitVec 16) (val : BitVec 32)
  | tret
  -- S slot (R260 to R266)
  | add (sd sa sb : SReg) (sh : BitVec 6)
  | sub (sd sa sb : SReg) (sh : BitVec 6)
  | addi (sd sa : SReg) (imm : BitVec 36)
  | mul (sd sa sb : SReg) (acc : Option SReg)
  | mulh (sd sa sb : SReg)
  | mulhn (sd sa sb : SReg)
  | div (sd sa sb : SReg)
  | divn (sd sa sb : SReg)
  | rem (sd sa sb : SReg)
  | remn (sd sa sb : SReg)
  | and (sd sa sb : SReg)
  | or (sd sa sb : SReg)
  | xor (sd sa sb : SReg)
  | andn (sd sa sb : SReg)
  | shl (sd sa : SReg) (amt : ShAmt)
  | shr (sd sa : SReg) (amt : ShAmt)
  | sar (sd sa : SReg) (amt : ShAmt)
  | rot (sd sa : SReg) (amt : ShAmt)
  | clz (sd sa : SReg)
  | ctz (sd sa : SReg)
  | popc (sd sa : SReg)
  | min (sd sa sb : SReg)
  | max (sd sa sb : SReg)
  | minn (sd sa sb : SReg)
  | maxn (sd sa sb : SReg)
  | cmp (cc : Cond) (pd : PReg) (sa sb : SReg)
  | cmpi (cc : Cond) (pd : PReg) (sa : SReg) (imm : BitVec 32)
  | sel (sd : SReg) (neg : Bool) (p : PReg) (sa sb : SReg)
  | li (sd : SReg) (imm : BitVec 42)
  | lih (sd : SReg) (imm : BitVec 22)
  | mov (sd sa : SReg)
  | xsv (vd : VReg) (lane : BitVec 5) (ss : SReg)
  | xvs (sd : SReg) (vs : VReg) (lane : BitVec 5)
  | xsa (ad : AReg) (ss : SReg)
  | xas (sd : SReg) (sa : AReg)
  | xsl (ld : LReg) (ss : SReg)
  | xls (sd : SReg) (ls : LReg)
  | mfc (sd : SReg) (creg : BitVec 12)
  | mtc (creg : BitVec 12) (ss : SReg)
  -- V slots (R285 to R309); `k` is the mask field K
  | vadd (f : VInt) (vd va vb : VReg) (k : KReg)
  | vsub (f : VInt) (vd va vb : VReg) (k : KReg)
  | vmul (f : VInt) (vd va vb : VReg) (k : KReg)
  | vmulh (w : EW) (n : Bool) (vd va vb : VReg) (k : KReg)
  | vmad (f : VInt) (vd va vb vc : VReg) (k : KReg)
  | vabs (w : EW) (sat : Bool) (vd va : VReg) (k : KReg)
  | vmin (w : EW) (vd va vb : VReg) (k : KReg)
  | vmax (w : EW) (vd va vb : VReg) (k : KReg)
  | vminn (w : EW) (vd va vb : VReg) (k : KReg)
  | vmaxn (w : EW) (vd va vb : VReg) (k : KReg)
  | vand (vd va vb : VReg) (k : KReg)
  | vor (vd va vb : VReg) (k : KReg)
  | vxor (vd va vb : VReg) (k : KReg)
  | vlut3 (tt : BitVec 8) (vd va vb vc : VReg) (k : KReg)
  | vshl (w : EW) (vd va : VReg) (amt : VAmt) (k : KReg)
  | vshr (w : EW) (vd va : VReg) (amt : VAmt) (k : KReg)
  | vsar (w : EW) (vd va : VReg) (amt : VAmt) (k : KReg)
  | vfsl (w : EW) (vd va vb : VReg) (amt : VAmt) (k : KReg)
  | vfsr (w : EW) (vd va vb : VReg) (amt : VAmt) (k : KReg)
  | vrot (w : EW) (vd va : VReg) (amt : VAmt) (k : KReg)
  | vpopc (w : EW) (vd va : VReg) (k : KReg)
  | vclz (w : EW) (vd va : VReg) (k : KReg)
  | vcmp (cc : Cond) (w : EW) (agg : Bool) (kd : KReg) (va vb : VReg) (k : KReg)
  | vsel (neg : Bool) (kn : KReg) (vd va vb : VReg) (k : KReg)
  | vbcst (w : EW) (vd va : VReg) (idx : BitVec 7) (k : KReg)
  | vperm (w : EW) (vd va vb : VReg) (k : KReg)
  | vrotl (w : EW) (vd va : VReg) (r : BitVec 7) (k : KReg)
  | vreda (f : RedaForm) (vd va : VReg) (k : KReg)
  | vredm (max : Bool) (f : RedmForm) (vd va : VReg) (k : KReg)
  | vtest (zd : ZReg) (src : TestSrc) (k : KReg)
  | vfadd (t : FT) (rm : Rm) (vd va vb : VReg) (k : KReg)
  | vfsub (t : FT) (rm : Rm) (vd va vb : VReg) (k : KReg)
  | vfmul (t : FT) (rm : Rm) (vd va vb : VReg) (k : KReg)
  | vfma (f : FmaForm) (t : FT) (rm : Rm) (vd va vb vc : VReg) (k : KReg)
  | vfmin (t : FT) (vd va vb : VReg) (k : KReg)
  | vfmax (t : FT) (vd va vb : VReg) (k : KReg)
  | vfcmp (cc : FCond) (t : FT) (agg : Bool) (kd : KReg) (va vb : VReg) (k : KReg)
  | vfrcp (t : FT) (rm : Rm) (vd va : VReg) (k : KReg)
  | vfrsq (t : FT) (rm : Rm) (vd va : VReg) (k : KReg)
  | vfexp2 (t : FT) (rm : Rm) (vd va : VReg) (k : KReg)
  | vflog2 (t : FT) (rm : Rm) (vd va : VReg) (k : KReg)
  | vcvt (dt st : CvtT) (rm : Rm) (vd va : VReg) (p : BitVec 3) (k : KReg)
  | vcvti (toFloat : Bool) (t : FT) (n : Bool) (w : EW) (rm : Rm) (vd va : VReg) (p : BitVec 3) (k : KReg)
  | vcvtx (fromBlk : Bool) (t : FT) (bt : BlkT) (rm : Rm) (vd va vb : VReg) (p : BitVec 3)
  | vpack (sw : PackW) (n dn sat : Bool) (vd va vb : VReg) (k : KReg)
  | vunpk (dw : PackW) (n : Bool) (vd va : VReg) (p : BitVec 1) (k : KReg)
  | vtrd (cv : TileCv) (vd : VReg) (tile : TileNo) (idx : BitVec 11) (seg : BitVec 5) (k : KReg)
  | vtcd (cv : TileCv) (vd : VReg) (tile : TileNo) (idx : BitVec 11) (seg : BitVec 5) (k : KReg)
  | vtwr (cv : TileCv) (vs : VReg) (tile : TileNo) (idx : BitVec 11) (seg : BitVec 5) (k : KReg)
  | vmov (vd va : VReg) (k : KReg)
  | viota (src : IotaSrc) (vd : VReg) (k : KReg)
  | vkop (f : KopForm)
  -- M slot (R359, R360)
  | sgo (sw : Bool) (hm : BitVec 2) (pl : PlaneNo) (flag : Option FReg)
  | slen (j : BitVec 5)
  | sseed
  | smode (afmt bfmt : EdgeFmt) (bp noshift prog : Bool)
  | sref (e : BitVec 10)
  | sclr (pls : PlaneSet)
  | sacc (bf : Bool) (tile : TileNo) (trow : BitVec 11) (pl : PlaneNo) (prow pcol : BitVec 9)
  | smarg (drow col0 : BitVec 9) (ncol : BitVec 10)
  | sdrain (pls : PlaneSet)
  | stest (pl : PlaneNo)
  | sstop (pls : PlaneSet)
  | svmrg (g : BitVec 3) (new : BitVec 8)
  | spos (pl : PlaneNo) (sel : BitVec 3)
  | slit (tgt : SlitTgt)
  -- L slot (R316)
  | ld (d : SAReg) (w : SW) (sx : Bool) (a : MAddr)
  | ldv (vd : VReg) (w : VW) (a : MAddr)
  | lds (d : LdsDst) (a : MAddr)
  | ldg (vd : VReg) (w : SW) (a : GAddr)
  | ldx (g : GalleyNo) (hint : Hint) (a : FAddr)
  | lda (d : SAReg) (w : SW) (scope : Scope) (ab : AReg) (cls : Cls) (mask : BitVec 16)
  | pref (cls : Cls) (hint : Hint) (a : FAddr)
  | waitaddr (ad : AReg) (w : AW) (ab : AReg) (tout : BitVec 7) (cls : Cls)
  | ldt (a : TAddr)
  | cbtake (vd : VReg) (cls : Cls)
  | rfetch (sd : SReg) (cls : Cls) (a : FAddr)
  -- T slot (R327)
  | st (d : SAReg) (w : SW) (a : MAddr)
  | stv (vs : VReg) (w : VW) (a : MAddr)
  | sts (vs : VReg) (w : SW) (idx : BitVec 7) (loc : Bool) (ab : AReg) (off : BitVec 15) (cls : Cls) (hint : Hint)
  | stx (vs : VReg) (w : SW) (a : GAddr)
  | strl (d : SAReg) (w : SW) (scope : Scope) (ab : AReg) (cls : Cls) (mask : BitVec 16)
  | stt (a : TAddr)
  | atom (op : AtomOp) (w : AW) (ab : AReg) (ss : SReg) (cls : Cls) (hint : Hint) (ret : Option (BitVec 18))
  | red (op : AtomOp) (w : AW) (ab : AReg) (ss : SReg) (cls : Cls) (hint : Hint)
  | rflush (cls : Cls) (a : FAddr)
  | fence (b : Bool) (scope : Scope) (mask : BitVec 16)
  | cline (op : ClineOp) (cls : Cls) (a : FAddr)
  | cbdone (ss : SReg)
  | hmsg (vs : VReg) (ab : AReg) (cls : Cls) (rpl : Option (FReg × BitVec 16))
  -- C slot (R338)
  | cpy (a : CpyArgs)
  | cpyc (a : CpyArgs)
  | cpyt (a : CpyArgs)
  | cpye (a : CpyArgs)
  | bind (sw : Bool) (kind : BindKind) (g : GalleyNo) (hc : BitVec 2) (cls : Cls) (hint : Hint)
  | unbind (g : GalleyNo) (flag : Option FReg)
  | reshape (mode : RegMode) (r : RegionNo) (cls : Cls) (flag : Option FReg)
  | stash (sw : Bool) (r : RegionNo) (hc : BitVec 2) (hint : Hint) (flag : Option FReg)
  | cwb (keep : Bool) (r : RegionNo) (cls : Cls) (flag : Option FReg)
  | cqry (flag : FReg) (mask : BitVec 16)
  | rwin (sw : Bool) (hc : BitVec 2) (len : BitVec 25) (wid : BitVec 2) (flag : Option FReg)
  -- Handler cores (R225 to R236, R205)
  | slrd (rd rs1 : XReg)
  | slwr (rs1 rs2 : XReg)
  | sllk (rd rs1 : XReg)
  | slunlk (rs1 : XReg)
  | slfill (noev : Bool) (rd rs1 : XReg)
  | sldrop (rs1 : XReg)
  | slwb (rs1 : XReg)
  | slamo (op : AmoOp) (rd rs1 rs2 : XReg)
  | slevt (rd rs1 : XReg)
  | slmsg (rd rs1 rs2 : XReg)
  | slret (rs1 : XReg)
  | slbud (rd : XReg)
  | slnext (noev : Bool) (rd rs1 : XReg)
  | slwait (rd rs1 : XReg)
  | slage (rs1 rs2 : XReg)
  | slhas (rd rs1 : XReg)
  | handlerBase (w : RvWord)
  -- Events of the clusters
  | contextSelection (k : ClusterNo)
  | blockStart (k : ClusterNo) (c : CtxNo)
  | blockOverrun (k : ClusterNo) (c : CtxNo)
  | waitReissue (k : ClusterNo) (c : CtxNo)
  | flagSetByAgent (k : ClusterNo) (c : CtxNo) (f : FReg)
  | postFlagDelivery (n : Nat)
  | barrierRelease (n : Nat)
  | leadRestart (k : ClusterNo) (c : CtxNo)
  | spanBarrierMessage (n : Nat)
  | preemptStopAtWait (k : ClusterNo) (c : CtxNo)
  | saveRecordWritten (k : ClusterNo) (c : CtxNo)
  | owedWritePerformed (n : Nat)
  | nestKstep (k : ClusterNo) (pl : PlaneNo)
  | nestPassEnd (k : ClusterNo) (pl : PlaneNo)
  | planeOpComplete (k : ClusterNo) (pl : PlaneNo)
  -- Events of the compositor and the batching units
  | qtailWrite (q : BitVec 6) (v : BitVec 64)
  | qctlWrite (q : BitVec 6) (v : BitVec 64)
  | recordFetch (q : BitVec 6)
  | launchRetirement (n : Nat)
  | heldCreditApply (n : Nat)
  | launchFault (n : Nat)
  | faultStopTimeout (k : ClusterNo) (c : CtxNo)
  | preemptTimeout (n : Nat)
  | barrierTimeout (n : Nat)
  | cbtailWrite (u : BitVec 2) (v : BitVec 64)
  | cbRecordAdmit (u : BitVec 2)
  | cbGroupScan (u : BitVec 2)
  | cbGroupOpen (u : BitVec 2)
  | cbHandout (u : BitVec 2)
  | cbdoneCount (u : BitVec 2)
  | cberrWrite (u : BitVec 2) (v : BitVec 64)
  -- Events of translation and of the cluster store
  | pageWalk (n : Nat)
  | invAsid (asid : BitVec 12)
  | invRange (asid : BitVec 12)
  | bounceWrite (n : Nat)
  | pagerResolve (n : Nat)
  | stashGranuleFill (k : ClusterNo) (n : Nat)
  | granuleInvalidate (k : ClusterNo) (n : Nat)
  -- Events of the slices and the ring
  | homeAccess (n : Nat)
  | reductionShadowAdd (n : Nat)
  | channelFillArrival (sl : BitVec 9) (n : Nat)
  | hmsgArrival (n : Nat)
  | handlerDispatch (sl : BitVec 9)
  | handlerBudgetAbort (sl : BitVec 9)
  | replyDelivery (n : Nat)
  | farLoadReturn (n : Nat)
  | destinationFaultReport (n : Nat)
  -- Events of the copy engine
  | copyDispatch (k : ClusterNo) (n : Nat)
  | copyComplete (k : ClusterNo) (n : Nat)
  | engineAccessAbandon (n : Nat)
  | galleyFill (k : ClusterNo) (g : GalleyNo)
  | engineOpComplete (k : ClusterNo) (n : Nat)
  -- Events of the span, of watches, of resets
  | spanMessageArrival (n : Nat)
  | spanMessageDiscard (n : Nat)
  | waitaddrWake (k : ClusterNo) (c : CtxNo)
  | waitaddrTimeout (k : ClusterNo) (c : CtxNo)
  | arcStopQuiesce (x : BitVec 7)
  -- Events of the forme die, the host and power
  | elheadWrite (v : BitVec 64)
  | unmappedWindowAccess (a : Nat)
  | energyWindow (k : ClusterNo)
  | hostCompletion (n : Nat)
  | bbfullRecord (n : Nat)
  -- Events that come from outside the model: faults of the hardware, the host, firmware, sensors, a debugger
  | segmentReplay (k : ClusterNo) (pl : PlaneNo)
  | accumulatorParityError (k : ClusterNo) (pl : PlaneNo)
  | lateResponseDiscard (n : Nat)
  | chipletResetControlled (x : BitVec 7)
  | chipletResetUncontrolled (x : BitVec 7)
  | memoryChipletReset (m : BitVec 3)
  | flitCrcReplay (n : Nat)
  | linkFailover (n : Nat)
  | spanLinkDown (n : BitVec 3)
  | uncorrectableError (kind unit : Nat)
  | correctedErrorMerge (kind unit : Nat)
  | getMeasurements (n : Nat)
  | hostMemRead (a : Nat)
  | hostMemWrite (a : Nat) (v : BitVec 64)
  | hostErrorCompletion (n : Nat)
  | droopInject (k : ClusterNo)
  | temperatureReading (n : Nat) (t0 t1 t2 : Int)
  | throttleEnter (n : Nat)
  | throttleLeave (n : Nat)
  | imonDisagree (a b : Nat)
  | thermalTrip (n : Nat)
  | debugHalt (x : BitVec 7)
  | debugSave (x : BitVec 7)
  | debugRelease (x : BitVec 7)
  | registerWrite (a : Nat) (v : BitVec 64)
  | memoryChipletReturn (m : BitVec 3)
  | droopClear (k : ClusterNo)
  -- Events without operands
  | invAll
  | selection
  | invalidationDone
  | coldStart
  | warmStart
  | warmStartKeep
  | hostReset
  | startFailure
  | currentHalving
  | currentRestore
  | railGood
deriving DecidableEq, Repr

end Sys2Proof
end

