-- ==== Sys2Proof/WellFormed.lean ====
section
/-!
DEFINITION. What an instruction term must meet to have an encoding: the numeric limits the field types do not state
(R243, R310, R350, R375), and the slot each instruction belongs to (R242).
-/
namespace Sys2Proof

/-- The opcode maps of R242, the handler cores' words (R225) and the events, which have no encoding. -/
inductive Kind where
  | any | y | s | v | m | l | t | c | handler | event
deriving DecidableEq, Repr

/-- Bits of a vector element (R285). -/
def EW.bits : EW → Nat
  | .w8 => 8
  | .w16 => 16
  | .w32 => 32

/-- Bits of a floating element (R298). -/
def FT.bits : FT → Nat
  | .f32 => 32
  | .f16 => 16
  | .bf16 => 16

/-- Bits of a VCVT type (R303). -/
def CvtT.bits : CvtT → Nat
  | .f32 => 32
  | .f16 => 16
  | .bf16 => 16
  | .e4m3 => 8
  | .e5m2 => 8
  | .e2m1 => 4

/-- Bits of a block-format element (R41). -/
def BlkT.bits : BlkT → Nat
  | .mxe4m3 => 8
  | .mxe5m2 => 8
  | .mxfp4 => 4
  | .mxi8 => 8
  | .mxn8 => 8

/-- Bytes of an access width (R311). -/
def SW.bytes : SW → Nat
  | .b1 => 1
  | .b2 => 2
  | .b4 => 4
  | .b8 => 8

def VW.bytes : VW → Nat
  | .b32 => 32
  | .b64 => 64
  | .b128 => 128

def AW.bytes : AW → Nat
  | .b4 => 4
  | .b8 => 8

/-- The part field of a conversion between widths (R302). -/
def partOk (ws wd p : Nat) : Bool := p < max ws wd / min ws wd

/-- Control register numbers that R376 assigns. -/
def cregAssigned (n : Nat) : Bool :=
  n ≤ 0x006 || (0x010 ≤ n && n ≤ 0x012) || (0x020 ≤ n && n ≤ 0x022) || (0x030 ≤ n && n ≤ 0x032) ||
  (0x040 ≤ n && n ≤ 0x045) || (0x080 ≤ n && n ≤ 0x086) || (0x088 ≤ n && n ≤ 0x08B) || (0x090 ≤ n && n ≤ 0x095) ||
  (0x0A0 ≤ n && n ≤ 0x0DF) || n = 0x100 || (0x110 ≤ n && n ≤ 0x11F)

/-- An immediate vector shift is below the element width (R291). -/
def VAmt.wf (w : EW) : VAmt → Bool
  | .reg _ => true
  | .imm n => n.toNat < w.bits

/-- LOC = 1 requires CLS and HINT to be 0 (R312). -/
def locOk (loc : Bool) (cls : Cls) (h : Hint) : Bool := !loc || (cls == 0 && h == .none)

def MAddr.wf (a : MAddr) : Bool := locOk a.loc a.cls a.hint
def GAddr.wf (a : GAddr) : Bool := locOk a.loc a.cls a.hint
def TAddr.wf (a : TAddr) : Bool := locOk a.loc a.cls a.hint

/-- The margin range of SMARG (R356, R360). -/
def smargOk (drow col0 ncol : Nat) : Bool :=
  if ncol = 0 then drow == 0 && col0 == 0 else ncol ≤ 512 && col0 + ncol ≤ 512

/-- The limits stated with each instruction. -/
def Instr.wf : Instr → Bool
  | .dbar lvl _ => lvl.toNat ≤ 5
  | .mfc _ r => cregAssigned r.toNat
  | .mtc r _ => cregAssigned r.toNat
  | .vshl w _ _ a _ => a.wf w
  | .vshr w _ _ a _ => a.wf w
  | .vsar w _ _ a _ => a.wf w
  | .vrot w _ _ a _ => a.wf w
  | .vfsl w _ _ _ a _ => a.wf w
  | .vfsr w _ _ _ a _ => a.wf w
  | .vcmp _ w agg _ _ _ _ => !(agg && w == .w32)
  | .vbcst w _ _ idx _ => idx.toNat < 1024 / w.bits
  | .vrotl w _ _ r _ => r.toNat < 1024 / w.bits
  | .vfcmp _ t agg _ _ _ _ => !(agg && t == .f32)
  | .vcvt dty sty _ _ _ p _ => dty != sty && partOk sty.bits dty.bits p.toNat
  | .vcvti _ t _ w _ _ _ p _ => partOk t.bits w.bits p.toNat
  | .vcvtx _ t bt _ vd _ vb p => vb != vd && partOk t.bits bt.bits p.toNat
  | .slen j => 6 ≤ j.toNat && j.toNat ≤ 16
  | .sclr pls => pls != 0
  | .sdrain pls => pls != 0
  | .sstop pls => pls != 0
  | .smarg drow col0 ncol => smargOk drow.toNat col0.toNat ncol.toNat
  | .spos _ i => i.toNat ≤ 4
  | .slit (.n l) => l.toNat < 6
  | .ld _ w sx a => !(sx && w == .b8) && a.wf
  | .ldv _ _ a => a.wf
  | .lds (.s _ w sx) a => !(sx && w == .b8) && a.wf
  | .lds (.v _ _) a => a.wf
  | .ldg _ _ a => a.wf
  | .waitaddr _ _ _ tout _ => tout != 0
  | .ldt a => a.wf
  | .st _ _ a => a.wf
  | .stv _ _ a => a.wf
  | .sts _ w idx loc _ _ cls h => idx.toNat < 128 / w.bytes && locOk loc cls h
  | .stx _ _ a => a.wf
  | .stt a => a.wf
  | .atom op w _ ss _ _ _ => !(op == .fadd && w == .b8) && !(op == .cas && ss.toNat % 2 == 1)
  | .red op w _ _ _ _ => !(op == .fadd && w == .b8) && op != .swap && op != .cas
  | .bind _ kind _ hc _ _ => !(kind == .ldx && hc != 0)
  | .rwin _ hc len wid _ => len.toNat ≤ 2 ^ 24 && (if len = 0 then hc == 0 else wid == 0)
  | _ => true

/-- The opcode map an instruction stands in (R242). -/
def Instr.kind : Instr → Kind
  | .nop _ => .any
  | .br _ => .y
  | .bra _ => .y
  | .brs _ _ _ => .y
  | .brv _ _ _ => .y
  | .call _ _ => .y
  | .ret _ => .y
  | .jmpl _ _ => .y
  | .loopi _ _ => .y
  | .loope _ _ => .y
  | .chk _ _ => .y
  | .wait _ => .y
  | .waitp _ => .y
  | .setf _ => .y
  | .clrf _ => .y
  | .setp _ _ => .y
  | .post _ _ => .y
  | .dbar _ _ => .y
  | .send _ _ _ _ => .y
  | .recv _ _ _ _ => .y
  | .mark _ => .y
  | .yield => .y
  | .exit => .y
  | .trap _ _ => .y
  | .tret => .y
  | .add _ _ _ _ => .s
  | .sub _ _ _ _ => .s
  | .addi _ _ _ => .s
  | .mul _ _ _ _ => .s
  | .mulh _ _ _ => .s
  | .mulhn _ _ _ => .s
  | .div _ _ _ => .s
  | .divn _ _ _ => .s
  | .rem _ _ _ => .s
  | .remn _ _ _ => .s
  | .and _ _ _ => .s
  | .or _ _ _ => .s
  | .xor _ _ _ => .s
  | .andn _ _ _ => .s
  | .shl _ _ _ => .s
  | .shr _ _ _ => .s
  | .sar _ _ _ => .s
  | .rot _ _ _ => .s
  | .clz _ _ => .s
  | .ctz _ _ => .s
  | .popc _ _ => .s
  | .min _ _ _ => .s
  | .max _ _ _ => .s
  | .minn _ _ _ => .s
  | .maxn _ _ _ => .s
  | .cmp _ _ _ _ => .s
  | .cmpi _ _ _ _ => .s
  | .sel _ _ _ _ _ => .s
  | .li _ _ => .s
  | .lih _ _ => .s
  | .mov _ _ => .s
  | .xsv _ _ _ => .s
  | .xvs _ _ _ => .s
  | .xsa _ _ => .s
  | .xas _ _ => .s
  | .xsl _ _ => .s
  | .xls _ _ => .s
  | .mfc _ _ => .s
  | .mtc _ _ => .s
  | .vadd _ _ _ _ _ => .v
  | .vsub _ _ _ _ _ => .v
  | .vmul _ _ _ _ _ => .v
  | .vmulh _ _ _ _ _ _ => .v
  | .vmad _ _ _ _ _ _ => .v
  | .vabs _ _ _ _ _ => .v
  | .vmin _ _ _ _ _ => .v
  | .vmax _ _ _ _ _ => .v
  | .vminn _ _ _ _ _ => .v
  | .vmaxn _ _ _ _ _ => .v
  | .vand _ _ _ _ => .v
  | .vor _ _ _ _ => .v
  | .vxor _ _ _ _ => .v
  | .vlut3 _ _ _ _ _ _ => .v
  | .vshl _ _ _ _ _ => .v
  | .vshr _ _ _ _ _ => .v
  | .vsar _ _ _ _ _ => .v
  | .vfsl _ _ _ _ _ _ => .v
  | .vfsr _ _ _ _ _ _ => .v
  | .vrot _ _ _ _ _ => .v
  | .vpopc _ _ _ _ => .v
  | .vclz _ _ _ _ => .v
  | .vcmp _ _ _ _ _ _ _ => .v
  | .vsel _ _ _ _ _ _ => .v
  | .vbcst _ _ _ _ _ => .v
  | .vperm _ _ _ _ _ => .v
  | .vrotl _ _ _ _ _ => .v
  | .vreda _ _ _ _ => .v
  | .vredm _ _ _ _ _ => .v
  | .vtest _ _ _ => .v
  | .vfadd _ _ _ _ _ _ => .v
  | .vfsub _ _ _ _ _ _ => .v
  | .vfmul _ _ _ _ _ _ => .v
  | .vfma _ _ _ _ _ _ _ _ => .v
  | .vfmin _ _ _ _ _ => .v
  | .vfmax _ _ _ _ _ => .v
  | .vfcmp _ _ _ _ _ _ _ => .v
  | .vfrcp _ _ _ _ _ => .v
  | .vfrsq _ _ _ _ _ => .v
  | .vfexp2 _ _ _ _ _ => .v
  | .vflog2 _ _ _ _ _ => .v
  | .vcvt _ _ _ _ _ _ _ => .v
  | .vcvti _ _ _ _ _ _ _ _ _ => .v
  | .vcvtx _ _ _ _ _ _ _ _ => .v
  | .vpack _ _ _ _ _ _ _ _ => .v
  | .vunpk _ _ _ _ _ _ => .v
  | .vtrd _ _ _ _ _ _ => .v
  | .vtcd _ _ _ _ _ _ => .v
  | .vtwr _ _ _ _ _ _ => .v
  | .vmov _ _ _ => .v
  | .viota _ _ _ => .v
  | .vkop _ => .v
  | .sgo _ _ _ _ => .m
  | .slen _ => .m
  | .sseed => .m
  | .smode _ _ _ _ _ => .m
  | .sref _ => .m
  | .sclr _ => .m
  | .sacc _ _ _ _ _ _ => .m
  | .smarg _ _ _ => .m
  | .sdrain _ => .m
  | .stest _ => .m
  | .sstop _ => .m
  | .svmrg _ _ => .m
  | .spos _ _ => .m
  | .slit _ => .m
  | .ld _ _ _ _ => .l
  | .ldv _ _ _ => .l
  | .lds _ _ => .l
  | .ldg _ _ _ => .l
  | .ldx _ _ _ => .l
  | .lda _ _ _ _ _ _ => .l
  | .pref _ _ _ => .l
  | .waitaddr _ _ _ _ _ => .l
  | .ldt _ => .l
  | .cbtake _ _ => .l
  | .rfetch _ _ _ => .l
  | .st _ _ _ => .t
  | .stv _ _ _ => .t
  | .sts _ _ _ _ _ _ _ _ => .t
  | .stx _ _ _ => .t
  | .strl _ _ _ _ _ _ => .t
  | .stt _ => .t
  | .atom _ _ _ _ _ _ _ => .t
  | .red _ _ _ _ _ _ => .t
  | .rflush _ _ => .t
  | .fence _ _ _ => .t
  | .cline _ _ _ => .t
  | .cbdone _ => .t
  | .hmsg _ _ _ _ => .t
  | .cpy _ => .c
  | .cpyc _ => .c
  | .cpyt _ => .c
  | .cpye _ => .c
  | .bind _ _ _ _ _ _ => .c
  | .unbind _ _ => .c
  | .reshape _ _ _ _ => .c
  | .stash _ _ _ _ _ => .c
  | .cwb _ _ _ _ => .c
  | .cqry _ _ => .c
  | .rwin _ _ _ _ _ => .c
  | .slrd _ _ => .handler
  | .slwr _ _ => .handler
  | .sllk _ _ => .handler
  | .slunlk _ => .handler
  | .slfill _ _ _ => .handler
  | .sldrop _ => .handler
  | .slwb _ => .handler
  | .slamo _ _ _ _ => .handler
  | .slevt _ _ => .handler
  | .slmsg _ _ _ => .handler
  | .slret _ => .handler
  | .slbud _ => .handler
  | .slnext _ _ _ => .handler
  | .slwait _ _ => .handler
  | .slage _ _ => .handler
  | .slhas _ _ => .handler
  | .handlerBase _ => .handler
  | .contextSelection _ => .event
  | .blockStart _ _ => .event
  | .blockOverrun _ _ => .event
  | .waitReissue _ _ => .event
  | .flagSetByAgent _ _ _ => .event
  | .postFlagDelivery _ => .event
  | .barrierRelease _ => .event
  | .leadRestart _ _ => .event
  | .spanBarrierMessage _ => .event
  | .preemptStopAtWait _ _ => .event
  | .saveRecordWritten _ _ => .event
  | .owedWritePerformed _ => .event
  | .nestKstep _ _ => .event
  | .nestPassEnd _ _ => .event
  | .segmentReplay _ _ => .event
  | .accumulatorParityError _ _ => .event
  | .planeOpComplete _ _ => .event
  | .qtailWrite _ _ => .event
  | .qctlWrite _ _ => .event
  | .recordFetch _ => .event
  | .selection => .event
  | .launchRetirement _ => .event
  | .heldCreditApply _ => .event
  | .launchFault _ => .event
  | .faultStopTimeout _ _ => .event
  | .preemptTimeout _ => .event
  | .barrierTimeout _ => .event
  | .cbtailWrite _ _ => .event
  | .cbRecordAdmit _ => .event
  | .cbGroupScan _ => .event
  | .cbGroupOpen _ => .event
  | .cbHandout _ => .event
  | .cbdoneCount _ => .event
  | .cberrWrite _ _ => .event
  | .pageWalk _ => .event
  | .invAll => .event
  | .invAsid _ => .event
  | .invRange _ => .event
  | .invalidationDone => .event
  | .bounceWrite _ => .event
  | .pagerResolve _ => .event
  | .stashGranuleFill _ _ => .event
  | .granuleInvalidate _ _ => .event
  | .homeAccess _ => .event
  | .reductionShadowAdd _ => .event
  | .channelFillArrival _ _ => .event
  | .hmsgArrival _ => .event
  | .handlerDispatch _ => .event
  | .handlerBudgetAbort _ => .event
  | .replyDelivery _ => .event
  | .farLoadReturn _ => .event
  | .destinationFaultReport _ => .event
  | .copyDispatch _ _ => .event
  | .copyComplete _ _ => .event
  | .engineAccessAbandon _ => .event
  | .galleyFill _ _ => .event
  | .engineOpComplete _ _ => .event
  | .spanMessageArrival _ => .event
  | .spanMessageDiscard _ => .event
  | .waitaddrWake _ _ => .event
  | .waitaddrTimeout _ _ => .event
  | .arcStopQuiesce _ => .event
  | .lateResponseDiscard _ => .event
  | .chipletResetControlled _ => .event
  | .chipletResetUncontrolled _ => .event
  | .memoryChipletReset _ => .event
  | .flitCrcReplay _ => .event
  | .linkFailover _ => .event
  | .spanLinkDown _ => .event
  | .uncorrectableError _ _ => .event
  | .correctedErrorMerge _ _ => .event
  | .elheadWrite _ => .event
  | .coldStart => .event
  | .warmStart => .event
  | .warmStartKeep => .event
  | .hostReset => .event
  | .startFailure => .event
  | .getMeasurements _ => .event
  | .hostMemRead _ => .event
  | .hostMemWrite _ _ => .event
  | .unmappedWindowAccess _ => .event
  | .hostErrorCompletion _ => .event
  | .energyWindow _ => .event
  | .droopInject _ => .event
  | .temperatureReading _ _ _ _ => .event
  | .throttleEnter _ => .event
  | .throttleLeave _ => .event
  | .currentHalving => .event
  | .currentRestore => .event
  | .imonDisagree _ _ => .event
  | .thermalTrip _ => .event
  | .debugHalt _ => .event
  | .debugSave _ => .event
  | .debugRelease _ => .event
  | .registerWrite _ _ => .event
  | .railGood => .event
  | .memoryChipletReturn _ => .event
  | .droopClear _ => .event
  | .hostCompletion _ => .event
  | .bbfullRecord _ => .event

end Sys2Proof
end

