-- ==== Sys2Proof/Decode.lean ====
section
/-!
DEFINITION. The encodings: bundles, headers and slots of the cluster processor (R237 to R243), the operand fields of
every slot instruction, the handler cores' words (R225, R226; the base set after RISC-V, log 6), and the decoders,
which reject by name. After them, in the same file, the encoder.
-/
namespace Sys2Proof

/-! ## Fields -/

/-- The number whose fields, from high to low, have these widths and values. -/
def pack : List (Nat × Nat) → Nat
  | [] => 0
  | (_, v) :: fs => v * 2 ^ (fs.map (·.1)).sum + pack fs

/-- The values of the fields of these widths, from high to low, the last one at bit 0. -/
def unpack : List Nat → Nat → List Nat
  | [], _ => []
  | n :: ns, w => w / 2 ^ ns.sum % 2 ^ n :: unpack ns w

/-! ## Codes of the enumerated fields -/

def SumTest.code : SumTest → Nat
  | .any => 0 | .all => 1 | .none => 2 | .nall => 3
def SumTest.ofCode : Nat → Option SumTest
  | 0 => some .any | 1 => some .all | 2 => some .none | 3 => some .nall | _ => none
def MaskTest.code : MaskTest → Nat
  | .all => 0 | .none => 1
def MaskTest.ofCode : Nat → Option MaskTest
  | 0 => some .all | 1 => some .none | _ => none
def Cond.code : Cond → Nat
  | .eq => 0 | .ne => 1 | .lt => 2 | .ge => 3 | .ltn => 4 | .gen => 5 | .tst => 6 | .ntst => 7
def Cond.ofCode : Nat → Option Cond
  | 0 => some .eq | 1 => some .ne | 2 => some .lt | 3 => some .ge | 4 => some .ltn | 5 => some .gen
  | 6 => some .tst | 7 => some .ntst | _ => none
def EW.code : EW → Nat
  | .w8 => 0 | .w16 => 1 | .w32 => 2
def EW.ofCode : Nat → Option EW
  | 0 => some .w8 | 1 => some .w16 | 2 => some .w32 | _ => none
def FT.code : FT → Nat
  | .f32 => 0 | .f16 => 1 | .bf16 => 2
def FT.ofCode : Nat → Option FT
  | 0 => some .f32 | 1 => some .f16 | 2 => some .bf16 | _ => none
def Rm.code : Rm → Nat
  | .rne => 0 | .rz => 1 | .ru => 2 | .rd => 3
def Rm.ofCode : Nat → Option Rm
  | 0 => some .rne | 1 => some .rz | 2 => some .ru | 3 => some .rd | _ => none
def FmaForm.code : FmaForm → Nat
  | .pp => 0 | .ms => 1 | .nm => 2 | .nms => 3
def FmaForm.ofCode : Nat → Option FmaForm
  | 0 => some .pp | 1 => some .ms | 2 => some .nm | 3 => some .nms | _ => none
def FCond.code : FCond → Nat
  | .eq => 0 | .ne => 1 | .lt => 2 | .le => 3 | .gt => 4 | .ge => 5 | .un => 6 | .ord => 7
def FCond.ofCode : Nat → Option FCond
  | 0 => some .eq | 1 => some .ne | 2 => some .lt | 3 => some .le | 4 => some .gt | 5 => some .ge
  | 6 => some .un | 7 => some .ord | _ => none
def CvtT.code : CvtT → Nat
  | .f32 => 0 | .f16 => 1 | .bf16 => 2 | .e4m3 => 3 | .e5m2 => 4 | .e2m1 => 5
def CvtT.ofCode : Nat → Option CvtT
  | 0 => some .f32 | 1 => some .f16 | 2 => some .bf16 | 3 => some .e4m3 | 4 => some .e5m2 | 5 => some .e2m1
  | _ => none
def BlkT.code : BlkT → Nat
  | .mxe4m3 => 0 | .mxe5m2 => 1 | .mxfp4 => 2 | .mxi8 => 3 | .mxn8 => 4
def BlkT.ofCode : Nat → Option BlkT
  | 0 => some .mxe4m3 | 1 => some .mxe5m2 | 2 => some .mxfp4 | 3 => some .mxi8 | 4 => some .mxn8 | _ => none
def PackW.code : PackW → Nat
  | .w16 => 1 | .w32 => 2
def PackW.ofCode : Nat → Option PackW
  | 1 => some .w16 | 2 => some .w32 | _ => none
def TileCv.code : TileCv → Nat
  | .plain => 0 | .band => 1 | .bf16 => 2
def TileCv.ofCode : Nat → Option TileCv
  | 0 => some .plain | 1 => some .band | 2 => some .bf16 | _ => none
def EdgeFmt.code : EdgeFmt → Nat
  | .mxi8 => 0 | .mxn8 => 1 | .mxfp4 => 2
def EdgeFmt.ofCode : Nat → Option EdgeFmt
  | 0 => some .mxi8 | 1 => some .mxn8 | 2 => some .mxfp4 | _ => none
def SW.code : SW → Nat
  | .b1 => 0 | .b2 => 1 | .b4 => 2 | .b8 => 3
def SW.ofCode : Nat → Option SW
  | 0 => some .b1 | 1 => some .b2 | 2 => some .b4 | 3 => some .b8 | _ => none
def VW.code : VW → Nat
  | .b32 => 4 | .b64 => 5 | .b128 => 6
def VW.ofCode : Nat → Option VW
  | 4 => some .b32 | 5 => some .b64 | 6 => some .b128 | _ => none
def AW.code : AW → Nat
  | .b4 => 2 | .b8 => 3
def AW.ofCode : Nat → Option AW
  | 2 => some .b4 | 3 => some .b8 | _ => none
def Hint.code : Hint → Nat
  | .none => 0 | .nal => 1 | .nas => 2 | .byp => 3
def Hint.ofCode : Nat → Option Hint
  | 0 => some .none | 1 => some .nal | 2 => some .nas | 3 => some .byp | _ => none
def Scope.code : Scope → Nat
  | .clu => 0 | .chp => 1 | .arc => 2 | .mod => 3 | .sys => 4
def Scope.ofCode : Nat → Option Scope
  | 0 => some .clu | 1 => some .chp | 2 => some .arc | 3 => some .mod | 4 => some .sys | _ => none
def AtomOp.code : AtomOp → Nat
  | .add => 0 | .and => 1 | .or => 2 | .xor => 3 | .min => 4 | .max => 5 | .minn => 6 | .maxn => 7 | .swap => 8
  | .cas => 9 | .fadd => 10
def AtomOp.ofCode : Nat → Option AtomOp
  | 0 => some .add | 1 => some .and | 2 => some .or | 3 => some .xor | 4 => some .min | 5 => some .max
  | 6 => some .minn | 7 => some .maxn | 8 => some .swap | 9 => some .cas | 10 => some .fadd | _ => none
def ClineOp.code : ClineOp → Nat
  | .clean => 0 | .flush => 1 | .zero => 2
def ClineOp.ofCode : Nat → Option ClineOp
  | 0 => some .clean | 1 => some .flush | 2 => some .zero | _ => none
def BindKind.code : BindKind → Nat
  | .rd => 0 | .wr => 1 | .ldx => 2
def BindKind.ofCode : Nat → Option BindKind
  | 0 => some .rd | 1 => some .wr | 2 => some .ldx | _ => none
def RegMode.code : RegMode → Nat
  | .plain => 0 | .stash => 1 | .cache => 2
def RegMode.ofCode : Nat → Option RegMode
  | 0 => some .plain | 1 => some .stash | 2 => some .cache | _ => none
def AmoOp.code : AmoOp → Nat
  | .add => 0 | .and => 1 | .or => 2 | .xor => 3 | .min => 4 | .max => 5 | .minn => 6 | .maxn => 7 | .swap => 8
def AmoOp.ofCode : Nat → Option AmoOp
  | 0 => some .add | 1 => some .and | 2 => some .or | 3 => some .xor | 4 => some .min | 5 => some .max
  | 6 => some .minn | 7 => some .maxn | 8 => some .swap | _ => none

/-! ## Fields that hold one of several forms -/

/-- CHK: BANK and REG (R241). -/
def PoisonReg.bank : PoisonReg → Nat
  | .s _ => 0 | .v _ => 1
def PoisonReg.num : PoisonReg → Nat
  | .s n => n.toNat | .v n => n.toNat
def PoisonReg.ofCode (bank num : Nat) : PoisonReg :=
  if bank = 0 then .s (.ofNat 6 num) else .v (.ofNat 9 num)
/-- SETP: KIND and IMM16 (R274). -/
def SetpSrc.kind : SetpSrc → Nat
  | .flag _ => 0 | .sum _ _ => 1 | .value _ => 2
def SetpSrc.imm : SetpSrc → Nat
  | .flag f => f.toNat | .sum cc z => cc.code * 16 + z.toNat | .value b => b.toNat
def SetpSrc.ofCode (kind imm : Nat) : Option SetpSrc :=
  match kind with
  | 0 => some (.flag (.ofNat 6 imm))
  | 1 => (SumTest.ofCode (imm / 16)).map fun cc => .sum cc (.ofNat 3 imm)
  | 2 => some (.value (imm == 1))
  | _ => none
/-- POST: RG and the target (R272). -/
def PostTarget.rg : PostTarget → Nat
  | .group _ => 0 | .link _ => 1
def PostTarget.val : PostTarget → Nat
  | .group g => g.toNat | .link l => l.toNat
def PostTarget.ofCode (rg val : Nat) : PostTarget :=
  if rg = 0 then .group (.ofNat 24 val) else .link (.ofNat 2 val)
/-- MUL: SC and FN (R260). -/
def accReg : Option SReg → Nat
  | some c => c.toNat | none => 0
def accBit : Option SReg → Nat
  | some _ => 1 | none => 0
def accOf (fn sc : Nat) : Option (Option SReg) :=
  match fn with
  | 0 => some none
  | 1 => some (some (.ofNat 6 sc))
  | _ => none
/-- Shifts: SB, SH and FN (R260). -/
def ShAmt.sb : ShAmt → Nat
  | .reg r => r.toNat | .imm _ => 0
def ShAmt.sh : ShAmt → Nat
  | .reg _ => 0 | .imm n => n.toNat
def ShAmt.fn : ShAmt → Nat
  | .reg _ => 0 | .imm _ => 1
def ShAmt.ofCode (fn sb sh : Nat) : Option ShAmt :=
  match fn with
  | 0 => some (.reg (.ofNat 6 sb))
  | 1 => some (.imm (.ofNat 6 sh))
  | _ => none
/-- Vector shifts: the amount field and IMM (R291). -/
def VAmt.field : VAmt → Nat
  | .reg v => v.toNat | .imm n => n.toNat
def VAmt.bit : VAmt → Nat
  | .reg _ => 0 | .imm _ => 1
def VAmt.ofCode (im am : Nat) : Option VAmt :=
  match im with
  | 0 => some (.reg (.ofNat 9 am))
  | 1 => some (.imm (.ofNat 5 am))
  | _ => none
/-- VREDA and VREDM: F and FN[3:0] (R296). -/
def RedaForm.fbit : RedaForm → Nat
  | .fp _ => 1 | .int _ => 0
def RedaForm.low : RedaForm → Nat
  | .fp t => t.code | .int f => f.sat.toNat * 8 + f.n.toNat * 4 + f.w.code
def RedaForm.ofCode (fb lo : Nat) : Option RedaForm :=
  match fb with
  | 0 => (EW.ofCode (lo % 4)).map fun w => .int ⟨w, lo / 4 % 2 == 1, lo / 8 == 1⟩
  | 1 => (FT.ofCode lo).map .fp
  | _ => none
def RedmForm.fbit : RedmForm → Nat
  | .fp _ => 1 | .int _ _ => 0
def RedmForm.low : RedmForm → Nat
  | .fp t => t.code | .int w n => n.toNat * 4 + w.code
def RedmForm.ofCode (fb lo : Nat) : Option RedmForm :=
  match fb with
  | 0 => (EW.ofCode (lo % 4)).map fun w => .int w (lo / 4 == 1)
  | 1 => (FT.ofCode lo).map .fp
  | _ => none
/-- VTEST: VA and FN[0] (R297). -/
def TestSrc.num : TestSrc → Nat
  | .v n => n.toNat | .k n => n.toNat
def TestSrc.bit : TestSrc → Nat
  | .v _ => 0 | .k _ => 1
def TestSrc.ofCode (bt num : Nat) : TestSrc :=
  if bt = 0 then .v (.ofNat 9 num) else .k (.ofNat 4 num)
/-- VIOTA: VA, PFX and W (R294). -/
def IotaSrc.va : IotaSrc → Nat
  | .index _ => 0 | .pfx k => k.toNat
def IotaSrc.pfxBit : IotaSrc → Nat
  | .index _ => 0 | .pfx _ => 1
def IotaSrc.w : IotaSrc → Nat
  | .index w => w.code | .pfx _ => 2
def IotaSrc.ofCode (pf wc num : Nat) : Option IotaSrc :=
  match pf with
  | 0 => (EW.ofCode wc).map .index
  | 1 => some (.pfx (.ofNat 4 num))
  | _ => none
/-- VKOP: VD, VA, VB, FN[5:4] and FN[3:0] (R295). -/
def KopForm.vd : KopForm → Nat
  | .table kd _ _ _ => kd.toNat | .toMask kd _ => kd.toNat | .fromMask vd _ => vd.toNat
def KopForm.va : KopForm → Nat
  | .table _ ka _ _ => ka.toNat | .toMask _ va => va.toNat | .fromMask _ ka => ka.toNat
def KopForm.vb : KopForm → Nat
  | .table _ _ kb _ => kb.toNat | .toMask _ _ => 0 | .fromMask _ _ => 0
def KopForm.form : KopForm → Nat
  | .table .. => 0 | .toMask .. => 1 | .fromMask .. => 2
def KopForm.tt : KopForm → Nat
  | .table _ _ _ tt => tt.toNat | .toMask _ _ => 0 | .fromMask _ _ => 0
def KopForm.ofCode (fm vd va vb tt : Nat) : Option KopForm :=
  match fm with
  | 0 => some (.table (.ofNat 4 vd) (.ofNat 4 va) (.ofNat 4 vb) (.ofNat 4 tt))
  | 1 => some (.toMask (.ofNat 4 vd) (.ofNat 9 va))
  | 2 => some (.fromMask (.ofNat 9 vd) (.ofNat 4 va))
  | _ => none
/-- One bit of PL (R359). -/
def oneHot (p : PlaneNo) : Nat := 2 ^ p.toNat
def oneHotOf : Nat → Option PlaneNo
  | 1 => some 0 | 2 => some 1 | 4 => some 2 | 8 => some 3 | _ => none
/-- FV and FLG (R338, R360). -/
def flagValid : Option FReg → Nat
  | some _ => 1 | none => 0
def flagNum : Option FReg → Nat
  | some f => f.toNat | none => 0
def flagOf (fv flg : Nat) : Option FReg := if fv = 1 then some (.ofNat 6 flg) else none
/-- SLIT: HM and TGT (R360). -/
def SlitTgt.hmNum : SlitTgt → Nat
  | .hm h => h.toNat | .n _ => 0
def SlitTgt.tgt : SlitTgt → Nat
  | .hm _ => 0 | .n l => l.toNat + 1
def SlitTgt.ofCode (tg h : Nat) : SlitTgt := if tg = 0 then .hm (.ofNat 2 h) else .n (.ofNat 3 (tg - 1))
/-- DB or SB and DI or SI of an s or a register (R316, R327). -/
def SAReg.db : SAReg → Nat
  | .s _ => 0 | .a _ => 2
def SAReg.di : SAReg → Nat
  | .s n => n.toNat | .a n => n.toNat
def SAReg.ofCode (db di : Nat) : Option SAReg :=
  match db with
  | 0 => some (.s (.ofNat 6 di))
  | 2 => some (.a (.ofNat 5 di))
  | _ => none
/-- LDS: DB, DI, W and SX (R316). -/
def LdsDst.db : LdsDst → Nat
  | .s .. => 0 | .v .. => 1
def LdsDst.di : LdsDst → Nat
  | .s n _ _ => n.toNat | .v n _ => n.toNat
def LdsDst.w : LdsDst → Nat
  | .s _ w _ => w.code | .v _ w => w.code
def LdsDst.sx : LdsDst → Nat
  | .s _ _ x => x.toNat | .v _ _ => 0
def LdsDst.ofCode (db di wc sx : Nat) : Option LdsDst :=
  match db with
  | 0 => (SW.ofCode wc).map fun w => .s (.ofNat 6 di) w (sx == 1)
  | 1 => (VW.ofCode wc).map fun w => .v (.ofNat 9 di) w
  | _ => none
/-- LDT and STT: BAND, ROW and SEG (R324). -/
def TileSeg.bandBit : TileSeg → Nat
  | .data _ _ => 0 | .band _ => 1
def TileSeg.row : TileSeg → Nat
  | .data r _ => r.toNat | .band i => i.toNat
def TileSeg.sg : TileSeg → Nat
  | .data _ g => g.toNat | .band _ => 0
def TileSeg.ofCode (bd row sg : Nat) : TileSeg :=
  if bd = 0 then .data (.ofNat 11 row) (.ofNat 5 sg) else .band (.ofNat 6 row)
/-- ATOM: RET and ROFF (R329). -/
def retBit : Option (BitVec 18) → Nat
  | some _ => 1 | none => 0
def retOff : Option (BitVec 18) → Nat
  | some r => r.toNat | none => 0
def retOf (rt rof : Nat) : Option (BitVec 18) := if rt = 1 then some (.ofNat 18 rof) else none
/-- HMSG: RPL, FLAG and LOFF (R327). -/
def rplBit : Option (FReg × BitVec 16) → Nat
  | some _ => 1 | none => 0
def rplFlag : Option (FReg × BitVec 16) → Nat
  | some (f, _) => f.toNat | none => 0
def rplOff : Option (FReg × BitVec 16) → Nat
  | some (_, o) => o.toNat | none => 0
def rplOf (rb rf rof : Nat) : Option (FReg × BitVec 16) :=
  if rb = 1 then some (.ofNat 6 rf, .ofNat 16 rof) else none

/-! ## The slot instructions -/

/-- The opcode of a slot instruction (R242). Handler instructions and events have none. -/
def opcode : Instr → Nat
  | .nop .. => 0x00
  | .br .. => 0x01
  | .bra .. => 0x02
  | .brs .. => 0x03
  | .brv .. => 0x04
  | .call .. => 0x05
  | .ret .. => 0x06
  | .jmpl .. => 0x07
  | .loopi .. => 0x08
  | .loope .. => 0x09
  | .chk .. => 0x0a
  | .wait .. => 0x0b
  | .waitp .. => 0x0c
  | .setf .. => 0x0d
  | .clrf .. => 0x0e
  | .setp .. => 0x0f
  | .post .. => 0x10
  | .dbar .. => 0x11
  | .send .. => 0x12
  | .recv .. => 0x13
  | .mark .. => 0x14
  | .yield .. => 0x15
  | .exit .. => 0x16
  | .trap .. => 0x17
  | .tret .. => 0x18
  | .add .. => 0x01
  | .sub .. => 0x02
  | .addi .. => 0x03
  | .mul .. => 0x04
  | .mulh .. => 0x05
  | .mulhn .. => 0x06
  | .div .. => 0x07
  | .divn .. => 0x08
  | .rem .. => 0x09
  | .remn .. => 0x0a
  | .and .. => 0x0b
  | .or .. => 0x0c
  | .xor .. => 0x0d
  | .andn .. => 0x0e
  | .min .. => 0x16
  | .max .. => 0x17
  | .minn .. => 0x18
  | .maxn .. => 0x19
  | .shl .. => 0x0f
  | .shr .. => 0x10
  | .sar .. => 0x11
  | .rot .. => 0x12
  | .clz .. => 0x13
  | .ctz .. => 0x14
  | .popc .. => 0x15
  | .mov .. => 0x1f
  | .cmp .. => 0x1a
  | .cmpi .. => 0x1b
  | .sel .. => 0x1c
  | .li .. => 0x1d
  | .lih .. => 0x1e
  | .xsv .. => 0x20
  | .xvs .. => 0x21
  | .xsa .. => 0x22
  | .xas .. => 0x23
  | .xsl .. => 0x24
  | .xls .. => 0x25
  | .mfc .. => 0x26
  | .mtc .. => 0x27
  | .vadd .. => 0x01
  | .vsub .. => 0x02
  | .vmul .. => 0x03
  | .vmulh .. => 0x04
  | .vmad .. => 0x05
  | .vabs .. => 0x06
  | .vmin .. => 0x07
  | .vmax .. => 0x08
  | .vminn .. => 0x09
  | .vmaxn .. => 0x0a
  | .vand .. => 0x0b
  | .vor .. => 0x0c
  | .vxor .. => 0x0d
  | .vlut3 .. => 0x0e
  | .vshl .. => 0x0f
  | .vshr .. => 0x10
  | .vsar .. => 0x11
  | .vrot .. => 0x14
  | .vfsl .. => 0x12
  | .vfsr .. => 0x13
  | .vpopc .. => 0x15
  | .vclz .. => 0x16
  | .vcmp .. => 0x17
  | .vsel .. => 0x18
  | .vbcst .. => 0x19
  | .vperm .. => 0x1a
  | .vrotl .. => 0x1b
  | .vreda .. => 0x1c
  | .vredm .. => 0x1d
  | .vtest .. => 0x1e
  | .vfadd .. => 0x1f
  | .vfsub .. => 0x20
  | .vfmul .. => 0x21
  | .vfma .. => 0x22
  | .vfmin .. => 0x23
  | .vfmax .. => 0x24
  | .vfcmp .. => 0x25
  | .vfrcp .. => 0x26
  | .vfrsq .. => 0x27
  | .vfexp2 .. => 0x28
  | .vflog2 .. => 0x29
  | .vcvt .. => 0x2a
  | .vcvti .. => 0x2b
  | .vcvtx .. => 0x2c
  | .vpack .. => 0x2d
  | .vunpk .. => 0x2e
  | .vtrd .. => 0x2f
  | .vtcd .. => 0x30
  | .vtwr .. => 0x31
  | .vmov .. => 0x32
  | .viota .. => 0x33
  | .vkop .. => 0x34
  | .sgo .. => 0x01
  | .slen .. => 0x02
  | .sseed .. => 0x03
  | .smode .. => 0x04
  | .sref .. => 0x05
  | .sclr .. => 0x06
  | .sdrain .. => 0x09
  | .sstop .. => 0x0b
  | .sacc .. => 0x07
  | .smarg .. => 0x08
  | .stest .. => 0x0a
  | .svmrg .. => 0x0c
  | .spos .. => 0x0d
  | .slit .. => 0x0e
  | .ld .. => 0x01
  | .ldv .. => 0x02
  | .lds .. => 0x03
  | .ldg .. => 0x04
  | .ldx .. => 0x05
  | .lda .. => 0x06
  | .pref .. => 0x07
  | .waitaddr .. => 0x08
  | .ldt .. => 0x09
  | .cbtake .. => 0x0a
  | .rfetch .. => 0x0b
  | .st .. => 0x01
  | .stv .. => 0x02
  | .sts .. => 0x03
  | .stx .. => 0x04
  | .strl .. => 0x05
  | .stt .. => 0x06
  | .atom .. => 0x07
  | .red .. => 0x08
  | .rflush .. => 0x09
  | .fence .. => 0x0a
  | .cline .. => 0x0b
  | .cbdone .. => 0x0c
  | .hmsg .. => 0x0d
  | .cpy .. => 0x01
  | .cpyc .. => 0x02
  | .cpyt .. => 0x03
  | .cpye .. => 0x04
  | .bind .. => 0x05
  | .unbind .. => 0x06
  | .reshape .. => 0x07
  | .stash .. => 0x08
  | .cwb .. => 0x09
  | .cqry .. => 0x0a
  | .rwin .. => 0x0b
  | _ => 0

/-- The operand bits [47:0] of a slot instruction, from high to low, as (width, value) (R241 and the encoding tables
of R260 to R387). -/
def fields : Instr → List (Nat × Nat)
  | .nop desc => [(48, desc.toNat)]
  | .br ⟨ldisp, bdisp⟩ => [(10, 0), (18, ldisp.toNat), (20, bdisp.toNat)]
  | .bra l => [(46, 0), (2, l.toNat)]
  | .brs cc z ⟨ldisp, bdisp⟩ => [(4, cc.code), (1, 0), (3, z.toNat), (2, 0), (18, ldisp.toNat), (20, bdisp.toNat)]
  | .brv cc k ⟨ldisp, bdisp⟩ => [(4, cc.code), (4, k.toNat), (2, 0), (18, ldisp.toNat), (20, bdisp.toNat)]
  | .call l ⟨ldisp, bdisp⟩ => [(8, 0), (2, l.toNat), (18, ldisp.toNat), (20, bdisp.toNat)]
  | .ret l => [(46, 0), (2, l.toNat)]
  | .jmpl ld l => [(44, 0), (2, ld.toNat), (2, l.toNat)]
  | .loopi l count => [(16, count.toNat), (30, 0), (2, l.toNat)]
  | .loope l ⟨ldisp, bdisp⟩ => [(8, 0), (2, l.toNat), (18, ldisp.toNat), (20, bdisp.toNat)]
  | .chk r ⟨ldisp, bdisp⟩ => [(1, PoisonReg.bank r), (9, PoisonReg.num r), (18, ldisp.toNat), (20, bdisp.toNat)]
  | .wait ⟨f0, f1, f2, f3, f4, f5, f6, f7⟩ => [(6, f7.toNat), (6, f6.toNat), (6, f5.toNat), (6, f4.toNat), (6, f3.toNat), (6, f2.toNat), (6, f1.toNat), (6, f0.toNat)]
  | .waitp ⟨⟨sv, sf⟩, ⟨v0v, v0f⟩, ⟨v1v, v1f⟩, ⟨mv, mf⟩, ⟨lv, lf⟩, ⟨tv, tf⟩, ⟨cv, cf⟩⟩ => [(6, 0), (1, sv.toNat), (5, sf.toNat), (1, v0v.toNat), (5, v0f.toNat), (1, v1v.toNat), (5, v1f.toNat), (1, mv.toNat), (5, mf.toNat), (1, lv.toNat), (5, lf.toNat), (1, tv.toNat), (5, tf.toNat), (1, cv.toNat), (5, cf.toNat)]
  | .setf f => [(42, 0), (6, f.toNat)]
  | .clrf f => [(42, 0), (6, f.toNat)]
  | .setp pd src => [(16, SetpSrc.imm src), (24, 0), (4, SetpSrc.kind src), (4, pd.toNat)]
  | .post tgt f => [(10, 0), (6, f.toNat), (1, PostTarget.rg tgt), (7, 0), (24, PostTarget.val tgt)]
  | .dbar lvl lead => [(44, 0), (1, lead.toNat), (3, lvl.toNat)]
  | .send md ch l nfl => [(4, ch.toNat), (12, md.toNat), (24, 0), (4, nfl.toNat), (2, 0), (2, l.toNat)]
  | .recv md ch l nfl => [(4, ch.toNat), (12, md.toNat), (24, 0), (4, nfl.toNat), (2, 0), (2, l.toNat)]
  | .mark lm => [(16, lm.toNat), (32, 0)]
  | .yield => [(48, 0)]
  | .exit => [(48, 0)]
  | .trap code val => [(16, code.toNat), (32, val.toNat)]
  | .tret => [(48, 0)]
  | .add sd sa sb sh => [(6, sd.toNat), (6, sa.toNat), (6, sb.toNat), (6, 0), (6, sh.toNat), (18, 0)]
  | .sub sd sa sb sh => [(6, sd.toNat), (6, sa.toNat), (6, sb.toNat), (6, 0), (6, sh.toNat), (18, 0)]
  | .addi sd sa imm => [(6, sd.toNat), (6, sa.toNat), (36, imm.toNat)]
  | .mul sd sa sb acc => [(6, sd.toNat), (6, sa.toNat), (6, sb.toNat), (6, accReg acc), (16, 0), (8, accBit acc)]
  | .mulh sd sa sb => [(6, sd.toNat), (6, sa.toNat), (6, sb.toNat), (30, 0)]
  | .mulhn sd sa sb => [(6, sd.toNat), (6, sa.toNat), (6, sb.toNat), (30, 0)]
  | .div sd sa sb => [(6, sd.toNat), (6, sa.toNat), (6, sb.toNat), (30, 0)]
  | .divn sd sa sb => [(6, sd.toNat), (6, sa.toNat), (6, sb.toNat), (30, 0)]
  | .rem sd sa sb => [(6, sd.toNat), (6, sa.toNat), (6, sb.toNat), (30, 0)]
  | .remn sd sa sb => [(6, sd.toNat), (6, sa.toNat), (6, sb.toNat), (30, 0)]
  | .and sd sa sb => [(6, sd.toNat), (6, sa.toNat), (6, sb.toNat), (30, 0)]
  | .or sd sa sb => [(6, sd.toNat), (6, sa.toNat), (6, sb.toNat), (30, 0)]
  | .xor sd sa sb => [(6, sd.toNat), (6, sa.toNat), (6, sb.toNat), (30, 0)]
  | .andn sd sa sb => [(6, sd.toNat), (6, sa.toNat), (6, sb.toNat), (30, 0)]
  | .min sd sa sb => [(6, sd.toNat), (6, sa.toNat), (6, sb.toNat), (30, 0)]
  | .max sd sa sb => [(6, sd.toNat), (6, sa.toNat), (6, sb.toNat), (30, 0)]
  | .minn sd sa sb => [(6, sd.toNat), (6, sa.toNat), (6, sb.toNat), (30, 0)]
  | .maxn sd sa sb => [(6, sd.toNat), (6, sa.toNat), (6, sb.toNat), (30, 0)]
  | .shl sd sa amt => [(6, sd.toNat), (6, sa.toNat), (6, ShAmt.sb amt), (6, 0), (6, ShAmt.sh amt), (10, 0), (8, ShAmt.fn amt)]
  | .shr sd sa amt => [(6, sd.toNat), (6, sa.toNat), (6, ShAmt.sb amt), (6, 0), (6, ShAmt.sh amt), (10, 0), (8, ShAmt.fn amt)]
  | .sar sd sa amt => [(6, sd.toNat), (6, sa.toNat), (6, ShAmt.sb amt), (6, 0), (6, ShAmt.sh amt), (10, 0), (8, ShAmt.fn amt)]
  | .rot sd sa amt => [(6, sd.toNat), (6, sa.toNat), (6, ShAmt.sb amt), (6, 0), (6, ShAmt.sh amt), (10, 0), (8, ShAmt.fn amt)]
  | .clz sd sa => [(6, sd.toNat), (6, sa.toNat), (36, 0)]
  | .ctz sd sa => [(6, sd.toNat), (6, sa.toNat), (36, 0)]
  | .popc sd sa => [(6, sd.toNat), (6, sa.toNat), (36, 0)]
  | .mov sd sa => [(6, sd.toNat), (6, sa.toNat), (36, 0)]
  | .cmp cc pd sa sb => [(2, 0), (4, pd.toNat), (6, sa.toNat), (6, sb.toNat), (22, 0), (8, cc.code)]
  | .cmpi cc pd sa imm => [(2, 0), (4, pd.toNat), (6, sa.toNat), (4, cc.code), (32, imm.toNat)]
  | .sel sd neg p sa sb => [(6, sd.toNat), (6, sa.toNat), (6, sb.toNat), (25, 0), (1, neg.toNat), (4, p.toNat)]
  | .li sd imm => [(6, sd.toNat), (42, imm.toNat)]
  | .lih sd imm => [(6, sd.toNat), (20, 0), (22, imm.toNat)]
  | .xsv vd lane ss => [(9, vd.toNat), (3, 0), (6, ss.toNat), (5, lane.toNat), (25, 0)]
  | .xvs sd vs lane => [(3, 0), (6, sd.toNat), (9, vs.toNat), (5, lane.toNat), (25, 0)]
  | .xsa ad ss => [(4, 0), (5, ad.toNat), (3, 0), (6, ss.toNat), (30, 0)]
  | .xas sd sa => [(3, 0), (6, sd.toNat), (4, 0), (5, sa.toNat), (30, 0)]
  | .xsl ld ss => [(7, 0), (2, ld.toNat), (3, 0), (6, ss.toNat), (30, 0)]
  | .xls sd ls => [(3, 0), (6, sd.toNat), (7, 0), (2, ls.toNat), (30, 0)]
  | .mfc sd creg => [(6, sd.toNat), (12, creg.toNat), (30, 0)]
  | .mtc creg ss => [(6, ss.toNat), (12, creg.toNat), (30, 0)]
  | .vadd ⟨w, n, sat⟩ vd va vb k => [(9, vd.toNat), (9, va.toNat), (9, vb.toNat), (9, 0), (4, k.toNat), (4, 0), (1, sat.toNat), (1, n.toNat), (2, w.code)]
  | .vsub ⟨w, n, sat⟩ vd va vb k => [(9, vd.toNat), (9, va.toNat), (9, vb.toNat), (9, 0), (4, k.toNat), (4, 0), (1, sat.toNat), (1, n.toNat), (2, w.code)]
  | .vmul ⟨w, n, sat⟩ vd va vb k => [(9, vd.toNat), (9, va.toNat), (9, vb.toNat), (9, 0), (4, k.toNat), (4, 0), (1, sat.toNat), (1, n.toNat), (2, w.code)]
  | .vmulh w n vd va vb k => [(9, vd.toNat), (9, va.toNat), (9, vb.toNat), (9, 0), (4, k.toNat), (5, 0), (1, n.toNat), (2, w.code)]
  | .vmad ⟨w, n, sat⟩ vd va vb vc k => [(9, vd.toNat), (9, va.toNat), (9, vb.toNat), (9, vc.toNat), (4, k.toNat), (4, 0), (1, sat.toNat), (1, n.toNat), (2, w.code)]
  | .vabs w sat vd va k => [(9, vd.toNat), (9, va.toNat), (18, 0), (4, k.toNat), (4, 0), (1, sat.toNat), (1, 0), (2, w.code)]
  | .vmin w vd va vb k => [(9, vd.toNat), (9, va.toNat), (9, vb.toNat), (9, 0), (4, k.toNat), (6, 0), (2, w.code)]
  | .vmax w vd va vb k => [(9, vd.toNat), (9, va.toNat), (9, vb.toNat), (9, 0), (4, k.toNat), (6, 0), (2, w.code)]
  | .vminn w vd va vb k => [(9, vd.toNat), (9, va.toNat), (9, vb.toNat), (9, 0), (4, k.toNat), (6, 0), (2, w.code)]
  | .vmaxn w vd va vb k => [(9, vd.toNat), (9, va.toNat), (9, vb.toNat), (9, 0), (4, k.toNat), (6, 0), (2, w.code)]
  | .vand vd va vb k => [(9, vd.toNat), (9, va.toNat), (9, vb.toNat), (9, 0), (4, k.toNat), (8, 0)]
  | .vor vd va vb k => [(9, vd.toNat), (9, va.toNat), (9, vb.toNat), (9, 0), (4, k.toNat), (8, 0)]
  | .vxor vd va vb k => [(9, vd.toNat), (9, va.toNat), (9, vb.toNat), (9, 0), (4, k.toNat), (8, 0)]
  | .vlut3 tt vd va vb vc k => [(9, vd.toNat), (9, va.toNat), (9, vb.toNat), (9, vc.toNat), (4, k.toNat), (8, tt.toNat)]
  | .vshl w vd va amt k => [(9, vd.toNat), (9, va.toNat), (9, VAmt.field amt), (9, 0), (4, k.toNat), (3, 0), (1, VAmt.bit amt), (2, 0), (2, w.code)]
  | .vshr w vd va amt k => [(9, vd.toNat), (9, va.toNat), (9, VAmt.field amt), (9, 0), (4, k.toNat), (3, 0), (1, VAmt.bit amt), (2, 0), (2, w.code)]
  | .vsar w vd va amt k => [(9, vd.toNat), (9, va.toNat), (9, VAmt.field amt), (9, 0), (4, k.toNat), (3, 0), (1, VAmt.bit amt), (2, 0), (2, w.code)]
  | .vrot w vd va amt k => [(9, vd.toNat), (9, va.toNat), (9, VAmt.field amt), (9, 0), (4, k.toNat), (3, 0), (1, VAmt.bit amt), (2, 0), (2, w.code)]
  | .vfsl w vd va vb amt k => [(9, vd.toNat), (9, va.toNat), (9, vb.toNat), (9, VAmt.field amt), (4, k.toNat), (3, 0), (1, VAmt.bit amt), (2, 0), (2, w.code)]
  | .vfsr w vd va vb amt k => [(9, vd.toNat), (9, va.toNat), (9, vb.toNat), (9, VAmt.field amt), (4, k.toNat), (3, 0), (1, VAmt.bit amt), (2, 0), (2, w.code)]
  | .vpopc w vd va k => [(9, vd.toNat), (9, va.toNat), (18, 0), (4, k.toNat), (6, 0), (2, w.code)]
  | .vclz w vd va k => [(9, vd.toNat), (9, va.toNat), (18, 0), (4, k.toNat), (6, 0), (2, w.code)]
  | .vcmp cc w agg kd va vb k => [(5, 0), (4, kd.toNat), (9, va.toNat), (9, vb.toNat), (9, 0), (4, k.toNat), (4, cc.code), (1, 0), (1, agg.toNat), (2, w.code)]
  | .vsel neg kn vd va vb k => [(9, vd.toNat), (9, va.toNat), (9, vb.toNat), (5, 0), (4, kn.toNat), (4, k.toNat), (3, 0), (1, neg.toNat), (4, 0)]
  | .vbcst w vd va idx k => [(9, vd.toNat), (9, va.toNat), (2, 0), (7, idx.toNat), (9, 0), (4, k.toNat), (6, 0), (2, w.code)]
  | .vperm w vd va vb k => [(9, vd.toNat), (9, va.toNat), (9, vb.toNat), (9, 0), (4, k.toNat), (6, 0), (2, w.code)]
  | .vrotl w vd va r k => [(9, vd.toNat), (9, va.toNat), (2, 0), (7, r.toNat), (9, 0), (4, k.toNat), (6, 0), (2, w.code)]
  | .vreda f vd va k => [(9, vd.toNat), (9, va.toNat), (18, 0), (4, k.toNat), (3, 0), (1, RedaForm.fbit f), (4, RedaForm.low f)]
  | .vredm mx f vd va k => [(9, vd.toNat), (9, va.toNat), (18, 0), (4, k.toNat), (2, 0), (1, mx.toNat), (1, RedmForm.fbit f), (4, RedmForm.low f)]
  | .vtest zd src k => [(6, 0), (3, zd.toNat), (9, TestSrc.num src), (18, 0), (4, k.toNat), (7, 0), (1, TestSrc.bit src)]
  | .vfadd t rm vd va vb k => [(9, vd.toNat), (9, va.toNat), (9, vb.toNat), (9, 0), (4, k.toNat), (4, 0), (2, rm.code), (2, t.code)]
  | .vfsub t rm vd va vb k => [(9, vd.toNat), (9, va.toNat), (9, vb.toNat), (9, 0), (4, k.toNat), (4, 0), (2, rm.code), (2, t.code)]
  | .vfmul t rm vd va vb k => [(9, vd.toNat), (9, va.toNat), (9, vb.toNat), (9, 0), (4, k.toNat), (4, 0), (2, rm.code), (2, t.code)]
  | .vfma f t rm vd va vb vc k => [(9, vd.toNat), (9, va.toNat), (9, vb.toNat), (9, vc.toNat), (4, k.toNat), (2, 0), (2, f.code), (2, rm.code), (2, t.code)]
  | .vfmin t vd va vb k => [(9, vd.toNat), (9, va.toNat), (9, vb.toNat), (9, 0), (4, k.toNat), (6, 0), (2, t.code)]
  | .vfmax t vd va vb k => [(9, vd.toNat), (9, va.toNat), (9, vb.toNat), (9, 0), (4, k.toNat), (6, 0), (2, t.code)]
  | .vfcmp cc t agg kd va vb k => [(5, 0), (4, kd.toNat), (9, va.toNat), (9, vb.toNat), (9, 0), (4, k.toNat), (4, cc.code), (1, 0), (1, agg.toNat), (2, t.code)]
  | .vfrcp t rm vd va k => [(9, vd.toNat), (9, va.toNat), (18, 0), (4, k.toNat), (4, 0), (2, rm.code), (2, t.code)]
  | .vfrsq t rm vd va k => [(9, vd.toNat), (9, va.toNat), (18, 0), (4, k.toNat), (4, 0), (2, rm.code), (2, t.code)]
  | .vfexp2 t rm vd va k => [(9, vd.toNat), (9, va.toNat), (18, 0), (4, k.toNat), (4, 0), (2, rm.code), (2, t.code)]
  | .vflog2 t rm vd va k => [(9, vd.toNat), (9, va.toNat), (18, 0), (4, k.toNat), (4, 0), (2, rm.code), (2, t.code)]
  | .vcvt dt sty rm vd va p k => [(9, vd.toNat), (9, va.toNat), (6, 0), (3, p.toNat), (9, 0), (4, k.toNat), (3, sty.code), (3, dt.code), (2, rm.code)]
  | .vcvti toF t n w rm vd va p k => [(9, vd.toNat), (9, va.toNat), (6, 0), (3, p.toNat), (9, 0), (4, k.toNat), (1, toF.toNat), (2, t.code), (1, n.toNat), (2, w.code), (2, rm.code)]
  | .vcvtx fromB t bt rm vd va vb p => [(9, vd.toNat), (9, va.toNat), (9, vb.toNat), (6, 0), (3, p.toNat), (4, 0), (1, fromB.toNat), (2, t.code), (3, bt.code), (2, rm.code)]
  | .vpack sw n dn sat vd va vb k => [(9, vd.toNat), (9, va.toNat), (9, vb.toNat), (9, 0), (4, k.toNat), (3, 0), (1, sat.toNat), (1, dn.toNat), (1, n.toNat), (2, sw.code)]
  | .vunpk dw n vd va p k => [(9, vd.toNat), (9, va.toNat), (8, 0), (1, p.toNat), (9, 0), (4, k.toNat), (5, 0), (1, n.toNat), (2, dw.code)]
  | .vtrd cv v tile idx seg k => [(9, v.toNat), (5, tile.toNat), (11, idx.toNat), (11, 0), (4, k.toNat), (3, cv.code), (5, seg.toNat)]
  | .vtcd cv v tile idx seg k => [(9, v.toNat), (5, tile.toNat), (11, idx.toNat), (11, 0), (4, k.toNat), (3, cv.code), (5, seg.toNat)]
  | .vtwr cv v tile idx seg k => [(9, v.toNat), (5, tile.toNat), (11, idx.toNat), (11, 0), (4, k.toNat), (3, cv.code), (5, seg.toNat)]
  | .vmov vd va k => [(9, vd.toNat), (9, va.toNat), (18, 0), (4, k.toNat), (8, 0)]
  | .viota src vd k => [(9, vd.toNat), (9, IotaSrc.va src), (18, 0), (4, k.toNat), (3, 0), (1, IotaSrc.pfxBit src), (2, 0), (2, IotaSrc.w src)]
  | .vkop f => [(9, KopForm.vd f), (9, KopForm.va f), (9, KopForm.vb f), (15, 0), (2, KopForm.form f), (4, KopForm.tt f)]
  | .sgo sw hm pl flag => [(2, hm.toNat), (4, oneHot pl), (1, sw.toNat), (1, flagValid flag), (6, flagNum flag), (34, 0)]
  | .slen j => [(43, 0), (5, j.toNat)]
  | .sseed => [(48, 0)]
  | .smode a b bp ns pr => [(38, 0), (2, a.code), (2, b.code), (1, bp.toNat), (1, ns.toNat), (1, pr.toNat), (3, 0)]
  | .sref e => [(38, 0), (10, e.toNat)]
  | .sclr pls => [(2, 0), (4, pls.toNat), (42, 0)]
  | .sdrain pls => [(2, 0), (4, pls.toNat), (42, 0)]
  | .sstop pls => [(2, 0), (4, pls.toNat), (42, 0)]
  | .sacc bf tile trow pl prow pcol => [(2, 0), (4, oneHot pl), (9, prow.toNat), (5, tile.toNat), (11, trow.toNat), (9, pcol.toNat), (1, bf.toNat), (7, 0)]
  | .smarg drow col0 ncol => [(6, 0), (9, drow.toNat), (9, col0.toNat), (10, ncol.toNat), (14, 0)]
  | .stest pl => [(2, 0), (4, oneHot pl), (42, 0)]
  | .svmrg g nw => [(37, 0), (8, nw.toNat), (3, g.toNat)]
  | .spos pl i => [(2, 0), (4, oneHot pl), (39, 0), (3, i.toNat)]
  | .slit tgt => [(2, SlitTgt.hmNum tgt), (42, 0), (4, SlitTgt.tgt tgt)]
  | .ld d w sx ⟨loc, ab, off, cls, hint⟩ => [(2, SAReg.db d), (9, SAReg.di d), (5, ab.toNat), (4, cls.toNat), (2, hint.code), (3, w.code), (1, loc.toNat), (1, sx.toNat), (21, off.toNat)]
  | .ldv vd w ⟨loc, ab, off, cls, hint⟩ => [(2, 1), (9, vd.toNat), (5, ab.toNat), (4, cls.toNat), (2, hint.code), (3, w.code), (1, loc.toNat), (1, 0), (21, off.toNat)]
  | .lds d ⟨loc, ab, off, cls, hint⟩ => [(2, LdsDst.db d), (9, LdsDst.di d), (5, ab.toNat), (4, cls.toNat), (2, hint.code), (3, LdsDst.w d), (1, loc.toNat), (1, LdsDst.sx d), (21, off.toNat)]
  | .ldg vd w ⟨loc, ab, sr, cls, hint⟩ => [(2, 1), (9, vd.toNat), (5, ab.toNat), (4, cls.toNat), (2, hint.code), (3, w.code), (1, loc.toNat), (5, sr.toNat), (17, 0)]
  | .ldx g hint ⟨ab, off⟩ => [(2, 1), (5, 31), (4, g.toNat), (5, ab.toNat), (4, 0), (2, hint.code), (3, 6), (2, 0), (21, off.toNat)]
  | .lda d w scope ab cls mask => [(2, SAReg.db d), (9, SAReg.di d), (5, ab.toNat), (4, cls.toNat), (2, 0), (3, w.code), (3, scope.code), (16, mask.toNat), (4, 0)]
  | .pref cls hint ⟨ab, off⟩ => [(11, 0), (5, ab.toNat), (4, cls.toNat), (2, hint.code), (3, 0), (2, 0), (21, off.toNat)]
  | .waitaddr ad w ab tout cls => [(2, 2), (4, 0), (5, ad.toNat), (5, ab.toNat), (4, cls.toNat), (2, 0), (3, w.code), (7, tout.toNat), (16, 0)]
  | .ldt ⟨loc, ab, tile, seg, cls, hint⟩ => [(11, 0), (5, ab.toNat), (4, cls.toNat), (2, hint.code), (3, 6), (1, loc.toNat), (1, TileSeg.bandBit seg), (5, tile.toNat), (11, TileSeg.row seg), (5, TileSeg.sg seg)]
  | .cbtake vd cls => [(2, 1), (9, vd.toNat), (5, 0), (4, cls.toNat), (28, 0)]
  | .rfetch sd cls ⟨ab, off⟩ => [(2, 0), (3, 0), (6, sd.toNat), (5, ab.toNat), (4, cls.toNat), (2, 0), (3, 2), (2, 0), (21, off.toNat)]
  | .st d w ⟨loc, ab, off, cls, hint⟩ => [(2, SAReg.db d), (9, SAReg.di d), (5, ab.toNat), (4, cls.toNat), (2, hint.code), (3, w.code), (1, loc.toNat), (1, 0), (21, off.toNat)]
  | .stv vs w ⟨loc, ab, off, cls, hint⟩ => [(2, 1), (9, vs.toNat), (5, ab.toNat), (4, cls.toNat), (2, hint.code), (3, w.code), (1, loc.toNat), (1, 0), (21, off.toNat)]
  | .sts vs w idx loc ab off cls hint => [(2, 1), (9, vs.toNat), (5, ab.toNat), (4, cls.toNat), (2, hint.code), (3, w.code), (1, loc.toNat), (7, idx.toNat), (15, off.toNat)]
  | .stx vs w ⟨loc, ab, sr, cls, hint⟩ => [(2, 1), (9, vs.toNat), (5, ab.toNat), (4, cls.toNat), (2, hint.code), (3, w.code), (1, loc.toNat), (5, sr.toNat), (17, 0)]
  | .strl d w scope ab cls mask => [(2, SAReg.db d), (9, SAReg.di d), (5, ab.toNat), (4, cls.toNat), (2, 0), (3, w.code), (3, scope.code), (16, mask.toNat), (4, 0)]
  | .stt ⟨loc, ab, tile, seg, cls, hint⟩ => [(2, 3), (9, 0), (5, ab.toNat), (4, cls.toNat), (2, hint.code), (3, 6), (1, loc.toNat), (1, TileSeg.bandBit seg), (5, tile.toNat), (11, TileSeg.row seg), (5, TileSeg.sg seg)]
  | .atom op w ab ss cls hint ro => [(2, 0), (3, 0), (6, ss.toNat), (5, ab.toNat), (4, cls.toNat), (2, hint.code), (3, w.code), (4, op.code), (1, retBit ro), (18, retOff ro)]
  | .red op w ab ss cls hint => [(2, 0), (3, 0), (6, ss.toNat), (5, ab.toNat), (4, cls.toNat), (2, hint.code), (3, w.code), (4, op.code), (19, 0)]
  | .rflush cls ⟨ab, off⟩ => [(2, 3), (9, 0), (5, ab.toNat), (4, cls.toNat), (2, 0), (3, 2), (2, 0), (21, off.toNat)]
  | .fence b scope mask => [(2, 3), (9, 0), (14, 0), (3, scope.code), (16, mask.toNat), (1, b.toNat), (3, 0)]
  | .cline op cls ⟨ab, off⟩ => [(2, 3), (9, 0), (5, ab.toNat), (4, cls.toNat), (2, 0), (3, 0), (2, op.code), (21, off.toNat)]
  | .cbdone ss => [(2, 0), (3, 0), (6, ss.toNat), (37, 0)]
  | .hmsg vs ab cls rpl => [(2, 1), (9, vs.toNat), (5, ab.toNat), (4, cls.toNat), (2, 0), (3, 5), (1, rplBit rpl), (6, rplFlag rpl), (16, rplOff rpl)]
  | .cpy ⟨sw, hc, cls, hint, flag⟩ => [(2, hc.toNat), (4, cls.toNat), (2, hint.code), (6, flagNum flag), (1, flagValid flag), (1, sw.toNat), (32, 0)]
  | .cpyc ⟨sw, hc, cls, hint, flag⟩ => [(2, hc.toNat), (4, cls.toNat), (2, hint.code), (6, flagNum flag), (1, flagValid flag), (1, sw.toNat), (32, 0)]
  | .cpyt ⟨sw, hc, cls, hint, flag⟩ => [(2, hc.toNat), (4, cls.toNat), (2, hint.code), (6, flagNum flag), (1, flagValid flag), (1, sw.toNat), (32, 0)]
  | .cpye ⟨sw, hc, cls, hint, flag⟩ => [(2, hc.toNat), (4, cls.toNat), (2, hint.code), (6, flagNum flag), (1, flagValid flag), (1, sw.toNat), (32, 0)]
  | .bind sw kind g hc cls hint => [(2, hc.toNat), (4, cls.toNat), (2, hint.code), (7, 0), (1, sw.toNat), (4, g.toNat), (2, kind.code), (26, 0)]
  | .unbind g flag => [(8, 0), (6, flagNum flag), (1, flagValid flag), (1, 0), (4, g.toNat), (28, 0)]
  | .reshape mode r cls flag => [(2, 0), (4, cls.toNat), (2, 0), (6, flagNum flag), (1, flagValid flag), (25, 0), (2, mode.code), (6, r.toNat)]
  | .stash sw r hc hint flag => [(2, hc.toNat), (4, 0), (2, hint.code), (6, flagNum flag), (1, flagValid flag), (1, sw.toNat), (26, 0), (6, r.toNat)]
  | .cwb keep r cls flag => [(2, 0), (4, cls.toNat), (2, 0), (6, flagNum flag), (1, flagValid flag), (26, 0), (1, keep.toNat), (6, r.toNat)]
  | .cqry flag mask => [(8, 0), (6, flag.toNat), (1, 1), (17, 0), (16, mask.toNat)]
  | .rwin sw hc len wid flag => [(2, hc.toNat), (6, 0), (6, flagNum flag), (1, flagValid flag), (1, sw.toNat), (2, wid.toNat), (5, 0), (25, len.toNat)]
  | _ => []

/-- Field widths of the Y map, by opcode. -/
def widthsY : Nat → List Nat
  | 0x00 => [48]
  | 0x01 => [10, 18, 20]
  | 0x02 => [46, 2]
  | 0x03 => [4, 1, 3, 2, 18, 20]
  | 0x04 => [4, 4, 2, 18, 20]
  | 0x05 => [8, 2, 18, 20]
  | 0x06 => [46, 2]
  | 0x07 => [44, 2, 2]
  | 0x08 => [16, 30, 2]
  | 0x09 => [8, 2, 18, 20]
  | 0x0a => [1, 9, 18, 20]
  | 0x0b => [6, 6, 6, 6, 6, 6, 6, 6]
  | 0x0c => [6, 1, 5, 1, 5, 1, 5, 1, 5, 1, 5, 1, 5, 1, 5]
  | 0x0d => [42, 6]
  | 0x0e => [42, 6]
  | 0x0f => [16, 24, 4, 4]
  | 0x10 => [10, 6, 1, 7, 24]
  | 0x11 => [44, 1, 3]
  | 0x12 => [4, 12, 24, 4, 2, 2]
  | 0x13 => [4, 12, 24, 4, 2, 2]
  | 0x14 => [16, 32]
  | 0x15 => [48]
  | 0x16 => [48]
  | 0x17 => [16, 32]
  | 0x18 => [48]
  | _ => []

/-- The instruction of the Y map that an opcode and its field values name. -/
def buildY : Nat → List Nat → Option Instr
  | 0x00, [desc] => do
    let desc := BitVec.ofNat 48 desc; some (.nop desc)
  | 0x01, [_, ldisp, bdisp] => do
    let ldisp := BitVec.ofNat 18 ldisp; let bdisp := BitVec.ofNat 20 bdisp; some (.br ⟨ldisp, bdisp⟩)
  | 0x02, [_, l] => do
    let l := BitVec.ofNat 2 l; some (.bra l)
  | 0x03, [cc, _, z, _, ldisp, bdisp] => do
    let cc ← SumTest.ofCode cc; let z := BitVec.ofNat 3 z; let ldisp := BitVec.ofNat 18 ldisp; let bdisp := BitVec.ofNat 20 bdisp; some (.brs cc z ⟨ldisp, bdisp⟩)
  | 0x04, [cc, k, _, ldisp, bdisp] => do
    let cc ← MaskTest.ofCode cc; let k := BitVec.ofNat 4 k; let ldisp := BitVec.ofNat 18 ldisp; let bdisp := BitVec.ofNat 20 bdisp; some (.brv cc k ⟨ldisp, bdisp⟩)
  | 0x05, [_, l, ldisp, bdisp] => do
    let l := BitVec.ofNat 2 l; let ldisp := BitVec.ofNat 18 ldisp; let bdisp := BitVec.ofNat 20 bdisp; some (.call l ⟨ldisp, bdisp⟩)
  | 0x06, [_, l] => do
    let l := BitVec.ofNat 2 l; some (.ret l)
  | 0x07, [_, ld, l] => do
    let ld := BitVec.ofNat 2 ld; let l := BitVec.ofNat 2 l; some (.jmpl ld l)
  | 0x08, [count, _, l] => do
    let count := BitVec.ofNat 16 count; let l := BitVec.ofNat 2 l; some (.loopi l count)
  | 0x09, [_, l, ldisp, bdisp] => do
    let l := BitVec.ofNat 2 l; let ldisp := BitVec.ofNat 18 ldisp; let bdisp := BitVec.ofNat 20 bdisp; some (.loope l ⟨ldisp, bdisp⟩)
  | 0x0a, [bank, num, ldisp, bdisp] => do
    let ldisp := BitVec.ofNat 18 ldisp; let bdisp := BitVec.ofNat 20 bdisp; let r := PoisonReg.ofCode bank num; some (.chk r ⟨ldisp, bdisp⟩)
  | 0x0b, [f7, f6, f5, f4, f3, f2, f1, f0] => do
    let f7 := BitVec.ofNat 6 f7; let f6 := BitVec.ofNat 6 f6; let f5 := BitVec.ofNat 6 f5; let f4 := BitVec.ofNat 6 f4; let f3 := BitVec.ofNat 6 f3; let f2 := BitVec.ofNat 6 f2; let f1 := BitVec.ofNat 6 f1; let f0 := BitVec.ofNat 6 f0; some (.wait ⟨f0, f1, f2, f3, f4, f5, f6, f7⟩)
  | 0x0c, [_, sv, sf, v0v, v0f, v1v, v1f, mv, mf, lv, lf, tv, tf, cv, cf] => do
    let sv := sv == 1; let sf := BitVec.ofNat 5 sf; let v0v := v0v == 1; let v0f := BitVec.ofNat 5 v0f; let v1v := v1v == 1; let v1f := BitVec.ofNat 5 v1f; let mv := mv == 1; let mf := BitVec.ofNat 5 mf; let lv := lv == 1; let lf := BitVec.ofNat 5 lf; let tv := tv == 1; let tf := BitVec.ofNat 5 tf; let cv := cv == 1; let cf := BitVec.ofNat 5 cf; some (.waitp ⟨⟨sv, sf⟩, ⟨v0v, v0f⟩, ⟨v1v, v1f⟩, ⟨mv, mf⟩, ⟨lv, lf⟩, ⟨tv, tf⟩, ⟨cv, cf⟩⟩)
  | 0x0d, [_, f] => do
    let f := BitVec.ofNat 6 f; some (.setf f)
  | 0x0e, [_, f] => do
    let f := BitVec.ofNat 6 f; some (.clrf f)
  | 0x0f, [imm, _, kd, pd] => do
    let pd := BitVec.ofNat 4 pd; let src ← SetpSrc.ofCode kd imm; some (.setp pd src)
  | 0x10, [_, f, rg, _, val] => do
    let f := BitVec.ofNat 6 f; let tgt := PostTarget.ofCode rg val; some (.post tgt f)
  | 0x11, [_, lead, lvl] => do
    let lead := lead == 1; let lvl := BitVec.ofNat 3 lvl; some (.dbar lvl lead)
  | 0x12, [ch, md, _, nfl, _, l] => do
    let ch := BitVec.ofNat 4 ch; let md := BitVec.ofNat 12 md; let nfl := BitVec.ofNat 4 nfl; let l := BitVec.ofNat 2 l; some (.send md ch l nfl)
  | 0x13, [ch, md, _, nfl, _, l] => do
    let ch := BitVec.ofNat 4 ch; let md := BitVec.ofNat 12 md; let nfl := BitVec.ofNat 4 nfl; let l := BitVec.ofNat 2 l; some (.recv md ch l nfl)
  | 0x14, [lm, _] => do
    let lm := BitVec.ofNat 16 lm; some (.mark lm)
  | 0x15, [_] => do
    some (.yield)
  | 0x16, [_] => do
    some (.exit)
  | 0x17, [code, val] => do
    let code := BitVec.ofNat 16 code; let val := BitVec.ofNat 32 val; some (.trap code val)
  | 0x18, [_] => do
    some (.tret)
  | _, _ => none

/-- Field widths of the S map, by opcode. -/
def widthsS : Nat → List Nat
  | 0x00 => [48]
  | 0x01 => [6, 6, 6, 6, 6, 18]
  | 0x02 => [6, 6, 6, 6, 6, 18]
  | 0x03 => [6, 6, 36]
  | 0x04 => [6, 6, 6, 6, 16, 8]
  | 0x05 => [6, 6, 6, 30]
  | 0x06 => [6, 6, 6, 30]
  | 0x07 => [6, 6, 6, 30]
  | 0x08 => [6, 6, 6, 30]
  | 0x09 => [6, 6, 6, 30]
  | 0x0a => [6, 6, 6, 30]
  | 0x0b => [6, 6, 6, 30]
  | 0x0c => [6, 6, 6, 30]
  | 0x0d => [6, 6, 6, 30]
  | 0x0e => [6, 6, 6, 30]
  | 0x16 => [6, 6, 6, 30]
  | 0x17 => [6, 6, 6, 30]
  | 0x18 => [6, 6, 6, 30]
  | 0x19 => [6, 6, 6, 30]
  | 0x0f => [6, 6, 6, 6, 6, 10, 8]
  | 0x10 => [6, 6, 6, 6, 6, 10, 8]
  | 0x11 => [6, 6, 6, 6, 6, 10, 8]
  | 0x12 => [6, 6, 6, 6, 6, 10, 8]
  | 0x13 => [6, 6, 36]
  | 0x14 => [6, 6, 36]
  | 0x15 => [6, 6, 36]
  | 0x1f => [6, 6, 36]
  | 0x1a => [2, 4, 6, 6, 22, 8]
  | 0x1b => [2, 4, 6, 4, 32]
  | 0x1c => [6, 6, 6, 25, 1, 4]
  | 0x1d => [6, 42]
  | 0x1e => [6, 20, 22]
  | 0x20 => [9, 3, 6, 5, 25]
  | 0x21 => [3, 6, 9, 5, 25]
  | 0x22 => [4, 5, 3, 6, 30]
  | 0x23 => [3, 6, 4, 5, 30]
  | 0x24 => [7, 2, 3, 6, 30]
  | 0x25 => [3, 6, 7, 2, 30]
  | 0x26 => [6, 12, 30]
  | 0x27 => [6, 12, 30]
  | _ => []

/-- The instruction of the S map that an opcode and its field values name. -/
def buildS : Nat → List Nat → Option Instr
  | 0x00, [desc] => do
    let desc := BitVec.ofNat 48 desc; some (.nop desc)
  | 0x01, [sd, sa, sb, _, sh, _] => do
    let sd := BitVec.ofNat 6 sd; let sa := BitVec.ofNat 6 sa; let sb := BitVec.ofNat 6 sb; let sh := BitVec.ofNat 6 sh; some (.add sd sa sb sh)
  | 0x02, [sd, sa, sb, _, sh, _] => do
    let sd := BitVec.ofNat 6 sd; let sa := BitVec.ofNat 6 sa; let sb := BitVec.ofNat 6 sb; let sh := BitVec.ofNat 6 sh; some (.sub sd sa sb sh)
  | 0x03, [sd, sa, imm] => do
    let sd := BitVec.ofNat 6 sd; let sa := BitVec.ofNat 6 sa; let imm := BitVec.ofNat 36 imm; some (.addi sd sa imm)
  | 0x04, [sd, sa, sb, sc, _, fn] => do
    let sd := BitVec.ofNat 6 sd; let sa := BitVec.ofNat 6 sa; let sb := BitVec.ofNat 6 sb; let acc ← accOf fn sc; some (.mul sd sa sb acc)
  | 0x05, [sd, sa, sb, _] => do
    let sd := BitVec.ofNat 6 sd; let sa := BitVec.ofNat 6 sa; let sb := BitVec.ofNat 6 sb; some (.mulh sd sa sb)
  | 0x06, [sd, sa, sb, _] => do
    let sd := BitVec.ofNat 6 sd; let sa := BitVec.ofNat 6 sa; let sb := BitVec.ofNat 6 sb; some (.mulhn sd sa sb)
  | 0x07, [sd, sa, sb, _] => do
    let sd := BitVec.ofNat 6 sd; let sa := BitVec.ofNat 6 sa; let sb := BitVec.ofNat 6 sb; some (.div sd sa sb)
  | 0x08, [sd, sa, sb, _] => do
    let sd := BitVec.ofNat 6 sd; let sa := BitVec.ofNat 6 sa; let sb := BitVec.ofNat 6 sb; some (.divn sd sa sb)
  | 0x09, [sd, sa, sb, _] => do
    let sd := BitVec.ofNat 6 sd; let sa := BitVec.ofNat 6 sa; let sb := BitVec.ofNat 6 sb; some (.rem sd sa sb)
  | 0x0a, [sd, sa, sb, _] => do
    let sd := BitVec.ofNat 6 sd; let sa := BitVec.ofNat 6 sa; let sb := BitVec.ofNat 6 sb; some (.remn sd sa sb)
  | 0x0b, [sd, sa, sb, _] => do
    let sd := BitVec.ofNat 6 sd; let sa := BitVec.ofNat 6 sa; let sb := BitVec.ofNat 6 sb; some (.and sd sa sb)
  | 0x0c, [sd, sa, sb, _] => do
    let sd := BitVec.ofNat 6 sd; let sa := BitVec.ofNat 6 sa; let sb := BitVec.ofNat 6 sb; some (.or sd sa sb)
  | 0x0d, [sd, sa, sb, _] => do
    let sd := BitVec.ofNat 6 sd; let sa := BitVec.ofNat 6 sa; let sb := BitVec.ofNat 6 sb; some (.xor sd sa sb)
  | 0x0e, [sd, sa, sb, _] => do
    let sd := BitVec.ofNat 6 sd; let sa := BitVec.ofNat 6 sa; let sb := BitVec.ofNat 6 sb; some (.andn sd sa sb)
  | 0x16, [sd, sa, sb, _] => do
    let sd := BitVec.ofNat 6 sd; let sa := BitVec.ofNat 6 sa; let sb := BitVec.ofNat 6 sb; some (.min sd sa sb)
  | 0x17, [sd, sa, sb, _] => do
    let sd := BitVec.ofNat 6 sd; let sa := BitVec.ofNat 6 sa; let sb := BitVec.ofNat 6 sb; some (.max sd sa sb)
  | 0x18, [sd, sa, sb, _] => do
    let sd := BitVec.ofNat 6 sd; let sa := BitVec.ofNat 6 sa; let sb := BitVec.ofNat 6 sb; some (.minn sd sa sb)
  | 0x19, [sd, sa, sb, _] => do
    let sd := BitVec.ofNat 6 sd; let sa := BitVec.ofNat 6 sa; let sb := BitVec.ofNat 6 sb; some (.maxn sd sa sb)
  | 0x0f, [sd, sa, sb, _, sh, _, fn] => do
    let sd := BitVec.ofNat 6 sd; let sa := BitVec.ofNat 6 sa; let amt ← ShAmt.ofCode fn sb sh; some (.shl sd sa amt)
  | 0x10, [sd, sa, sb, _, sh, _, fn] => do
    let sd := BitVec.ofNat 6 sd; let sa := BitVec.ofNat 6 sa; let amt ← ShAmt.ofCode fn sb sh; some (.shr sd sa amt)
  | 0x11, [sd, sa, sb, _, sh, _, fn] => do
    let sd := BitVec.ofNat 6 sd; let sa := BitVec.ofNat 6 sa; let amt ← ShAmt.ofCode fn sb sh; some (.sar sd sa amt)
  | 0x12, [sd, sa, sb, _, sh, _, fn] => do
    let sd := BitVec.ofNat 6 sd; let sa := BitVec.ofNat 6 sa; let amt ← ShAmt.ofCode fn sb sh; some (.rot sd sa amt)
  | 0x13, [sd, sa, _] => do
    let sd := BitVec.ofNat 6 sd; let sa := BitVec.ofNat 6 sa; some (.clz sd sa)
  | 0x14, [sd, sa, _] => do
    let sd := BitVec.ofNat 6 sd; let sa := BitVec.ofNat 6 sa; some (.ctz sd sa)
  | 0x15, [sd, sa, _] => do
    let sd := BitVec.ofNat 6 sd; let sa := BitVec.ofNat 6 sa; some (.popc sd sa)
  | 0x1f, [sd, sa, _] => do
    let sd := BitVec.ofNat 6 sd; let sa := BitVec.ofNat 6 sa; some (.mov sd sa)
  | 0x1a, [_, pd, sa, sb, _, cc] => do
    let pd := BitVec.ofNat 4 pd; let sa := BitVec.ofNat 6 sa; let sb := BitVec.ofNat 6 sb; let cc ← Cond.ofCode cc; some (.cmp cc pd sa sb)
  | 0x1b, [_, pd, sa, cc, imm] => do
    let pd := BitVec.ofNat 4 pd; let sa := BitVec.ofNat 6 sa; let cc ← Cond.ofCode cc; let imm := BitVec.ofNat 32 imm; some (.cmpi cc pd sa imm)
  | 0x1c, [sd, sa, sb, _, neg, p] => do
    let sd := BitVec.ofNat 6 sd; let sa := BitVec.ofNat 6 sa; let sb := BitVec.ofNat 6 sb; let neg := neg == 1; let p := BitVec.ofNat 4 p; some (.sel sd neg p sa sb)
  | 0x1d, [sd, imm] => do
    let sd := BitVec.ofNat 6 sd; let imm := BitVec.ofNat 42 imm; some (.li sd imm)
  | 0x1e, [sd, _, imm] => do
    let sd := BitVec.ofNat 6 sd; let imm := BitVec.ofNat 22 imm; some (.lih sd imm)
  | 0x20, [vd, _, ss, lane, _] => do
    let vd := BitVec.ofNat 9 vd; let ss := BitVec.ofNat 6 ss; let lane := BitVec.ofNat 5 lane; some (.xsv vd lane ss)
  | 0x21, [_, sd, vs, lane, _] => do
    let sd := BitVec.ofNat 6 sd; let vs := BitVec.ofNat 9 vs; let lane := BitVec.ofNat 5 lane; some (.xvs sd vs lane)
  | 0x22, [_, ad, _, ss, _] => do
    let ad := BitVec.ofNat 5 ad; let ss := BitVec.ofNat 6 ss; some (.xsa ad ss)
  | 0x23, [_, sd, _, sa, _] => do
    let sd := BitVec.ofNat 6 sd; let sa := BitVec.ofNat 5 sa; some (.xas sd sa)
  | 0x24, [_, ld, _, ss, _] => do
    let ld := BitVec.ofNat 2 ld; let ss := BitVec.ofNat 6 ss; some (.xsl ld ss)
  | 0x25, [_, sd, _, ls, _] => do
    let sd := BitVec.ofNat 6 sd; let ls := BitVec.ofNat 2 ls; some (.xls sd ls)
  | 0x26, [sd, creg, _] => do
    let sd := BitVec.ofNat 6 sd; let creg := BitVec.ofNat 12 creg; some (.mfc sd creg)
  | 0x27, [ss, creg, _] => do
    let ss := BitVec.ofNat 6 ss; let creg := BitVec.ofNat 12 creg; some (.mtc creg ss)
  | _, _ => none

/-- Field widths of the V map, by opcode. -/
def widthsV : Nat → List Nat
  | 0x00 => [48]
  | 0x01 => [9, 9, 9, 9, 4, 4, 1, 1, 2]
  | 0x02 => [9, 9, 9, 9, 4, 4, 1, 1, 2]
  | 0x03 => [9, 9, 9, 9, 4, 4, 1, 1, 2]
  | 0x04 => [9, 9, 9, 9, 4, 5, 1, 2]
  | 0x05 => [9, 9, 9, 9, 4, 4, 1, 1, 2]
  | 0x06 => [9, 9, 18, 4, 4, 1, 1, 2]
  | 0x07 => [9, 9, 9, 9, 4, 6, 2]
  | 0x08 => [9, 9, 9, 9, 4, 6, 2]
  | 0x09 => [9, 9, 9, 9, 4, 6, 2]
  | 0x0a => [9, 9, 9, 9, 4, 6, 2]
  | 0x0b => [9, 9, 9, 9, 4, 8]
  | 0x0c => [9, 9, 9, 9, 4, 8]
  | 0x0d => [9, 9, 9, 9, 4, 8]
  | 0x0e => [9, 9, 9, 9, 4, 8]
  | 0x0f => [9, 9, 9, 9, 4, 3, 1, 2, 2]
  | 0x10 => [9, 9, 9, 9, 4, 3, 1, 2, 2]
  | 0x11 => [9, 9, 9, 9, 4, 3, 1, 2, 2]
  | 0x14 => [9, 9, 9, 9, 4, 3, 1, 2, 2]
  | 0x12 => [9, 9, 9, 9, 4, 3, 1, 2, 2]
  | 0x13 => [9, 9, 9, 9, 4, 3, 1, 2, 2]
  | 0x15 => [9, 9, 18, 4, 6, 2]
  | 0x16 => [9, 9, 18, 4, 6, 2]
  | 0x17 => [5, 4, 9, 9, 9, 4, 4, 1, 1, 2]
  | 0x18 => [9, 9, 9, 5, 4, 4, 3, 1, 4]
  | 0x19 => [9, 9, 2, 7, 9, 4, 6, 2]
  | 0x1a => [9, 9, 9, 9, 4, 6, 2]
  | 0x1b => [9, 9, 2, 7, 9, 4, 6, 2]
  | 0x1c => [9, 9, 18, 4, 3, 1, 4]
  | 0x1d => [9, 9, 18, 4, 2, 1, 1, 4]
  | 0x1e => [6, 3, 9, 18, 4, 7, 1]
  | 0x1f => [9, 9, 9, 9, 4, 4, 2, 2]
  | 0x20 => [9, 9, 9, 9, 4, 4, 2, 2]
  | 0x21 => [9, 9, 9, 9, 4, 4, 2, 2]
  | 0x22 => [9, 9, 9, 9, 4, 2, 2, 2, 2]
  | 0x23 => [9, 9, 9, 9, 4, 6, 2]
  | 0x24 => [9, 9, 9, 9, 4, 6, 2]
  | 0x25 => [5, 4, 9, 9, 9, 4, 4, 1, 1, 2]
  | 0x26 => [9, 9, 18, 4, 4, 2, 2]
  | 0x27 => [9, 9, 18, 4, 4, 2, 2]
  | 0x28 => [9, 9, 18, 4, 4, 2, 2]
  | 0x29 => [9, 9, 18, 4, 4, 2, 2]
  | 0x2a => [9, 9, 6, 3, 9, 4, 3, 3, 2]
  | 0x2b => [9, 9, 6, 3, 9, 4, 1, 2, 1, 2, 2]
  | 0x2c => [9, 9, 9, 6, 3, 4, 1, 2, 3, 2]
  | 0x2d => [9, 9, 9, 9, 4, 3, 1, 1, 1, 2]
  | 0x2e => [9, 9, 8, 1, 9, 4, 5, 1, 2]
  | 0x2f => [9, 5, 11, 11, 4, 3, 5]
  | 0x30 => [9, 5, 11, 11, 4, 3, 5]
  | 0x31 => [9, 5, 11, 11, 4, 3, 5]
  | 0x32 => [9, 9, 18, 4, 8]
  | 0x33 => [9, 9, 18, 4, 3, 1, 2, 2]
  | 0x34 => [9, 9, 9, 15, 2, 4]
  | _ => []

/-- The instruction of the V map that an opcode and its field values name. -/
def buildV : Nat → List Nat → Option Instr
  | 0x00, [desc] => do
    let desc := BitVec.ofNat 48 desc; some (.nop desc)
  | 0x01, [vd, va, vb, _, k, _, sat, n, w] => do
    let vd := BitVec.ofNat 9 vd; let va := BitVec.ofNat 9 va; let vb := BitVec.ofNat 9 vb; let k := BitVec.ofNat 4 k; let sat := sat == 1; let n := n == 1; let w ← EW.ofCode w; some (.vadd ⟨w, n, sat⟩ vd va vb k)
  | 0x02, [vd, va, vb, _, k, _, sat, n, w] => do
    let vd := BitVec.ofNat 9 vd; let va := BitVec.ofNat 9 va; let vb := BitVec.ofNat 9 vb; let k := BitVec.ofNat 4 k; let sat := sat == 1; let n := n == 1; let w ← EW.ofCode w; some (.vsub ⟨w, n, sat⟩ vd va vb k)
  | 0x03, [vd, va, vb, _, k, _, sat, n, w] => do
    let vd := BitVec.ofNat 9 vd; let va := BitVec.ofNat 9 va; let vb := BitVec.ofNat 9 vb; let k := BitVec.ofNat 4 k; let sat := sat == 1; let n := n == 1; let w ← EW.ofCode w; some (.vmul ⟨w, n, sat⟩ vd va vb k)
  | 0x04, [vd, va, vb, _, k, _, n, w] => do
    let vd := BitVec.ofNat 9 vd; let va := BitVec.ofNat 9 va; let vb := BitVec.ofNat 9 vb; let k := BitVec.ofNat 4 k; let n := n == 1; let w ← EW.ofCode w; some (.vmulh w n vd va vb k)
  | 0x05, [vd, va, vb, vc, k, _, sat, n, w] => do
    let vd := BitVec.ofNat 9 vd; let va := BitVec.ofNat 9 va; let vb := BitVec.ofNat 9 vb; let vc := BitVec.ofNat 9 vc; let k := BitVec.ofNat 4 k; let sat := sat == 1; let n := n == 1; let w ← EW.ofCode w; some (.vmad ⟨w, n, sat⟩ vd va vb vc k)
  | 0x06, [vd, va, _, k, _, sat, _, w] => do
    let vd := BitVec.ofNat 9 vd; let va := BitVec.ofNat 9 va; let k := BitVec.ofNat 4 k; let sat := sat == 1; let w ← EW.ofCode w; some (.vabs w sat vd va k)
  | 0x07, [vd, va, vb, _, k, _, w] => do
    let vd := BitVec.ofNat 9 vd; let va := BitVec.ofNat 9 va; let vb := BitVec.ofNat 9 vb; let k := BitVec.ofNat 4 k; let w ← EW.ofCode w; some (.vmin w vd va vb k)
  | 0x08, [vd, va, vb, _, k, _, w] => do
    let vd := BitVec.ofNat 9 vd; let va := BitVec.ofNat 9 va; let vb := BitVec.ofNat 9 vb; let k := BitVec.ofNat 4 k; let w ← EW.ofCode w; some (.vmax w vd va vb k)
  | 0x09, [vd, va, vb, _, k, _, w] => do
    let vd := BitVec.ofNat 9 vd; let va := BitVec.ofNat 9 va; let vb := BitVec.ofNat 9 vb; let k := BitVec.ofNat 4 k; let w ← EW.ofCode w; some (.vminn w vd va vb k)
  | 0x0a, [vd, va, vb, _, k, _, w] => do
    let vd := BitVec.ofNat 9 vd; let va := BitVec.ofNat 9 va; let vb := BitVec.ofNat 9 vb; let k := BitVec.ofNat 4 k; let w ← EW.ofCode w; some (.vmaxn w vd va vb k)
  | 0x0b, [vd, va, vb, _, k, _] => do
    let vd := BitVec.ofNat 9 vd; let va := BitVec.ofNat 9 va; let vb := BitVec.ofNat 9 vb; let k := BitVec.ofNat 4 k; some (.vand vd va vb k)
  | 0x0c, [vd, va, vb, _, k, _] => do
    let vd := BitVec.ofNat 9 vd; let va := BitVec.ofNat 9 va; let vb := BitVec.ofNat 9 vb; let k := BitVec.ofNat 4 k; some (.vor vd va vb k)
  | 0x0d, [vd, va, vb, _, k, _] => do
    let vd := BitVec.ofNat 9 vd; let va := BitVec.ofNat 9 va; let vb := BitVec.ofNat 9 vb; let k := BitVec.ofNat 4 k; some (.vxor vd va vb k)
  | 0x0e, [vd, va, vb, vc, k, tt] => do
    let vd := BitVec.ofNat 9 vd; let va := BitVec.ofNat 9 va; let vb := BitVec.ofNat 9 vb; let vc := BitVec.ofNat 9 vc; let k := BitVec.ofNat 4 k; let tt := BitVec.ofNat 8 tt; some (.vlut3 tt vd va vb vc k)
  | 0x0f, [vd, va, am, _, k, _, im, _, w] => do
    let vd := BitVec.ofNat 9 vd; let va := BitVec.ofNat 9 va; let k := BitVec.ofNat 4 k; let w ← EW.ofCode w; let amt ← VAmt.ofCode im am; some (.vshl w vd va amt k)
  | 0x10, [vd, va, am, _, k, _, im, _, w] => do
    let vd := BitVec.ofNat 9 vd; let va := BitVec.ofNat 9 va; let k := BitVec.ofNat 4 k; let w ← EW.ofCode w; let amt ← VAmt.ofCode im am; some (.vshr w vd va amt k)
  | 0x11, [vd, va, am, _, k, _, im, _, w] => do
    let vd := BitVec.ofNat 9 vd; let va := BitVec.ofNat 9 va; let k := BitVec.ofNat 4 k; let w ← EW.ofCode w; let amt ← VAmt.ofCode im am; some (.vsar w vd va amt k)
  | 0x14, [vd, va, am, _, k, _, im, _, w] => do
    let vd := BitVec.ofNat 9 vd; let va := BitVec.ofNat 9 va; let k := BitVec.ofNat 4 k; let w ← EW.ofCode w; let amt ← VAmt.ofCode im am; some (.vrot w vd va amt k)
  | 0x12, [vd, va, vb, am, k, _, im, _, w] => do
    let vd := BitVec.ofNat 9 vd; let va := BitVec.ofNat 9 va; let vb := BitVec.ofNat 9 vb; let k := BitVec.ofNat 4 k; let w ← EW.ofCode w; let amt ← VAmt.ofCode im am; some (.vfsl w vd va vb amt k)
  | 0x13, [vd, va, vb, am, k, _, im, _, w] => do
    let vd := BitVec.ofNat 9 vd; let va := BitVec.ofNat 9 va; let vb := BitVec.ofNat 9 vb; let k := BitVec.ofNat 4 k; let w ← EW.ofCode w; let amt ← VAmt.ofCode im am; some (.vfsr w vd va vb amt k)
  | 0x15, [vd, va, _, k, _, w] => do
    let vd := BitVec.ofNat 9 vd; let va := BitVec.ofNat 9 va; let k := BitVec.ofNat 4 k; let w ← EW.ofCode w; some (.vpopc w vd va k)
  | 0x16, [vd, va, _, k, _, w] => do
    let vd := BitVec.ofNat 9 vd; let va := BitVec.ofNat 9 va; let k := BitVec.ofNat 4 k; let w ← EW.ofCode w; some (.vclz w vd va k)
  | 0x17, [_, kd, va, vb, _, k, cc, _, agg, w] => do
    let kd := BitVec.ofNat 4 kd; let va := BitVec.ofNat 9 va; let vb := BitVec.ofNat 9 vb; let k := BitVec.ofNat 4 k; let cc ← Cond.ofCode cc; let agg := agg == 1; let w ← EW.ofCode w; some (.vcmp cc w agg kd va vb k)
  | 0x18, [vd, va, vb, _, kn, k, _, neg, _] => do
    let vd := BitVec.ofNat 9 vd; let va := BitVec.ofNat 9 va; let vb := BitVec.ofNat 9 vb; let kn := BitVec.ofNat 4 kn; let k := BitVec.ofNat 4 k; let neg := neg == 1; some (.vsel neg kn vd va vb k)
  | 0x19, [vd, va, _, idx, _, k, _, w] => do
    let vd := BitVec.ofNat 9 vd; let va := BitVec.ofNat 9 va; let idx := BitVec.ofNat 7 idx; let k := BitVec.ofNat 4 k; let w ← EW.ofCode w; some (.vbcst w vd va idx k)
  | 0x1a, [vd, va, vb, _, k, _, w] => do
    let vd := BitVec.ofNat 9 vd; let va := BitVec.ofNat 9 va; let vb := BitVec.ofNat 9 vb; let k := BitVec.ofNat 4 k; let w ← EW.ofCode w; some (.vperm w vd va vb k)
  | 0x1b, [vd, va, _, r, _, k, _, w] => do
    let vd := BitVec.ofNat 9 vd; let va := BitVec.ofNat 9 va; let r := BitVec.ofNat 7 r; let k := BitVec.ofNat 4 k; let w ← EW.ofCode w; some (.vrotl w vd va r k)
  | 0x1c, [vd, va, _, k, _, fb, lo] => do
    let vd := BitVec.ofNat 9 vd; let va := BitVec.ofNat 9 va; let k := BitVec.ofNat 4 k; let f ← RedaForm.ofCode fb lo; some (.vreda f vd va k)
  | 0x1d, [vd, va, _, k, _, mx, fb, lo] => do
    let vd := BitVec.ofNat 9 vd; let va := BitVec.ofNat 9 va; let k := BitVec.ofNat 4 k; let mx := mx == 1; let f ← RedmForm.ofCode fb lo; some (.vredm mx f vd va k)
  | 0x1e, [_, zd, num, _, k, _, bt] => do
    let zd := BitVec.ofNat 3 zd; let k := BitVec.ofNat 4 k; let src := TestSrc.ofCode bt num; some (.vtest zd src k)
  | 0x1f, [vd, va, vb, _, k, _, rm, t] => do
    let vd := BitVec.ofNat 9 vd; let va := BitVec.ofNat 9 va; let vb := BitVec.ofNat 9 vb; let k := BitVec.ofNat 4 k; let rm ← Rm.ofCode rm; let t ← FT.ofCode t; some (.vfadd t rm vd va vb k)
  | 0x20, [vd, va, vb, _, k, _, rm, t] => do
    let vd := BitVec.ofNat 9 vd; let va := BitVec.ofNat 9 va; let vb := BitVec.ofNat 9 vb; let k := BitVec.ofNat 4 k; let rm ← Rm.ofCode rm; let t ← FT.ofCode t; some (.vfsub t rm vd va vb k)
  | 0x21, [vd, va, vb, _, k, _, rm, t] => do
    let vd := BitVec.ofNat 9 vd; let va := BitVec.ofNat 9 va; let vb := BitVec.ofNat 9 vb; let k := BitVec.ofNat 4 k; let rm ← Rm.ofCode rm; let t ← FT.ofCode t; some (.vfmul t rm vd va vb k)
  | 0x22, [vd, va, vb, vc, k, _, f, rm, t] => do
    let vd := BitVec.ofNat 9 vd; let va := BitVec.ofNat 9 va; let vb := BitVec.ofNat 9 vb; let vc := BitVec.ofNat 9 vc; let k := BitVec.ofNat 4 k; let f ← FmaForm.ofCode f; let rm ← Rm.ofCode rm; let t ← FT.ofCode t; some (.vfma f t rm vd va vb vc k)
  | 0x23, [vd, va, vb, _, k, _, t] => do
    let vd := BitVec.ofNat 9 vd; let va := BitVec.ofNat 9 va; let vb := BitVec.ofNat 9 vb; let k := BitVec.ofNat 4 k; let t ← FT.ofCode t; some (.vfmin t vd va vb k)
  | 0x24, [vd, va, vb, _, k, _, t] => do
    let vd := BitVec.ofNat 9 vd; let va := BitVec.ofNat 9 va; let vb := BitVec.ofNat 9 vb; let k := BitVec.ofNat 4 k; let t ← FT.ofCode t; some (.vfmax t vd va vb k)
  | 0x25, [_, kd, va, vb, _, k, cc, _, agg, t] => do
    let kd := BitVec.ofNat 4 kd; let va := BitVec.ofNat 9 va; let vb := BitVec.ofNat 9 vb; let k := BitVec.ofNat 4 k; let cc ← FCond.ofCode cc; let agg := agg == 1; let t ← FT.ofCode t; some (.vfcmp cc t agg kd va vb k)
  | 0x26, [vd, va, _, k, _, rm, t] => do
    let vd := BitVec.ofNat 9 vd; let va := BitVec.ofNat 9 va; let k := BitVec.ofNat 4 k; let rm ← Rm.ofCode rm; let t ← FT.ofCode t; some (.vfrcp t rm vd va k)
  | 0x27, [vd, va, _, k, _, rm, t] => do
    let vd := BitVec.ofNat 9 vd; let va := BitVec.ofNat 9 va; let k := BitVec.ofNat 4 k; let rm ← Rm.ofCode rm; let t ← FT.ofCode t; some (.vfrsq t rm vd va k)
  | 0x28, [vd, va, _, k, _, rm, t] => do
    let vd := BitVec.ofNat 9 vd; let va := BitVec.ofNat 9 va; let k := BitVec.ofNat 4 k; let rm ← Rm.ofCode rm; let t ← FT.ofCode t; some (.vfexp2 t rm vd va k)
  | 0x29, [vd, va, _, k, _, rm, t] => do
    let vd := BitVec.ofNat 9 vd; let va := BitVec.ofNat 9 va; let k := BitVec.ofNat 4 k; let rm ← Rm.ofCode rm; let t ← FT.ofCode t; some (.vflog2 t rm vd va k)
  | 0x2a, [vd, va, _, p, _, k, sty, dt, rm] => do
    let vd := BitVec.ofNat 9 vd; let va := BitVec.ofNat 9 va; let p := BitVec.ofNat 3 p; let k := BitVec.ofNat 4 k; let sty ← CvtT.ofCode sty; let dt ← CvtT.ofCode dt; let rm ← Rm.ofCode rm; some (.vcvt dt sty rm vd va p k)
  | 0x2b, [vd, va, _, p, _, k, toF, t, n, w, rm] => do
    let vd := BitVec.ofNat 9 vd; let va := BitVec.ofNat 9 va; let p := BitVec.ofNat 3 p; let k := BitVec.ofNat 4 k; let toF := toF == 1; let t ← FT.ofCode t; let n := n == 1; let w ← EW.ofCode w; let rm ← Rm.ofCode rm; some (.vcvti toF t n w rm vd va p k)
  | 0x2c, [vd, va, vb, _, p, _, fromB, t, bt, rm] => do
    let vd := BitVec.ofNat 9 vd; let va := BitVec.ofNat 9 va; let vb := BitVec.ofNat 9 vb; let p := BitVec.ofNat 3 p; let fromB := fromB == 1; let t ← FT.ofCode t; let bt ← BlkT.ofCode bt; let rm ← Rm.ofCode rm; some (.vcvtx fromB t bt rm vd va vb p)
  | 0x2d, [vd, va, vb, _, k, _, sat, dn, n, sw] => do
    let vd := BitVec.ofNat 9 vd; let va := BitVec.ofNat 9 va; let vb := BitVec.ofNat 9 vb; let k := BitVec.ofNat 4 k; let sat := sat == 1; let dn := dn == 1; let n := n == 1; let sw ← PackW.ofCode sw; some (.vpack sw n dn sat vd va vb k)
  | 0x2e, [vd, va, _, p, _, k, _, n, dw] => do
    let vd := BitVec.ofNat 9 vd; let va := BitVec.ofNat 9 va; let p := BitVec.ofNat 1 p; let k := BitVec.ofNat 4 k; let n := n == 1; let dw ← PackW.ofCode dw; some (.vunpk dw n vd va p k)
  | 0x2f, [v, tile, idx, _, k, cv, seg] => do
    let v := BitVec.ofNat 9 v; let tile := BitVec.ofNat 5 tile; let idx := BitVec.ofNat 11 idx; let k := BitVec.ofNat 4 k; let cv ← TileCv.ofCode cv; let seg := BitVec.ofNat 5 seg; some (.vtrd cv v tile idx seg k)
  | 0x30, [v, tile, idx, _, k, cv, seg] => do
    let v := BitVec.ofNat 9 v; let tile := BitVec.ofNat 5 tile; let idx := BitVec.ofNat 11 idx; let k := BitVec.ofNat 4 k; let cv ← TileCv.ofCode cv; let seg := BitVec.ofNat 5 seg; some (.vtcd cv v tile idx seg k)
  | 0x31, [v, tile, idx, _, k, cv, seg] => do
    let v := BitVec.ofNat 9 v; let tile := BitVec.ofNat 5 tile; let idx := BitVec.ofNat 11 idx; let k := BitVec.ofNat 4 k; let cv ← TileCv.ofCode cv; let seg := BitVec.ofNat 5 seg; some (.vtwr cv v tile idx seg k)
  | 0x32, [vd, va, _, k, _] => do
    let vd := BitVec.ofNat 9 vd; let va := BitVec.ofNat 9 va; let k := BitVec.ofNat 4 k; some (.vmov vd va k)
  | 0x33, [vd, num, _, k, _, pf, _, wc] => do
    let vd := BitVec.ofNat 9 vd; let k := BitVec.ofNat 4 k; let src ← IotaSrc.ofCode pf wc num; some (.viota src vd k)
  | 0x34, [vd, va, vb, _, fm, tt] => do
    let f ← KopForm.ofCode fm vd va vb tt; some (.vkop f)
  | _, _ => none

/-- Field widths of the M map, by opcode. -/
def widthsM : Nat → List Nat
  | 0x00 => [48]
  | 0x01 => [2, 4, 1, 1, 6, 34]
  | 0x02 => [43, 5]
  | 0x03 => [48]
  | 0x04 => [38, 2, 2, 1, 1, 1, 3]
  | 0x05 => [38, 10]
  | 0x06 => [2, 4, 42]
  | 0x09 => [2, 4, 42]
  | 0x0b => [2, 4, 42]
  | 0x07 => [2, 4, 9, 5, 11, 9, 1, 7]
  | 0x08 => [6, 9, 9, 10, 14]
  | 0x0a => [2, 4, 42]
  | 0x0c => [37, 8, 3]
  | 0x0d => [2, 4, 39, 3]
  | 0x0e => [2, 42, 4]
  | _ => []

/-- The instruction of the M map that an opcode and its field values name. -/
def buildM : Nat → List Nat → Option Instr
  | 0x00, [desc] => do
    let desc := BitVec.ofNat 48 desc; some (.nop desc)
  | 0x01, [hm, ph, sw, fv, flg, _] => do
    let hm := BitVec.ofNat 2 hm; let sw := sw == 1; let pl ← oneHotOf ph; let flag := flagOf fv flg; some (.sgo sw hm pl flag)
  | 0x02, [_, j] => do
    let j := BitVec.ofNat 5 j; some (.slen j)
  | 0x03, [_] => do
    some (.sseed)
  | 0x04, [_, a, b, bp, ns, pr, _] => do
    let a ← EdgeFmt.ofCode a; let b ← EdgeFmt.ofCode b; let bp := bp == 1; let ns := ns == 1; let pr := pr == 1; some (.smode a b bp ns pr)
  | 0x05, [_, e] => do
    let e := BitVec.ofNat 10 e; some (.sref e)
  | 0x06, [_, pls, _] => do
    let pls := BitVec.ofNat 4 pls; some (.sclr pls)
  | 0x09, [_, pls, _] => do
    let pls := BitVec.ofNat 4 pls; some (.sdrain pls)
  | 0x0b, [_, pls, _] => do
    let pls := BitVec.ofNat 4 pls; some (.sstop pls)
  | 0x07, [_, ph, prow, tile, trow, pcol, bf, _] => do
    let prow := BitVec.ofNat 9 prow; let tile := BitVec.ofNat 5 tile; let trow := BitVec.ofNat 11 trow; let pcol := BitVec.ofNat 9 pcol; let bf := bf == 1; let pl ← oneHotOf ph; some (.sacc bf tile trow pl prow pcol)
  | 0x08, [_, drow, col0, ncol, _] => do
    let drow := BitVec.ofNat 9 drow; let col0 := BitVec.ofNat 9 col0; let ncol := BitVec.ofNat 10 ncol; some (.smarg drow col0 ncol)
  | 0x0a, [_, ph, _] => do
    let pl ← oneHotOf ph; some (.stest pl)
  | 0x0c, [_, nw, g] => do
    let nw := BitVec.ofNat 8 nw; let g := BitVec.ofNat 3 g; some (.svmrg g nw)
  | 0x0d, [_, ph, _, i] => do
    let i := BitVec.ofNat 3 i; let pl ← oneHotOf ph; some (.spos pl i)
  | 0x0e, [h, _, tg] => do
    let tgt := SlitTgt.ofCode tg h; some (.slit tgt)
  | _, _ => none

/-- Field widths of the L map, by opcode. -/
def widthsL : Nat → List Nat
  | 0x00 => [48]
  | 0x01 => [2, 9, 5, 4, 2, 3, 1, 1, 21]
  | 0x02 => [2, 9, 5, 4, 2, 3, 1, 1, 21]
  | 0x03 => [2, 9, 5, 4, 2, 3, 1, 1, 21]
  | 0x04 => [2, 9, 5, 4, 2, 3, 1, 5, 17]
  | 0x05 => [2, 5, 4, 5, 4, 2, 3, 2, 21]
  | 0x06 => [2, 9, 5, 4, 2, 3, 3, 16, 4]
  | 0x07 => [11, 5, 4, 2, 3, 2, 21]
  | 0x08 => [2, 4, 5, 5, 4, 2, 3, 7, 16]
  | 0x09 => [11, 5, 4, 2, 3, 1, 1, 5, 11, 5]
  | 0x0a => [2, 9, 5, 4, 28]
  | 0x0b => [2, 3, 6, 5, 4, 2, 3, 2, 21]
  | _ => []

/-- The instruction of the L map that an opcode and its field values name. -/
def buildL : Nat → List Nat → Option Instr
  | 0x00, [desc] => do
    let desc := BitVec.ofNat 48 desc; some (.nop desc)
  | 0x01, [db, di, ab, cls, hint, w, loc, sx, off] => do
    let ab := BitVec.ofNat 5 ab; let cls := BitVec.ofNat 4 cls; let hint ← Hint.ofCode hint; let w ← SW.ofCode w; let loc := loc == 1; let sx := sx == 1; let off := BitVec.ofNat 21 off; let d ← SAReg.ofCode db di; some (.ld d w sx ⟨loc, ab, off, cls, hint⟩)
  | 0x02, [_, vd, ab, cls, hint, w, loc, _, off] => do
    let vd := BitVec.ofNat 9 vd; let ab := BitVec.ofNat 5 ab; let cls := BitVec.ofNat 4 cls; let hint ← Hint.ofCode hint; let w ← VW.ofCode w; let loc := loc == 1; let off := BitVec.ofNat 21 off; some (.ldv vd w ⟨loc, ab, off, cls, hint⟩)
  | 0x03, [db, di, ab, cls, hint, wc, loc, sx, off] => do
    let ab := BitVec.ofNat 5 ab; let cls := BitVec.ofNat 4 cls; let hint ← Hint.ofCode hint; let loc := loc == 1; let off := BitVec.ofNat 21 off; let d ← LdsDst.ofCode db di wc sx; some (.lds d ⟨loc, ab, off, cls, hint⟩)
  | 0x04, [_, vd, ab, cls, hint, w, loc, sr, _] => do
    let vd := BitVec.ofNat 9 vd; let ab := BitVec.ofNat 5 ab; let cls := BitVec.ofNat 4 cls; let hint ← Hint.ofCode hint; let w ← SW.ofCode w; let loc := loc == 1; let sr := BitVec.ofNat 5 sr; some (.ldg vd w ⟨loc, ab, sr, cls, hint⟩)
  | 0x05, [_, _, g, ab, _, hint, _, _, off] => do
    let g := BitVec.ofNat 4 g; let ab := BitVec.ofNat 5 ab; let hint ← Hint.ofCode hint; let off := BitVec.ofNat 21 off; some (.ldx g hint ⟨ab, off⟩)
  | 0x06, [db, di, ab, cls, _, w, scope, mask, _] => do
    let ab := BitVec.ofNat 5 ab; let cls := BitVec.ofNat 4 cls; let w ← SW.ofCode w; let scope ← Scope.ofCode scope; let mask := BitVec.ofNat 16 mask; let d ← SAReg.ofCode db di; some (.lda d w scope ab cls mask)
  | 0x07, [_, ab, cls, hint, _, _, off] => do
    let ab := BitVec.ofNat 5 ab; let cls := BitVec.ofNat 4 cls; let hint ← Hint.ofCode hint; let off := BitVec.ofNat 21 off; some (.pref cls hint ⟨ab, off⟩)
  | 0x08, [_, _, ad, ab, cls, _, w, tout, _] => do
    let ad := BitVec.ofNat 5 ad; let ab := BitVec.ofNat 5 ab; let cls := BitVec.ofNat 4 cls; let w ← AW.ofCode w; let tout := BitVec.ofNat 7 tout; some (.waitaddr ad w ab tout cls)
  | 0x09, [_, ab, cls, hint, _, loc, bd, tile, row, sg] => do
    let ab := BitVec.ofNat 5 ab; let cls := BitVec.ofNat 4 cls; let hint ← Hint.ofCode hint; let loc := loc == 1; let tile := BitVec.ofNat 5 tile; let seg := TileSeg.ofCode bd row sg; some (.ldt ⟨loc, ab, tile, seg, cls, hint⟩)
  | 0x0a, [_, vd, _, cls, _] => do
    let vd := BitVec.ofNat 9 vd; let cls := BitVec.ofNat 4 cls; some (.cbtake vd cls)
  | 0x0b, [_, _, sd, ab, cls, _, _, _, off] => do
    let sd := BitVec.ofNat 6 sd; let ab := BitVec.ofNat 5 ab; let cls := BitVec.ofNat 4 cls; let off := BitVec.ofNat 21 off; some (.rfetch sd cls ⟨ab, off⟩)
  | _, _ => none

/-- Field widths of the T map, by opcode. -/
def widthsT : Nat → List Nat
  | 0x00 => [48]
  | 0x01 => [2, 9, 5, 4, 2, 3, 1, 1, 21]
  | 0x02 => [2, 9, 5, 4, 2, 3, 1, 1, 21]
  | 0x03 => [2, 9, 5, 4, 2, 3, 1, 7, 15]
  | 0x04 => [2, 9, 5, 4, 2, 3, 1, 5, 17]
  | 0x05 => [2, 9, 5, 4, 2, 3, 3, 16, 4]
  | 0x06 => [2, 9, 5, 4, 2, 3, 1, 1, 5, 11, 5]
  | 0x07 => [2, 3, 6, 5, 4, 2, 3, 4, 1, 18]
  | 0x08 => [2, 3, 6, 5, 4, 2, 3, 4, 19]
  | 0x09 => [2, 9, 5, 4, 2, 3, 2, 21]
  | 0x0a => [2, 9, 14, 3, 16, 1, 3]
  | 0x0b => [2, 9, 5, 4, 2, 3, 2, 21]
  | 0x0c => [2, 3, 6, 37]
  | 0x0d => [2, 9, 5, 4, 2, 3, 1, 6, 16]
  | _ => []

/-- The instruction of the T map that an opcode and its field values name. -/
def buildT : Nat → List Nat → Option Instr
  | 0x00, [desc] => do
    let desc := BitVec.ofNat 48 desc; some (.nop desc)
  | 0x01, [db, di, ab, cls, hint, w, loc, _, off] => do
    let ab := BitVec.ofNat 5 ab; let cls := BitVec.ofNat 4 cls; let hint ← Hint.ofCode hint; let w ← SW.ofCode w; let loc := loc == 1; let off := BitVec.ofNat 21 off; let d ← SAReg.ofCode db di; some (.st d w ⟨loc, ab, off, cls, hint⟩)
  | 0x02, [_, vs, ab, cls, hint, w, loc, _, off] => do
    let vs := BitVec.ofNat 9 vs; let ab := BitVec.ofNat 5 ab; let cls := BitVec.ofNat 4 cls; let hint ← Hint.ofCode hint; let w ← VW.ofCode w; let loc := loc == 1; let off := BitVec.ofNat 21 off; some (.stv vs w ⟨loc, ab, off, cls, hint⟩)
  | 0x03, [_, vs, ab, cls, hint, w, loc, idx, off] => do
    let vs := BitVec.ofNat 9 vs; let ab := BitVec.ofNat 5 ab; let cls := BitVec.ofNat 4 cls; let hint ← Hint.ofCode hint; let w ← SW.ofCode w; let loc := loc == 1; let idx := BitVec.ofNat 7 idx; let off := BitVec.ofNat 15 off; some (.sts vs w idx loc ab off cls hint)
  | 0x04, [_, vs, ab, cls, hint, w, loc, sr, _] => do
    let vs := BitVec.ofNat 9 vs; let ab := BitVec.ofNat 5 ab; let cls := BitVec.ofNat 4 cls; let hint ← Hint.ofCode hint; let w ← SW.ofCode w; let loc := loc == 1; let sr := BitVec.ofNat 5 sr; some (.stx vs w ⟨loc, ab, sr, cls, hint⟩)
  | 0x05, [db, di, ab, cls, _, w, scope, mask, _] => do
    let ab := BitVec.ofNat 5 ab; let cls := BitVec.ofNat 4 cls; let w ← SW.ofCode w; let scope ← Scope.ofCode scope; let mask := BitVec.ofNat 16 mask; let d ← SAReg.ofCode db di; some (.strl d w scope ab cls mask)
  | 0x06, [_, _, ab, cls, hint, _, loc, bd, tile, row, sg] => do
    let ab := BitVec.ofNat 5 ab; let cls := BitVec.ofNat 4 cls; let hint ← Hint.ofCode hint; let loc := loc == 1; let tile := BitVec.ofNat 5 tile; let seg := TileSeg.ofCode bd row sg; some (.stt ⟨loc, ab, tile, seg, cls, hint⟩)
  | 0x07, [_, _, ss, ab, cls, hint, w, op, rt, rof] => do
    let ss := BitVec.ofNat 6 ss; let ab := BitVec.ofNat 5 ab; let cls := BitVec.ofNat 4 cls; let hint ← Hint.ofCode hint; let w ← AW.ofCode w; let op ← AtomOp.ofCode op; let ro := retOf rt rof; some (.atom op w ab ss cls hint ro)
  | 0x08, [_, _, ss, ab, cls, hint, w, op, _] => do
    let ss := BitVec.ofNat 6 ss; let ab := BitVec.ofNat 5 ab; let cls := BitVec.ofNat 4 cls; let hint ← Hint.ofCode hint; let w ← AW.ofCode w; let op ← AtomOp.ofCode op; some (.red op w ab ss cls hint)
  | 0x09, [_, _, ab, cls, _, _, _, off] => do
    let ab := BitVec.ofNat 5 ab; let cls := BitVec.ofNat 4 cls; let off := BitVec.ofNat 21 off; some (.rflush cls ⟨ab, off⟩)
  | 0x0a, [_, _, _, scope, mask, b, _] => do
    let scope ← Scope.ofCode scope; let mask := BitVec.ofNat 16 mask; let b := b == 1; some (.fence b scope mask)
  | 0x0b, [_, _, ab, cls, _, _, op, off] => do
    let ab := BitVec.ofNat 5 ab; let cls := BitVec.ofNat 4 cls; let op ← ClineOp.ofCode op; let off := BitVec.ofNat 21 off; some (.cline op cls ⟨ab, off⟩)
  | 0x0c, [_, _, ss, _] => do
    let ss := BitVec.ofNat 6 ss; some (.cbdone ss)
  | 0x0d, [_, vs, ab, cls, _, _, rb, rf, rof] => do
    let vs := BitVec.ofNat 9 vs; let ab := BitVec.ofNat 5 ab; let cls := BitVec.ofNat 4 cls; let rpl := rplOf rb rf rof; some (.hmsg vs ab cls rpl)
  | _, _ => none

/-- Field widths of the C map, by opcode. -/
def widthsC : Nat → List Nat
  | 0x00 => [48]
  | 0x01 => [2, 4, 2, 6, 1, 1, 32]
  | 0x02 => [2, 4, 2, 6, 1, 1, 32]
  | 0x03 => [2, 4, 2, 6, 1, 1, 32]
  | 0x04 => [2, 4, 2, 6, 1, 1, 32]
  | 0x05 => [2, 4, 2, 7, 1, 4, 2, 26]
  | 0x06 => [8, 6, 1, 1, 4, 28]
  | 0x07 => [2, 4, 2, 6, 1, 25, 2, 6]
  | 0x08 => [2, 4, 2, 6, 1, 1, 26, 6]
  | 0x09 => [2, 4, 2, 6, 1, 26, 1, 6]
  | 0x0a => [8, 6, 1, 17, 16]
  | 0x0b => [2, 6, 6, 1, 1, 2, 5, 25]
  | _ => []

/-- The instruction of the C map that an opcode and its field values name. -/
def buildC : Nat → List Nat → Option Instr
  | 0x00, [desc] => do
    let desc := BitVec.ofNat 48 desc; some (.nop desc)
  | 0x01, [hc, cls, hint, flg, fv, sw, _] => do
    let hc := BitVec.ofNat 2 hc; let cls := BitVec.ofNat 4 cls; let hint ← Hint.ofCode hint; let sw := sw == 1; let flag := flagOf fv flg; some (.cpy ⟨sw, hc, cls, hint, flag⟩)
  | 0x02, [hc, cls, hint, flg, fv, sw, _] => do
    let hc := BitVec.ofNat 2 hc; let cls := BitVec.ofNat 4 cls; let hint ← Hint.ofCode hint; let sw := sw == 1; let flag := flagOf fv flg; some (.cpyc ⟨sw, hc, cls, hint, flag⟩)
  | 0x03, [hc, cls, hint, flg, fv, sw, _] => do
    let hc := BitVec.ofNat 2 hc; let cls := BitVec.ofNat 4 cls; let hint ← Hint.ofCode hint; let sw := sw == 1; let flag := flagOf fv flg; some (.cpyt ⟨sw, hc, cls, hint, flag⟩)
  | 0x04, [hc, cls, hint, flg, fv, sw, _] => do
    let hc := BitVec.ofNat 2 hc; let cls := BitVec.ofNat 4 cls; let hint ← Hint.ofCode hint; let sw := sw == 1; let flag := flagOf fv flg; some (.cpye ⟨sw, hc, cls, hint, flag⟩)
  | 0x05, [hc, cls, hint, _, sw, g, kind, _] => do
    let hc := BitVec.ofNat 2 hc; let cls := BitVec.ofNat 4 cls; let hint ← Hint.ofCode hint; let sw := sw == 1; let g := BitVec.ofNat 4 g; let kind ← BindKind.ofCode kind; some (.bind sw kind g hc cls hint)
  | 0x06, [_, flg, fv, _, g, _] => do
    let g := BitVec.ofNat 4 g; let flag := flagOf fv flg; some (.unbind g flag)
  | 0x07, [_, cls, _, flg, fv, _, mode, r] => do
    let cls := BitVec.ofNat 4 cls; let mode ← RegMode.ofCode mode; let r := BitVec.ofNat 6 r; let flag := flagOf fv flg; some (.reshape mode r cls flag)
  | 0x08, [hc, _, hint, flg, fv, sw, _, r] => do
    let hc := BitVec.ofNat 2 hc; let hint ← Hint.ofCode hint; let sw := sw == 1; let r := BitVec.ofNat 6 r; let flag := flagOf fv flg; some (.stash sw r hc hint flag)
  | 0x09, [_, cls, _, flg, fv, _, keep, r] => do
    let cls := BitVec.ofNat 4 cls; let keep := keep == 1; let r := BitVec.ofNat 6 r; let flag := flagOf fv flg; some (.cwb keep r cls flag)
  | 0x0a, [_, flag, _, _, mask] => do
    let flag := BitVec.ofNat 6 flag; let mask := BitVec.ofNat 16 mask; some (.cqry flag mask)
  | 0x0b, [hc, _, flg, fv, sw, wid, _, len] => do
    let hc := BitVec.ofNat 2 hc; let sw := sw == 1; let wid := BitVec.ofNat 2 wid; let len := BitVec.ofNat 25 len; let flag := flagOf fv flg; some (.rwin sw hc len wid flag)
  | _, _ => none

/-- Why a part of a bundle is not assigned (R243). -/
inductive Reject where
  | sfCode | headerReserved | blockRule | syncRule | opcode | nopBits | limit | reserved | conflict | markRule | waitpRule
deriving DecidableEq, Repr

/-- The eight slots of a bundle in their order (R237). -/
inductive SlotNo where
  | y | s | v0 | v1 | m | l | t | c
deriving DecidableEq, Repr

/-- One slot of a bundle: predicate and instruction (R239). -/
structure Slot where
  pn : Bool
  ps : PReg
  instr : Instr
deriving DecidableEq, Repr

/-- The header of a bundle (R238). -/
structure Header where
  blk : Bool
  sf : BitVec 2
  ew : BitVec 6
deriving DecidableEq, Repr

/-- A bundle (R237). -/
structure Bundle where
  hdr : Header
  y : Slot
  s : Slot
  v0 : Slot
  v1 : Slot
  m : Slot
  l : Slot
  t : Slot
  c : Slot
deriving DecidableEq, Repr

/-- The opcode map of a slot (R242). -/
def SlotNo.kind : SlotNo → Kind
  | .y => .y | .s => .s | .v0 => .v | .v1 => .v | .m => .m | .l => .l | .t => .t | .c => .c

/-- The order of the slots (R237, R314). -/
def SlotNo.all : List SlotNo := [.y, .s, .v0, .v1, .m, .l, .t, .c]

def SlotNo.index : SlotNo → Nat
  | .y => 0 | .s => 1 | .v0 => 2 | .v1 => 3 | .m => 4 | .l => 5 | .t => 6 | .c => 7

def Bundle.slot (b : Bundle) : SlotNo → Slot
  | .y => b.y | .s => b.s | .v0 => b.v0 | .v1 => b.v1 | .m => b.m | .l => b.l | .t => b.t | .c => b.c

/-- Field widths of an opcode in a map. -/
def widthsOf (k : Kind) (op : Nat) : List Nat :=
  match k with
  | .y => widthsY op | .s => widthsS op | .v => widthsV op | .m => widthsM op | .l => widthsL op | .t => widthsT op
  | .c => widthsC op | .any => [] | .handler => [] | .event => []

/-- The instruction an opcode and its field values name in a map. -/
def buildOf (k : Kind) (op : Nat) (vs : List Nat) : Option Instr :=
  match k with
  | .y => buildY op vs | .s => buildS op vs | .v => buildV op vs | .m => buildM op vs | .l => buildL op vs
  | .t => buildT op vs | .c => buildC op vs | .any => none | .handler => none | .event => none

/-- The instruction of a slot word's opcode and operand bits, or why there is none: a reserved bit or a field that the
instruction does not use must be zero, so the operand bits must be those of the instruction read (R243). -/
def decodeOperands (k : Kind) (op w : Nat) : Except Reject Instr :=
  if widthsOf k op = [] then .error .opcode else
  match buildOf k op (unpack (widthsOf k op) w) with
  | none => .error .limit
  | some i => if !i.wf then .error .limit else if pack (fields i) = w then .ok i else .error .reserved

/-- A slot of 60 bits (R239). A NOP's bits [52:0] are zero, but for the Y slot of a BLK bundle (R243). -/
def decodeSlot (k : Kind) (blk : Bool) (w : Nat) : Except Reject Slot :=
  let op := w / 2 ^ 53
  if op = 0 && w % 2 ^ 53 != 0 && !(blk && k == .y) then .error .nopBits else
  match decodeOperands k op (w % 2 ^ 48) with
  | .error e => .error e
  | .ok i => .ok ⟨w / 2 ^ 52 % 2 == 1, .ofNat 4 (w / 2 ^ 48), i⟩

/-- A register, predicate, summary or configuration register that an instruction writes (R243, R266); control and
configuration registers by their number. -/
inductive WriteReg where
  | s (n : Nat) | v (n : Nat) | k (n : Nat) | a (n : Nat) | l (n : Nat) | p (n : Nat) | z (n : Nat) | c (n : Nat)
deriving DecidableEq, Repr

/-- Destination of an s or a register. -/
def SAReg.dest : SAReg → WriteReg
  | .s n => .s n.toNat
  | .a n => .a n.toNat

/-- What an instruction writes, for the conflict check of R243. A write to p0 is no write. -/
def writesOf : Instr → List WriteReg
  | .call l _ => [.l l.toNat]
  | .loope l _ => [.l l.toNat]
  | .jmpl ld _ => [.l ld.toNat]
  | .loopi l _ => [.l l.toNat]
  | .setp pd _ => if pd = 0 then [] else [.p pd.toNat]
  | .cmp _ pd _ _ => if pd = 0 then [] else [.p pd.toNat]
  | .cmpi _ pd _ _ => if pd = 0 then [] else [.p pd.toNat]
  | .add sd .. => [.s sd.toNat]
  | .sub sd .. => [.s sd.toNat]
  | .addi sd .. => [.s sd.toNat]
  | .mul sd .. => [.s sd.toNat]
  | .mulh sd .. => [.s sd.toNat]
  | .mulhn sd .. => [.s sd.toNat]
  | .div sd .. => [.s sd.toNat]
  | .divn sd .. => [.s sd.toNat]
  | .rem sd .. => [.s sd.toNat]
  | .remn sd .. => [.s sd.toNat]
  | .and sd .. => [.s sd.toNat]
  | .or sd .. => [.s sd.toNat]
  | .xor sd .. => [.s sd.toNat]
  | .andn sd .. => [.s sd.toNat]
  | .shl sd .. => [.s sd.toNat]
  | .shr sd .. => [.s sd.toNat]
  | .sar sd .. => [.s sd.toNat]
  | .rot sd .. => [.s sd.toNat]
  | .clz sd .. => [.s sd.toNat]
  | .ctz sd .. => [.s sd.toNat]
  | .popc sd .. => [.s sd.toNat]
  | .min sd .. => [.s sd.toNat]
  | .max sd .. => [.s sd.toNat]
  | .minn sd .. => [.s sd.toNat]
  | .maxn sd .. => [.s sd.toNat]
  | .sel sd .. => [.s sd.toNat]
  | .li sd _ => [.s sd.toNat]
  | .lih sd _ => [.s sd.toNat]
  | .mov sd _ => [.s sd.toNat]
  | .xsv vd _ _ => [.v vd.toNat]
  | .xvs sd _ _ => [.s sd.toNat]
  | .xsa ad _ => [.a ad.toNat]
  | .xas sd _ => [.s sd.toNat]
  | .xsl ld _ => [.l ld.toNat]
  | .xls sd _ => [.s sd.toNat]
  | .mfc sd _ => [.s sd.toNat]
  | .mtc r _ => [.c r.toNat]
  | .vadd _ vd .. => [.v vd.toNat]
  | .vsub _ vd .. => [.v vd.toNat]
  | .vmul _ vd .. => [.v vd.toNat]
  | .vmulh _ _ vd .. => [.v vd.toNat]
  | .vmad _ vd .. => [.v vd.toNat]
  | .vabs _ _ vd .. => [.v vd.toNat]
  | .vmin _ vd .. => [.v vd.toNat]
  | .vmax _ vd .. => [.v vd.toNat]
  | .vminn _ vd .. => [.v vd.toNat]
  | .vmaxn _ vd .. => [.v vd.toNat]
  | .vand vd .. => [.v vd.toNat]
  | .vor vd .. => [.v vd.toNat]
  | .vxor vd .. => [.v vd.toNat]
  | .vlut3 _ vd .. => [.v vd.toNat]
  | .vshl _ vd .. => [.v vd.toNat]
  | .vshr _ vd .. => [.v vd.toNat]
  | .vsar _ vd .. => [.v vd.toNat]
  | .vfsl _ vd .. => [.v vd.toNat]
  | .vfsr _ vd .. => [.v vd.toNat]
  | .vrot _ vd .. => [.v vd.toNat]
  | .vpopc _ vd .. => [.v vd.toNat]
  | .vclz _ vd .. => [.v vd.toNat]
  | .vcmp _ _ _ kd .. => [.k kd.toNat]
  | .vsel _ _ vd .. => [.v vd.toNat]
  | .vbcst _ vd .. => [.v vd.toNat]
  | .vperm _ vd .. => [.v vd.toNat]
  | .vrotl _ vd .. => [.v vd.toNat]
  | .vreda _ vd .. => [.v vd.toNat]
  | .vredm _ _ vd .. => [.v vd.toNat]
  | .vtest zd .. => [.z zd.toNat]
  | .vfadd _ _ vd .. => [.v vd.toNat]
  | .vfsub _ _ vd .. => [.v vd.toNat]
  | .vfmul _ _ vd .. => [.v vd.toNat]
  | .vfma _ _ _ vd .. => [.v vd.toNat]
  | .vfmin _ vd .. => [.v vd.toNat]
  | .vfmax _ vd .. => [.v vd.toNat]
  | .vfcmp _ _ _ kd .. => [.k kd.toNat]
  | .vfrcp _ _ vd .. => [.v vd.toNat]
  | .vfrsq _ _ vd .. => [.v vd.toNat]
  | .vfexp2 _ _ vd .. => [.v vd.toNat]
  | .vflog2 _ _ vd .. => [.v vd.toNat]
  | .vcvt _ _ _ vd .. => [.v vd.toNat]
  | .vcvti _ _ _ _ _ vd .. => [.v vd.toNat]
  | .vcvtx fromB _ _ _ vd _ vb _ => if fromB then [.v vd.toNat] else [.v vd.toNat, .v vb.toNat]
  | .vpack _ _ _ _ vd .. => [.v vd.toNat]
  | .vunpk _ _ vd .. => [.v vd.toNat]
  | .vtrd _ vd .. => [.v vd.toNat]
  | .vtcd _ vd .. => [.v vd.toNat]
  | .vmov vd .. => [.v vd.toNat]
  | .viota _ vd _ => [.v vd.toNat]
  | .vkop (.table kd ..) => [.k kd.toNat]
  | .vkop (.toMask kd _) => [.k kd.toNat]
  | .vkop (.fromMask vd _) => [.v vd.toNat]
  | .slen _ => [.c 0x080]
  | .sseed => [.c 0x081]
  | .smode .. => [.c 0x082]
  | .sref _ => [.c 0x083]
  | .smarg .. => [.c 0x084]
  | .svmrg .. => [.c 0x085]
  | .stest _ => [.c 0x086]
  | .spos .. => [.c 0x086]
  | .slit (.hm h) => [.c (0x088 + h.toNat)]
  | .slit (.n l) => [.c (0x090 + l.toNat)]
  | .sgo sw h _ _ =>
    if sw then .c (0x088 + h.toNat) :: (List.range 6).map (fun l => .c (0x090 + l)) else []
  | .ld d .. => [d.dest]
  | .ldv vd .. => [.v vd.toNat]
  | .lds (.s n _ _) _ => [.s n.toNat]
  | .lds (.v n _) _ => [.v n.toNat]
  | .ldg vd .. => [.v vd.toNat]
  | .lda d .. => [d.dest]
  | .waitaddr ad .. => [.a ad.toNat]
  | .cbtake vd _ => [.v vd.toNat]
  | .rfetch sd .. => [.s sd.toNat]
  | .cpy a => hcWrites a.sw a.hc
  | .cpyc a => hcWrites a.sw a.hc
  | .cpyt a => hcWrites a.sw a.hc
  | .cpye a => hcWrites a.sw a.hc
  | .bind sw _ _ h _ _ => hcWrites sw h
  | .stash sw _ h _ _ => hcWrites sw h
  | .rwin sw h .. => hcWrites sw h
  | _ => []
where
  /-- SWAP exchanges the eight words of an hc register (R335). -/
  hcWrites (sw : Bool) (h : BitVec 2) : List WriteReg :=
    if sw then (List.range 8).map fun w => .c (0x0A0 + 8 * h.toNat + w) else []

/-- Is this a NOP? -/
def isNop : Instr → Bool
  | .nop _ => true
  | _ => false

/-- Does a slot name a valid entry of a WAITP bundle for a slot that holds a NOP (R276)? -/
def waitpBad (es : WaitEntries) (b : Bundle) : Bool :=
  (es.s.valid && isNop b.s.instr) || (es.v0.valid && isNop b.v0.instr) || (es.v1.valid && isNop b.v1.instr) ||
  (es.m.valid && isNop b.m.instr) || (es.l.valid && isNop b.l.instr) || (es.t.valid && isNop b.t.instr) ||
  (es.c.valid && isNop b.c.instr)

/-- The rules that a Y slot's instruction puts on its whole bundle (R276, R279). -/
def yRule (b : Bundle) : Option Reject :=
  match b.y.instr with
  | .mark _ =>
    if b.y.pn || b.y.ps != 0 || !(isNop b.s.instr && isNop b.v0.instr && isNop b.v1.instr && isNop b.m.instr &&
      isNop b.l.instr && isNop b.t.instr && isNop b.c.instr) then some .markRule else none
  | .waitp es => if waitpBad es b then some .waitpRule else none
  | _ => none

/-- Does another slot of the bundle write what this slot writes (R243)? -/
def conflicts (b : Bundle) (n : SlotNo) : Bool :=
  SlotNo.all.any fun o => o != n && (writesOf (b.slot n).instr).any fun r => (writesOf (b.slot o).instr).contains r

/-- The part of a bundle that a rejection names, with the opcode TINFO reports (R441): the offending slot's, or the Y
slot's when the header offends. -/
structure Illop where
  part : Option SlotNo
  op : Nat
  why : Reject
deriving DecidableEq, Repr

/-- The slot word of a bundle (R237). -/
def slotWord (w : Nat) (n : SlotNo) : Nat := w / 2 ^ (420 - 60 * n.index) % 2 ^ 60

/-- The header's own rules (R238, R83, R89). -/
def headerReject (w : Nat) : Option Reject :=
  let h := w / 2 ^ 480
  let y := slotWord w .y
  let op := y / 2 ^ 53
  if h / 2 ^ 29 % 4 = 3 then some .sfCode
  else if h % 2 ^ 23 ≠ 0 then some .headerReserved
  else if h / 2 ^ 31 % 2 = 1 && (op != 0 || y / 2 ^ 48 % 32 != 0 || y / 2 ^ 32 % 2 ^ 16 == 0) then some .blockRule
  else if (h / 2 ^ 29 % 4 == 1) != (op == 0x0B) || (h / 2 ^ 29 % 4 == 2) != (op == 0x0C) then some .syncRule
  else none

/-- A slot of a bundle word, or the rejection that names it. -/
def bundleSlot (w : Nat) (n : SlotNo) : Except Illop Slot :=
  match decodeSlot n.kind (w / 2 ^ 511 % 2 == 1) (slotWord w n) with
  | .ok s => .ok s
  | .error e => .error ⟨some n, slotWord w n / 2 ^ 53, e⟩

/-- The first part of a decoded bundle that breaks a rule over several slots (R243, R276, R279). -/
def bundleRule (b : Bundle) (n : SlotNo) : Option Reject :=
  if n = .y && (yRule b).isSome then yRule b else if conflicts b n then some .conflict else none

/-- A NOP slot stands in for a slot that does not decode while the slots before it are checked. -/
def slotOrNop (w : Nat) (n : SlotNo) : Slot :=
  match bundleSlot w n with
  | .ok s => s
  | .error _ => ⟨false, 0, .nop 0⟩

/-- The bundle of a 512-bit word with its slots as far as they decode. -/
def rawBundle (w : Nat) : Bundle :=
  ⟨⟨w / 2 ^ 511 % 2 == 1, .ofNat 2 (w / 2 ^ 509), .ofNat 6 (w / 2 ^ 503)⟩, slotOrNop w .y, slotOrNop w .s,
    slotOrNop w .v0, slotOrNop w .v1, slotOrNop w .m, slotOrNop w .l, slotOrNop w .t, slotOrNop w .c⟩

/-- The first offending slot in the order of R243. -/
def firstBad (w : Nat) (b : Bundle) : List SlotNo → Option Illop
  | [] => none
  | n :: ns =>
    match bundleSlot w n with
    | .error e => some e
    | .ok _ =>
      match bundleRule b n with
      | some e => some ⟨some n, slotWord w n / 2 ^ 53, e⟩
      | none => firstBad w b ns

/-- The bundle of a 512-bit word, or the first offending part (R237, R243). Total (DEDUCED, log 36) (DEDUCED, log 37)
(DEDUCED, log 75). -/
def decodeBundle (w : Nat) : Except Illop Bundle :=
  match headerReject w with
  | some e => .error ⟨none, slotWord w .y / 2 ^ 53, e⟩
  | none =>
    match firstBad w (rawBundle w) SlotNo.all with
    | some e => .error e
    | none => .ok (rawBundle w)

/-! ## The handler cores' words -/

/-- A RISC-V register field. -/
def xr (w lo : Nat) : XReg := .ofNat 5 (w / 2 ^ lo)

/-- The custom instructions (R225, R226). -/
def decodeCustom (w : Nat) : Option Instr :=
  let f3 := w / 2 ^ 12 % 8
  let f7 := w / 2 ^ 25 % 2 ^ 7
  let rd := xr w 7
  let rs1 := xr w 15
  let rs2 := xr w 20
  if w % 2 ^ 7 = 0x0B then
    match f3 with
    | 0 => if rs2 = 0 && f7 = 0 then some (.slrd rd rs1) else none
    | 1 => if rd = 0 && f7 = 0 then some (.slwr rs1 rs2) else none
    | 2 => if rs2 = 0 && f7 = 0 then some (.sllk rd rs1) else none
    | 3 => if rd = 0 && rs2 = 0 && f7 = 0 then some (.slunlk rs1) else none
    | 4 => if rs2 = 0 && f7 ≤ 1 then some (.slfill (f7 == 1) rd rs1) else none
    | 5 => if rd = 0 && rs2 = 0 && f7 = 0 then some (.sldrop rs1) else none
    | 6 => if rd = 0 && rs2 = 0 && f7 = 0 then some (.slwb rs1) else none
    | _ => if f7 / 16 = 0 then (AmoOp.ofCode (f7 % 16)).map fun op => .slamo op rd rs1 rs2 else none
  else if w % 2 ^ 7 = 0x2B then
    match f3 with
    | 0 => if rs2 = 0 && f7 = 0 then some (.slevt rd rs1) else none
    | 1 => if f7 = 0 then some (.slmsg rd rs1 rs2) else none
    | 2 => if rd = 0 && rs2 = 0 && f7 = 0 then some (.slret rs1) else none
    | 3 => if rs1 = 0 && rs2 = 0 && f7 = 0 then some (.slbud rd) else none
    | 4 => if rs2 = 0 && f7 ≤ 1 then some (.slnext (f7 == 1) rd rs1) else none
    | 5 => if rs2 = 0 && f7 = 0 then some (.slwait rd rs1) else none
    | 6 => if rd = 0 && f7 = 0 then some (.slage rs1 rs2) else none
    | _ => if rs2 = 0 && f7 = 0 then some (.slhas rd rs1) else none
  else none

/-- The RV64IMA words (PRESUMED after the RISC-V unprivileged specification, log 6). ECALL, EBREAK, FENCE.I and the CSR
instructions are illegal (R205). -/
def decodeRv (w : Nat) : Option RvOp :=
  let f3 := w / 2 ^ 12 % 8
  let f7 := w / 2 ^ 25 % 2 ^ 7
  let rd := xr w 7
  let rs1 := xr w 15
  let rs2 := xr w 20
  let immI : BitVec 12 := .ofNat 12 (w / 2 ^ 20)
  let immS : BitVec 12 := .ofNat 12 (f7 * 2 ^ 5 + w / 2 ^ 7 % 2 ^ 5)
  let offB : BitVec 12 :=
    .ofNat 12 (w / 2 ^ 31 % 2 * 2 ^ 11 + w / 2 ^ 7 % 2 * 2 ^ 10 + w / 2 ^ 25 % 2 ^ 6 * 2 ^ 4 + w / 2 ^ 8 % 2 ^ 4)
  let offJ : BitVec 20 :=
    .ofNat 20 (w / 2 ^ 31 % 2 * 2 ^ 19 + w / 2 ^ 12 % 2 ^ 8 * 2 ^ 11 + w / 2 ^ 20 % 2 * 2 ^ 10 + w / 2 ^ 21 % 2 ^ 10)
  match w % 2 ^ 7 with
  | 0x37 => some (.lui rd (.ofNat 20 (w / 2 ^ 12)))
  | 0x17 => some (.auipc rd (.ofNat 20 (w / 2 ^ 12)))
  | 0x6F => some (.jal rd offJ)
  | 0x67 => if f3 = 0 then some (.jalr rd rs1 immI) else none
  | 0x63 => do
    let c ← [some RvBr.beq, some .bne, none, none, some .blt, some .bge, some .bltu, some .bgeu].getD f3 none
    some (.branch c rs1 rs2 offB)
  | 0x03 => do
    let l ← [some RvLd.lb, some .lh, some .lw, some .ld, some .lbu, some .lhu, some .lwu].getD f3 none
    some (.load l rd rs1 immI)
  | 0x23 => do
    let t ← [some RvSt.sb, some .sh, some .sw, some .sd].getD f3 none
    some (.store t rs1 rs2 immS)
  | 0x13 =>
    match f3 with
    | 0 => some (.opImm .addi rd rs1 immI)
    | 1 => if f7 / 2 = 0 then some (.shImm .sll rd rs1 (.ofNat 6 (w / 2 ^ 20))) else none
    | 2 => some (.opImm .slti rd rs1 immI)
    | 3 => some (.opImm .sltiu rd rs1 immI)
    | 4 => some (.opImm .xori rd rs1 immI)
    | 5 =>
      if f7 / 2 = 0 then some (.shImm .srl rd rs1 (.ofNat 6 (w / 2 ^ 20)))
      else if f7 / 2 = 0x10 then some (.shImm .sra rd rs1 (.ofNat 6 (w / 2 ^ 20))) else none
    | 6 => some (.opImm .ori rd rs1 immI)
    | _ => some (.opImm .andi rd rs1 immI)
  | 0x33 =>
    if f7 = 1 then do
      let o ← [some RvMul.mul, some .mulh, some .mulhsu, some .mulhu, some .div, some .divu, some .rem,
        some .remu].getD f3 none
      some (.mulDiv o rd rs1 rs2)
    else if f7 = 0 then do
      let o ← [some RvOpR.add, some .sll, some .slt, some .sltu, some .xor, some .srl, some .or, some .and].getD f3 none
      some (.op o rd rs1 rs2)
    else if f7 = 0x20 then
      match f3 with
      | 0 => some (.op .sub rd rs1 rs2)
      | 5 => some (.op .sra rd rs1 rs2)
      | _ => none
    else none
  | 0x1B =>
    match f3 with
    | 0 => some (.addiw rd rs1 immI)
    | 1 => if f7 = 0 then some (.shImmW .sll rd rs1 rs2) else none
    | 5 =>
      if f7 = 0 then some (.shImmW .srl rd rs1 rs2) else if f7 = 0x20 then some (.shImmW .sra rd rs1 rs2) else none
    | _ => none
  | 0x3B =>
    if f7 = 1 then do
      let o ← [some RvMulW.mulw, none, none, none, some .divw, some .divuw, some .remw, some .remuw].getD f3 none
      some (.mulDivW o rd rs1 rs2)
    else if f7 = 0 then
      match f3 with
      | 0 => some (.opW .addw rd rs1 rs2)
      | 1 => some (.opW .sllw rd rs1 rs2)
      | 5 => some (.opW .srlw rd rs1 rs2)
      | _ => none
    else if f7 = 0x20 then
      match f3 with
      | 0 => some (.opW .subw rd rs1 rs2)
      | 5 => some (.opW .sraw rd rs1 rs2)
      | _ => none
    else none
  | 0x2F =>
    if f3 = 2 || f3 = 3 then
      let dbl := f3 == 3
      let aq := w / 2 ^ 26 % 2 == 1
      let rl := w / 2 ^ 25 % 2 == 1
      match f7 / 4 with
      | 0x02 => if rs2 = 0 then some (.lr dbl aq rl rd rs1) else none
      | 0x03 => some (.sc dbl aq rl rd rs1 rs2)
      | 0x01 => some (.amo .swap dbl aq rl rd rs1 rs2)
      | 0x00 => some (.amo .add dbl aq rl rd rs1 rs2)
      | 0x04 => some (.amo .xor dbl aq rl rd rs1 rs2)
      | 0x0C => some (.amo .and dbl aq rl rd rs1 rs2)
      | 0x08 => some (.amo .or dbl aq rl rd rs1 rs2)
      | 0x10 => some (.amo .min dbl aq rl rd rs1 rs2)
      | 0x14 => some (.amo .max dbl aq rl rd rs1 rs2)
      | 0x18 => some (.amo .minu dbl aq rl rd rs1 rs2)
      | 0x1C => some (.amo .maxu dbl aq rl rd rs1 rs2)
      | _ => none
    else none
  | 0x0F =>
    if f3 = 0 then some (.fence (.ofNat 4 (w / 2 ^ 28)) (.ofNat 4 (w / 2 ^ 24)) (.ofNat 4 (w / 2 ^ 20)) rd rs1) else none
  | _ => none

/-- The base instruction a compressed word stands for (PRESUMED, log 6), or none where it is reserved, C.EBREAK, or a
floating-point form the core lacks (R205). -/
def rvcExpand (w : Nat) : Option RvOp :=
  let f3 := w / 2 ^ 13 % 8
  let b (i : Nat) : Nat := w / 2 ^ i % 2
  let rdp : XReg := .ofNat 5 (8 + w / 2 ^ 2 % 8)
  let rs1p : XReg := .ofNat 5 (8 + w / 2 ^ 7 % 8)
  let rd : XReg := xr w 7
  let rs2 : XReg := xr w 2
  let sp : XReg := 2
  let imm6 : BitVec 6 := .ofNat 6 (b 12 * 2 ^ 5 + w / 2 ^ 2 % 2 ^ 5)
  let uw : Nat := b 5 * 2 ^ 6 + w / 2 ^ 10 % 8 * 2 ^ 3 + b 6 * 2 ^ 2
  let ud : Nat := w / 2 ^ 5 % 4 * 2 ^ 6 + w / 2 ^ 10 % 8 * 2 ^ 3
  match w % 4 with
  | 0 =>
    match f3 with
    | 0 =>
      let n := w / 2 ^ 7 % 16 * 2 ^ 6 + w / 2 ^ 11 % 4 * 2 ^ 4 + b 5 * 2 ^ 3 + b 6 * 2 ^ 2
      if n = 0 then none else some (.opImm .addi rdp sp (.ofNat 12 n))
    | 2 => some (.load .lw rdp rs1p (.ofNat 12 uw))
    | 3 => some (.load .ld rdp rs1p (.ofNat 12 ud))
    | 6 => some (.store .sw rs1p rdp (.ofNat 12 uw))
    | 7 => some (.store .sd rs1p rdp (.ofNat 12 ud))
    | _ => none
  | 1 =>
    match f3 with
    | 0 => some (.opImm .addi rd rd (imm6.signExtend 12))
    | 1 => if rd = 0 then none else some (.addiw rd rd (imm6.signExtend 12))
    | 2 => some (.opImm .addi rd 0 (imm6.signExtend 12))
    | 3 =>
      if rd = 2 then
        let n : BitVec 10 := .ofNat 10 (b 12 * 2 ^ 9 + w / 2 ^ 3 % 4 * 2 ^ 7 + b 5 * 2 ^ 6 + b 2 * 2 ^ 5 + b 6 * 2 ^ 4)
        if n = 0 then none else some (.opImm .addi sp sp (n.signExtend 12))
      else if imm6 = 0 then none else some (.lui rd (imm6.signExtend 20))
    | 4 =>
      match w / 2 ^ 10 % 4 with
      | 0 => some (.shImm .srl rs1p rs1p imm6)
      | 1 => some (.shImm .sra rs1p rs1p imm6)
      | 2 => some (.opImm .andi rs1p rs1p (imm6.signExtend 12))
      | _ =>
        match b 12, w / 2 ^ 5 % 4 with
        | 0, 0 => some (.op .sub rs1p rs1p rdp)
        | 0, 1 => some (.op .xor rs1p rs1p rdp)
        | 0, 2 => some (.op .or rs1p rs1p rdp)
        | 0, 3 => some (.op .and rs1p rs1p rdp)
        | 1, 0 => some (.opW .subw rs1p rs1p rdp)
        | 1, 1 => some (.opW .addw rs1p rs1p rdp)
        | _, _ => none
    | 5 =>
      let n : BitVec 11 := .ofNat 11 (b 12 * 2 ^ 10 + b 8 * 2 ^ 9 + w / 2 ^ 9 % 4 * 2 ^ 7 + b 6 * 2 ^ 6 + b 7 * 2 ^ 5 +
        b 2 * 2 ^ 4 + b 11 * 2 ^ 3 + w / 2 ^ 3 % 8)
      some (.jal 0 (n.signExtend 20))
    | _ =>
      let n : BitVec 8 := .ofNat 8 (b 12 * 2 ^ 7 + w / 2 ^ 5 % 4 * 2 ^ 5 + b 2 * 2 ^ 4 + w / 2 ^ 10 % 4 * 2 ^ 2 +
        w / 2 ^ 3 % 4)
      some (.branch (if f3 = 6 then .beq else .bne) rs1p 0 (n.signExtend 12))
  | 2 =>
    match f3 with
    | 0 => some (.shImm .sll rd rd imm6)
    | 2 =>
      if rd = 0 then none else
      some (.load .lw rd sp (.ofNat 12 (w / 2 ^ 2 % 4 * 2 ^ 6 + b 12 * 2 ^ 5 + w / 2 ^ 4 % 8 * 2 ^ 2)))
    | 3 =>
      if rd = 0 then none else
      some (.load .ld rd sp (.ofNat 12 (w / 2 ^ 2 % 8 * 2 ^ 6 + b 12 * 2 ^ 5 + w / 2 ^ 5 % 4 * 2 ^ 3)))
    | 4 =>
      if b 12 = 0 then
        if rs2 = 0 then (if rd = 0 then none else some (.jalr 0 rd 0)) else some (.op .add rd 0 rs2)
      else if rs2 = 0 then (if rd = 0 then none else some (.jalr 1 rd 0)) else some (.op .add rd rd rs2)
    | 6 => some (.store .sw sp rs2 (.ofNat 12 (w / 2 ^ 7 % 4 * 2 ^ 6 + w / 2 ^ 9 % 16 * 2 ^ 2)))
    | 7 => some (.store .sd sp rs2 (.ofNat 12 (w / 2 ^ 7 % 8 * 2 ^ 6 + w / 2 ^ 10 % 8 * 2 ^ 3)))
    | _ => none
  | _ => none

/-- The instruction of a handler core's word: 32 bits when its low two bits are 11, else its low 16 bits (R205). Total:
none is an illegal instruction (R217). -/
def decodeHandler (w : Nat) : Option Instr :=
  if w % 4 ≠ 3 then
    if (rvcExpand (w % 2 ^ 16)).isSome then some (.handlerBase (.compressed (.ofNat 16 w))) else none
  else
    match decodeCustom w with
    | some i => some i
    | none => (decodeRv w).map fun op => .handlerBase (.full op)

/-- The instruction a table word stands for: 32 bits or fewer, a handler core's word (the only rows of the opcode table
with bits); 60 bits or more are no row of the table. -/
def decodeTableWord (nbits w : Nat) : Option Instr :=
  if nbits ≤ 32 then decodeHandler (w % 2 ^ nbits) else none

/-! ## The encoders -/

/-- The 60-bit word of a slot (R239). -/
def encodeSlot (s : Slot) : Nat :=
  pack [(7, opcode s.instr), (1, s.pn.toNat), (4, s.ps.toNat), (48, pack (fields s.instr))]

/-- The 512-bit word of a bundle (R237, R238). -/
def encodeBundle (b : Bundle) : Nat :=
  pack [(1, b.hdr.blk.toNat), (2, b.hdr.sf.toNat), (6, b.hdr.ew.toNat), (23, 0), (60, encodeSlot b.y),
    (60, encodeSlot b.s), (60, encodeSlot b.v0), (60, encodeSlot b.v1), (60, encodeSlot b.m), (60, encodeSlot b.l),
    (60, encodeSlot b.t), (60, encodeSlot b.c)]

/-- The R-type word of R225. -/
def rType (f7 rs2 rs1 f3 rd op : Nat) : Nat := pack [(7, f7), (5, rs2), (5, rs1), (3, f3), (5, rd), (7, op)]

def RvBr.f3 : RvBr → Nat
  | .beq => 0 | .bne => 1 | .blt => 4 | .bge => 5 | .bltu => 6 | .bgeu => 7
def RvLd.f3 : RvLd → Nat
  | .lb => 0 | .lh => 1 | .lw => 2 | .ld => 3 | .lbu => 4 | .lhu => 5 | .lwu => 6
def RvSt.f3 : RvSt → Nat
  | .sb => 0 | .sh => 1 | .sw => 2 | .sd => 3
def RvImm.f3 : RvImm → Nat
  | .addi => 0 | .slti => 2 | .sltiu => 3 | .xori => 4 | .ori => 6 | .andi => 7
def RvSh.f3 : RvSh → Nat
  | .sll => 1 | .srl => 5 | .sra => 5
def RvSh.hi : RvSh → Nat
  | .sll => 0 | .srl => 0 | .sra => 0x10
def RvOpR.f3 : RvOpR → Nat
  | .add => 0 | .sub => 0 | .sll => 1 | .slt => 2 | .sltu => 3 | .xor => 4 | .srl => 5 | .sra => 5 | .or => 6 | .and => 7
def RvOpR.f7 : RvOpR → Nat
  | .sub => 0x20 | .sra => 0x20 | .add => 0 | .sll => 0 | .slt => 0 | .sltu => 0 | .xor => 0 | .srl => 0 | .or => 0
  | .and => 0
def RvOpW.f3 : RvOpW → Nat
  | .addw => 0 | .subw => 0 | .sllw => 1 | .srlw => 5 | .sraw => 5
def RvOpW.f7 : RvOpW → Nat
  | .subw => 0x20 | .sraw => 0x20 | .addw => 0 | .sllw => 0 | .srlw => 0
def RvMul.f3 : RvMul → Nat
  | .mul => 0 | .mulh => 1 | .mulhsu => 2 | .mulhu => 3 | .div => 4 | .divu => 5 | .rem => 6 | .remu => 7
def RvMulW.f3 : RvMulW → Nat
  | .mulw => 0 | .divw => 4 | .divuw => 5 | .remw => 6 | .remuw => 7
def RvAmo.f5 : RvAmo → Nat
  | .swap => 1 | .add => 0 | .xor => 4 | .and => 0x0C | .or => 8 | .min => 0x10 | .max => 0x14 | .minu => 0x18
  | .maxu => 0x1C

/-- The 32-bit word of a base instruction (PRESUMED, log 6). -/
def encodeRv : RvOp → Nat
  | .lui rd imm => pack [(20, imm.toNat), (5, rd.toNat), (7, 0x37)]
  | .auipc rd imm => pack [(20, imm.toNat), (5, rd.toNat), (7, 0x17)]
  | .jal rd o =>
    pack [(1, o.toNat / 2 ^ 19), (10, o.toNat % 2 ^ 10), (1, o.toNat / 2 ^ 10 % 2), (8, o.toNat / 2 ^ 11 % 2 ^ 8),
      (5, rd.toNat), (7, 0x6F)]
  | .jalr rd rs1 imm => pack [(12, imm.toNat), (5, rs1.toNat), (3, 0), (5, rd.toNat), (7, 0x67)]
  | .branch c rs1 rs2 o =>
    pack [(1, o.toNat / 2 ^ 11), (6, o.toNat / 2 ^ 4 % 2 ^ 6), (5, rs2.toNat), (5, rs1.toNat), (3, c.f3),
      (4, o.toNat % 2 ^ 4), (1, o.toNat / 2 ^ 10 % 2), (7, 0x63)]
  | .load l rd rs1 imm => pack [(12, imm.toNat), (5, rs1.toNat), (3, l.f3), (5, rd.toNat), (7, 0x03)]
  | .store t rs1 rs2 imm =>
    pack [(7, imm.toNat / 2 ^ 5), (5, rs2.toNat), (5, rs1.toNat), (3, t.f3), (5, imm.toNat % 2 ^ 5), (7, 0x23)]
  | .opImm o rd rs1 imm => pack [(12, imm.toNat), (5, rs1.toNat), (3, o.f3), (5, rd.toNat), (7, 0x13)]
  | .shImm o rd rs1 sh => pack [(6, o.hi), (6, sh.toNat), (5, rs1.toNat), (3, o.f3), (5, rd.toNat), (7, 0x13)]
  | .op o rd rs1 rs2 => rType o.f7 rs2.toNat rs1.toNat o.f3 rd.toNat 0x33
  | .addiw rd rs1 imm => pack [(12, imm.toNat), (5, rs1.toNat), (3, 0), (5, rd.toNat), (7, 0x1B)]
  | .shImmW o rd rs1 sh => rType (o.hi * 2) sh.toNat rs1.toNat o.f3 rd.toNat 0x1B
  | .opW o rd rs1 rs2 => rType o.f7 rs2.toNat rs1.toNat o.f3 rd.toNat 0x3B
  | .mulDiv o rd rs1 rs2 => rType 1 rs2.toNat rs1.toNat o.f3 rd.toNat 0x33
  | .mulDivW o rd rs1 rs2 => rType 1 rs2.toNat rs1.toNat o.f3 rd.toNat 0x3B
  | .lr dbl aq rl rd rs1 =>
    rType (0x02 * 4 + aq.toNat * 2 + rl.toNat) 0 rs1.toNat (2 + dbl.toNat) rd.toNat 0x2F
  | .sc dbl aq rl rd rs1 rs2 =>
    rType (0x03 * 4 + aq.toNat * 2 + rl.toNat) rs2.toNat rs1.toNat (2 + dbl.toNat) rd.toNat 0x2F
  | .amo o dbl aq rl rd rs1 rs2 =>
    rType (o.f5 * 4 + aq.toNat * 2 + rl.toNat) rs2.toNat rs1.toNat (2 + dbl.toNat) rd.toNat 0x2F
  | .fence fm p q rd rs1 =>
    pack [(4, fm.toNat), (4, p.toNat), (4, q.toNat), (5, rs1.toNat), (3, 0), (5, rd.toNat), (7, 0x0F)]

/-- The word of a handler instruction (R225, R226); zero for what is no handler instruction. -/
def encodeHandler : Instr → Nat
  | .slrd rd rs1 => rType 0 0 rs1.toNat 0 rd.toNat 0x0B
  | .slwr rs1 rs2 => rType 0 rs2.toNat rs1.toNat 1 0 0x0B
  | .sllk rd rs1 => rType 0 0 rs1.toNat 2 rd.toNat 0x0B
  | .slunlk rs1 => rType 0 0 rs1.toNat 3 0 0x0B
  | .slfill noev rd rs1 => rType noev.toNat 0 rs1.toNat 4 rd.toNat 0x0B
  | .sldrop rs1 => rType 0 0 rs1.toNat 5 0 0x0B
  | .slwb rs1 => rType 0 0 rs1.toNat 6 0 0x0B
  | .slamo op rd rs1 rs2 => rType op.code rs2.toNat rs1.toNat 7 rd.toNat 0x0B
  | .slevt rd rs1 => rType 0 0 rs1.toNat 0 rd.toNat 0x2B
  | .slmsg rd rs1 rs2 => rType 0 rs2.toNat rs1.toNat 1 rd.toNat 0x2B
  | .slret rs1 => rType 0 0 rs1.toNat 2 0 0x2B
  | .slbud rd => rType 0 0 0 3 rd.toNat 0x2B
  | .slnext noev rd rs1 => rType noev.toNat 0 rs1.toNat 4 rd.toNat 0x2B
  | .slwait rd rs1 => rType 0 0 rs1.toNat 5 rd.toNat 0x2B
  | .slage rs1 rs2 => rType 0 rs2.toNat rs1.toNat 6 0 0x2B
  | .slhas rd rs1 => rType 0 0 rs1.toNat 7 rd.toNat 0x2B
  | .handlerBase (.full op) => encodeRv op
  | .handlerBase (.compressed b) => b.toNat
  | _ => 0

end Sys2Proof
end

