-- ==== Sys2Proof/Machine/State.lean ====
section
/-!
DEFINITION. The state of the module as plain data: every register, memory, queue and status bit the spec gives the
machine (INVENTORY.md lists them with their rules), the reasons a step can stop, and the state after reset.
Maps are lists of (key, value) in rising key order that list no default value (Machine/Sparse.lean).
-/
namespace Sys2Proof.Machine

/-- Why a step stops the machine. -/
inductive Fault where
  /-- An event names a unit that the form does not have (a cluster beyond NCLUS, a chiplet, an instance or an entry
  that does not exist). Raised by the events; safe: no such event can occur on the hardware. -/
  | noSuchUnit
deriving DecidableEq, Repr

/-- Why an instruction has no meaning. -/
inductive Refusal where
  /-- The arm of exec has no meaning yet. Raised by exec alone; safe. -/
  | notModelled (mnemonic : String)
deriving DecidableEq, Repr

/-- A finite map from Nat (Machine/Sparse.lean). -/
abbrev Sparse (α : Type) := List (Nat × α)

/-- A byte store of a local unit: listed bytes, and what an unlisted byte reads as: 0 when `tag` is 0, else the free
bytes of that tag (R81, R161: undefined contents; log 4). -/
structure Store where
  tag : Nat
  cells : List Host.Cell
deriving DecidableEq, Repr

/-- An s register: value and poison bit (R244, R246). -/
structure SVal where
  val : Word
  psn : Bool
deriving DecidableEq, Repr

/-- A v register: value and poison bit (R244, R246). -/
structure VVal where
  val : VWord
  psn : Bool
deriving DecidableEq, Repr

/-- The register state of a context that a MARK shadows and a rollback restores (R93, R244, R247, R351, R509;
LEAD and LEADPOS by R509's shadow of R81, log 11). -/
structure Banks where
  /-- s0 to s63. -/
  s : Sparse SVal
  /-- v0 to v511. -/
  v : Sparse VVal
  /-- k0 to k15. -/
  k : Sparse (BitVec 32)
  /-- a0 to a31. -/
  a : Sparse Word
  /-- l0 to l3. -/
  l : Sparse Word
  /-- p0 to p15, bit i for p_i; p0 reads 1 whatever bit 0 holds (R247). -/
  p : BitVec 16
  /-- f0 to f63, bit i for f_i (R86). -/
  f : BitVec 64
  /-- z0 to z7: ANY, ALL, NONE, COUNT (R247). -/
  z : Sparse (BitVec 9)
  /-- hm0 to hm3: live and configuration shadow (R352, R354). -/
  hm : Sparse Word
  hmSh : Sparse Word
  /-- n0 to n5: live and configuration shadow (R353, R354). -/
  n : Sparse Word
  nSh : Sparse Word
  /-- hc0 to hc3, word w of hc h at 8h + w: live and configuration shadow (R335). -/
  hc : Sparse Word
  hcSh : Sparse Word
  /-- Stream control registers (R351). -/
  slen : BitVec 5
  seedb : BitVec 32
  smode : BitVec 10
  eref : BitVec 10
  smarg : BitVec 28
  svmrg : BitVec 11
  sflg : BitVec 32
  sqry : BitVec 64
  /-- FSTAT (R38), CSTAT (R348). -/
  fstat : BitVec 32
  cstat : BitVec 32
  /-- TSHAPE0 to TSHAPE31 (R167). -/
  tshape : Sparse (BitVec 32)
  /-- DOM, LEAD, LEADPOS (R96, R99). -/
  dom : BitVec 3
  lead : BitVec 7
  leadpos : BitVec 11
deriving DecidableEq, Repr

/-- Where a result in flight lands (R248, R250). -/
inductive Dst where
  | s (n : SReg)
  | v (n : VReg)
  | a (n : AReg)
  | k (n : KReg)
  | z (n : ZReg)
  | l (n : LReg)
  /-- Flags ORed into FSTAT (R39). -/
  | fstat
  /-- A control register, written as MTC writes it (R377). -/
  | creg (n : BitVec 12)
  /-- LEADPOS, written by a release (R278). -/
  | leadpos
  /-- A push to a write galley (R250): the entry fills when the result lands. -/
  | push (g : GalleyNo)
deriving DecidableEq, Repr

/-- A result in flight: tag, destination, value (in the low bits) and poison, and the bundle from which every read sees
it (R248); none while a far load has no bound (R315). `ready` is false until a far load's value has returned. -/
structure Pend where
  tag : Nat
  dst : Dst
  val : VWord
  psn : Bool
  due : Option Nat
  ready : Bool
  /-- Class of a far load (R315). -/
  cls : Nat
  /-- Another result to the register overtakes this one: once it lands the value is undefined, the free value of this
  number (R249). -/
  undef : Option Nat
deriving DecidableEq, Repr

/-- States of a hardware context (R126, R490). -/
inductive CtxSt where
  | free | binding | ready | blocked | saving | halted
deriving DecidableEq, Repr

/-- What a BLOCKED context waits for (R126). `retry` is a stall: galley, engine queue, range scoreboard, stash granule,
outstanding requests, a release point's translations, an SGO's wait (R354, R435), WAIT, BLK: its bundle is selected again
when `wakes` (Machine/Issue.lean) holds. -/
inductive Wait where
  | none
  /-- The selected bundle stalls and is tried again. -/
  | retry
  /-- A BLK semaphore (R84). -/
  | blk
  /-- WAIT (R87). -/
  | flags
  /-- WAITP with held slots (R88). -/
  | waitp
  /-- RECV (R384), Y slot waiting. -/
  | recv
  /-- DBAR: not yet arrived (waits for performance), arrived, released with a restart cycle (R97 to R99). -/
  | dbarPerform (lvl : Nat) (lead : Bool) (after : Nat)
  | dbarArrived (lvl : Nat) (lead : Bool)
  | dbarRestart (cycle : Nat)
  /-- A blocking FENCE (R331). -/
  | fence (id : Nat)
  /-- SDRAIN (R371). -/
  | drain (pls : PlaneSet)
  /-- WAITADDR (R323). -/
  | watch (id : Nat)
  /-- EXIT past its release (R82). -/
  | exit
  /-- The pager resolves a fault of the context, delivered with these TCAUSE and TINFO if it declines (R443, R448). -/
  | pager (id : Nat) (tc : BitVec 32) (ti : BitVec 64)
deriving DecidableEq, Repr

/-- A trap found by a check: cause, slot (none for causes of no slot), and TINFO: the 40-bit detail beside BIDX, or the
whole word (R441). -/
structure Trap where
  cause : Nat
  slot : Option SlotNo
  detail : Nat
  whole : Option (BitVec 64)
deriving DecidableEq, Repr

/-- What has come of the slot last run: its effect, a trap, a stall of its bundle, a granule that it waits for, a wait
for the energy grant, or a wait or a fault of a release point (R439, R440). -/
inductive SlotEnd where
  | ran
  | trap (t : Trap)
  | stall (w : Wait)
  | granule (region idx : Nat) (write eng : Bool)
  | energy
  | hold
deriving DecidableEq, Repr

/-- A branch in flight: bundles that complete before it goes to its target, 3 in the branch bundle itself, 2 and 1 in
its delay slots; and where it goes when taken (R251). -/
structure Branch where
  left : Nat
  tgt : Option (Nat × Nat)
deriving DecidableEq, Repr

/-- The current block (R83 to R85, R453). -/
structure Block where
  on : Bool
  count : Nat
  d : Nat
  stalls : Nat
  /-- The count has exceeded D, and BOVR was set for it (R453). -/
  past : Bool
  /-- A BOVR fault of this block is recorded (R441, R453). -/
  noted : Bool
deriving DecidableEq, Repr

/-- A deferred-fault entry (R445 to R447): cause word, TINFO, reported from a destination, the id of the access it is
charged to, and the page for the pager when it resolves it (R448). -/
structure Defer where
  tcause : BitVec 32
  tinfo : BitVec 64
  dest : Bool
  /-- Issue order of the access charged. -/
  ord : Nat
  /-- The virtual page that the pager is to make resident when the fault is taken (R448). -/
  pager : Option Nat
  /-- A MARK has found it due and has taken an older one: any release point takes it from then on (R447). -/
  due : Bool
deriving DecidableEq, Repr

/-- What binding gives a context (R79, R80, R81, R112): launch, group, image and claims, and the granted bases. -/
structure Binding where
  /-- Entry of the running table, plus one; 0 when no launch is bound. -/
  launch : Nat
  handle : Nat
  group : Nat
  gcount : Nat
  gen : BitVec 16
  asid : Nat
  tenant : Nat
  image : Nat
  entry : Nat
  metaoff : Nat
  /-- End of the text, as an offset: METAOFF (R259). -/
  textEnd : Nat
  lmoff : Nat
  lmcount : Nat
  carr : Nat
  ctile : Nat
  creg : Nat
  cgal : Nat
  arr0 : Nat
  tile0 : Nat
  reg0 : Nat
  gal0 : Nat
  /-- Bound conflict-batching unit (R129). -/
  cbu : Option Nat
deriving DecidableEq, Repr

/-- The operation of a memory access. -/
inductive AccOp where
  | load
  | store
  /-- ATOM and RED: operation, operand, expected value (R329, R330). -/
  | atom (op : AtomOp) (opnd exp : Word)
  | red (op : AtomOp) (opnd : Word)
  | rfetch
  | rflush
  | clean
  | flush
  | pref
  | hmsg (token : BitVec 64)
  | cbtake
  | cbdone (tag : BitVec 32)
  /-- FENCE, or the ordering point of another instruction: nothing is accessed (R188, R192). -/
  | fence
deriving DecidableEq, Repr

/-- Where a load's value goes. -/
inductive AccDst where
  | none
  | s (n : SReg) (sx : Bool)
  | a (n : AReg) (sx : Bool)
  | v (n : VReg)
  /-- Element e of a v register (LDG, R319). -/
  | elem (n : VReg) (e : Nat)
  /-- The bytes at a physical local address (ATOM's RET). -/
  | loc (addr : Nat)
  /-- Tile bytes (LDT): physical tile, offset, valid bytes. -/
  | tile (t off len : Nat)
  /-- Entry of a physical galley (LDX). -/
  | galley (g ent : Nat)
  /-- WAITADDR: the a register, and the cycle at which the watch ends (R323). -/
  | watch (n : AReg) (deadline : Nat)
deriving DecidableEq, Repr

/-- Translation of an access (R152, R172). -/
inductive Tr where
  | pending
  /-- Physical address and MT; MT 3 stands for a physical local address (no translation, R160). -/
  | ok (pa : Nat) (mt : Nat)
  /-- A fault recorded: the access performs nothing. -/
  | fault (cause : Nat)
  /-- Non-resident, the pager is asked (R175, R448). -/
  | nonres
deriving DecidableEq, Repr

/-- How far an access has come. -/
inductive AccSt where
  /-- Held in the gated store buffer (R92). -/
  | held
  /-- Sent on, not performed. -/
  | sent
  /-- At its home, waiting for a MISS handler, a fill, a lock or the host. A write of host memory is then performed at
  MOD: the slice at MC0 has accepted it (R181). -/
  | home
  /-- Performed; a load's value is on its way back. -/
  | performed
  /-- Refused or faulted at its destination (R466, R470). -/
  | refused
  /-- Delivered and counted; kept for nothing. -/
  | done
deriving DecidableEq, Repr

/-- A far access, a held write, or an ordering point of a context (R92, R184, R186 to R192). -/
structure Access where
  id : Nat
  cl : Nat
  ctx : Nat
  gen : BitVec 16
  /-- Rank of the context's accesses in program order. -/
  ord : Nat
  /-- A further element of an STX or LDG, which holds no place of its own in the gated store buffer (R92). -/
  sub : Bool
  slot : SlotNo
  /-- Bundle offset charged with its faults (R441). -/
  bpc : Nat
  op : AccOp
  va : Nat
  asid : Nat
  tenant : Nat
  handle : Nat
  /-- Entry of the launch in the running table, plus one. -/
  launch : Nat
  group : Nat
  len : Nat
  data : List Byte
  cls : Nat
  hint : Hint
  /-- Scope and class mask of an LDA, STRL, FENCE or ordering point. -/
  acq : Option (Nat × BitVec 16)
  rel : Option (Nat × BitVec 16)
  /-- Copies of the context are covered by the release. -/
  copies : Bool
  dst : AccDst
  /-- Register results written poisoned: the tag of the result pending (R315). -/
  tag : Nat
  /-- LDS: a fault poisons instead of trapping (R318). -/
  spec : Bool
  tr : Tr
  st : AccSt
  /-- A MISS event of this access has been handled (R210). -/
  missDone : Bool
  /-- REDIRECT: the line that serves it (R211). -/
  redirect : Option Nat
  /-- The access belongs to a saved group and counts in OWED (R103). -/
  owed : Bool
  /-- An access of the copy engine: its job's id, plus one (R197). -/
  eng : Nat
  /-- Named by a local address: an access to local store, which is no far access (R187). -/
  loc : Bool
deriving DecidableEq, Repr

/-- What control registers beside the banks read at a bundle's issue: TRAPM, SPOUT and SPOCC of each channel (R378). -/
structure Sys where
  trapm : Bool
  spout : Nat
  spocc : List Nat
deriving DecidableEq, Repr

/-- One hardware context (R126, R244 to R247, R351, R376). -/
structure Ctx where
  st : CtxSt
  /-- The state a HALTED context left (R490). -/
  haltFrom : CtxSt
  regs : Banks
  shadow : Banks
  nr : Bool
  /-- Restart point {PC, MPC} and livemap index (R279, R509). -/
  rpc : Nat
  rmpc : Nat
  lmidx : BitVec 16
  /-- PC and MPC as offsets from the image base (R251 to R255). -/
  pc : Nat
  mpc : Nat
  br : Option Branch
  pend : List Pend
  blk : Block
  /-- The block began after the last mark (R85, log 18). -/
  blkNew : Bool
  /-- Slots of the current WAIT or WAITP bundle that have not issued; empty when none is in progress (R88). -/
  held : List SlotNo
  /-- Slots of a bundle whose issue was interrupted by a release point's wait (R445); they issue next. -/
  rest : List SlotNo
  /-- What the slots in `rest` read: the registers and the results in flight at the bundle's issue (R248). -/
  restSnap : Option (Banks × List Pend × Sys)
  /-- The slots of a WAITP bundle that a stall kept from issuing together: the same are tried again (R276). -/
  tried : List SlotNo
  wait : Wait
  defer : List Defer
  lost : Bool
  /-- OWED counts, by class (R103). -/
  owed : Sparse Nat
  bnd : Binding
  trapm : Bool
  /-- A TRET since which no MARK has been: a pre-emption waits for that MARK (R444). -/
  tret : Bool
  tvec : BitVec 64
  erpc : Word
  ermpc : Word
  tcause : BitVec 32
  tinfo : BitVec 64
  egstall : BitVec 32
  spout : Nat
  preempt : Bool
  /-- The stop was at a wait; NR was 0 at the stop; the reason of the save (R104). -/
  stopWait : Bool
  stopNr0 : Bool
  srsn : Nat
  /-- Relative planes that owned a nest at the stop (R104, R363). -/
  nestsAt : Option (List Nat)
  /-- YIELD: the contexts to be selected, or to leave READY, before this one (R280). -/
  aside : List CtxNo
  /-- Bundles issued since binding (R248). -/
  bundle : Nat
  /-- Program order of the next access. -/
  ord : Nat
  /-- Accesses of lower id precede the last mark (R93, R188). -/
  markId : Nat
  /-- Flags that other agents set in a cycle, and that cycle plus one: a set and a clear of one cycle leave 1 (R86). -/
  fset : BitVec 64
  fsetAt : Nat
deriving DecidableEq, Repr

/-- State of a stash granule (R163). -/
inductive GranSt where
  | shared | exclusive
deriving DecidableEq, Repr

/-- A granule of a STASH region (R162, R163): its number in the region, its physical address, state, dirty lines. A
granule filled from the bounce buffer has no physical address: its page is not resident (R175). -/
structure Granule where
  idx : Nat
  pa : Option Nat
  st : GranSt
  dirty : BitVec 16
deriving DecidableEq, Repr

/-- A line of a CACHE region (R160): virtual line, linear line, the 4 KiB granule that holds it as its alias names it
(R164), dirty bytes. The data lie in the region's store at the line's place. -/
structure CLine where
  vline : Nat
  asid : Nat
  pline : Nat
  gran : Nat
  way : Nat
  excl : Bool
  dirty : Bool
deriving DecidableEq, Repr

/-- A local-store region (R159 to R163). -/
structure Region where
  mode : RegMode
  store : Store
  /-- Virtual base and ASID of a stash mapping. -/
  map : Option (Nat × Nat)
  /-- The allocation hint of the mapping's fills. -/
  hint : Hint
  gran : List Granule
  lines : List CLine
deriving DecidableEq, Repr

/-- A granule fill or Exclusive request in flight (R162): physical region, granule, address space, and whether for
writing; the tenant of the launch. -/
structure StashReq where
  id : Nat
  region : Nat
  idx : Nat
  va : Nat
  asid : Nat
  tenant : Nat
  write : Bool
  /-- Lines whose MISS event has ended, and the lines that a REDIRECT named for them (R211). -/
  missDone : List Nat
  redirect : Sparse Nat
  /-- The last fill failed with this cause: the stall ends and the access that touched it issues with it (R500). -/
  failed : Option Nat
  /-- An engine's access wants it: a page that is not resident is asked of the pager, and waited for (R175). -/
  eng : Bool
deriving DecidableEq, Repr

/-- The latched state of a plane's nest (R363) with its walk (R364, R365). -/
structure Nest where
  /-- Its range-scoreboard entries carry this id (R78). -/
  id : Nat
  /-- The context that owns it. -/
  ctx : Nat
  hm : BitVec 2
  /-- Live hm[HM] and n0 to n5, and the operand tiles' shapes, as the walk reads them. -/
  hmv : Word
  nv : List Word
  ashape : BitVec 32
  bshape : BitVec 32
  tile0 : Nat
  skip : BitVec 64
  seed : BitVec 32
  j : Nat
  eref : BitVec 10
  smode : BitVec 10
  g : Nat
  smarg : BitVec 28
  new : Nat
  flag : Option FReg
  /-- Counters i0 to i5, q, current pass. -/
  i : List Nat
  q : Nat
  pass : Nat
  /-- S_EB so far, saturated at 48 bits (R70). -/
  seb : Nat
  /-- The walk of the current pass has ended: its end-of-pass step is due (R69). -/
  endPass : Bool
  /-- A stop is requested by SSTOP, by pre-emption. -/
  sstop : Bool
  pstop : Bool
  /-- CLIP, SAT or NSC since the SGO (R73). -/
  dirty : Bool
  /-- Offset of the SGO's bundle, and its mark interval's order (R441, R481). -/
  bpc : Nat
  ord : Nat
  /-- Failed attempts of the segment in progress (R482). -/
  retries : Nat
  /-- The cycle at which the k-step in progress has run (R67, R68). -/
  due : Nat
  /-- An accumulator row with a parity error has been read: the nest stops at the next k-step boundary (R481). -/
  apar : Bool
deriving DecidableEq, Repr

/-- A queued plane operation (R367). -/
inductive PlaneOp where
  | sclr (ctx : Nat) (bpc : Nat)
  | sgo (n : Nest)
  /-- SACC: context and GEN, id of its range-scoreboard entry, first tile byte, plane row and column, number of values,
  BF16. -/
  | sacc (ctx : Nat) (gen : BitVec 16) (id lo prow pcol n : Nat) (bf : Bool)
deriving DecidableEq, Repr

/-- An accumulator plane (R58): its listed accumulators (at 512 · row + column; unlisted: 0 when `tag` is 0, else
free), status, bounds, the latched nest state, the nest in flight and the queue of plane operations. -/
structure Plane where
  tag : Nat
  acc : Sparse (BitVec 48)
  pstat : BitVec 32
  seb : BitVec 48
  eb : BitVec 56
  /-- Latched values for readout (R370): EREF, SMODE, last pass, and counters as SPOS reads them (R373). -/
  leref : BitVec 10
  lsmode : BitVec 10
  lpass : Nat
  lq : Nat
  li : List Nat
  /-- The latched nest, for the nest-state section (R363). -/
  last : Option Nest
  /-- The nest that owns the plane. -/
  nest : Option Nest
  /-- Stopped by pre-emption before it ended (R363). -/
  stopped : Bool
  queue : List PlaneOp
deriving DecidableEq, Repr

/-- A pattern of one side of a copy or galley (R336). -/
structure Pattern where
  base : Nat
  space : Nat
  esz : Nat
  c0 : Nat
  c1 : Nat
  c2 : Nat
  s0 : Int
  s1 : Int
  s2 : Int
deriving DecidableEq, Repr

/-- A galley (R168, R169, R343). -/
structure Galley where
  ctx : Nat
  kind : BindKind
  pat : Pattern
  /-- Elements transferred so far (filled for reads, stored for writes). -/
  pos : Nat
  /-- Entries in order, each with the tag of the result or LDX that fills it; none is owed (R250, R320). -/
  q : List (Nat × Option VWord)
  cls : Nat
  hint : Hint
  bpc : Nat
  /-- The number of its BIND: writes of lower number precede it (R197). -/
  id : Nat
deriving DecidableEq, Repr

/-- Forms of a job of the copy engine. -/
inductive CopyOp where
  | cpy | cpyc | cpyt | cpye
  /-- BIND and UNBIND with the galley they unbind, which is no longer named by its register (R343). -/
  | bind (old : Option Galley)
  | unbind (old : Option Galley)
  | reshape (r : Nat) (mode : RegMode)
  | stash (r : Nat) (base : Nat)
  | cwb (r : Nat) (keep : Bool)
  | rwin (len : Nat) (wid : Nat)
  /-- The fill of the read-galley entry with a tag, the store of a write-galley entry (R168). -/
  | gfill (g tag : Nat)
  | gstore (g : Nat) (v : VWord)
deriving DecidableEq, Repr

/-- How far a job of the copy engine has come. -/
inductive CopySt where
  | queued
  /-- CPYE's metadata is being read (R342). -/
  | metadata
  | reading
  | writing
deriving DecidableEq, Repr

/-- A job of the copy engine (R335, R337, R338): the instruction's issue, its descriptor, and the bytes read so far. -/
structure Copy where
  id : Nat
  ctx : Nat
  bpc : Nat
  op : CopyOp
  desc : List Word
  cls : Nat
  hint : Hint
  flag : Option FReg
  st : CopySt
  /-- Source parts: the access that reads each, 0 when its bytes are here; the address of its first byte; its bytes. -/
  parts : List (Nat × Nat × List Byte)
  mdata : List Byte
  /-- CSTAT bits to OR at completion. -/
  cstat : BitVec 32
  /-- The pattern of a galley entry: space, element size, addresses; of a RESHAPE the regions that it blocks (R161). -/
  gspace : Nat
  gaddrs : List Nat
  gesz : Nat
  bnd : Binding
  /-- The job belongs to a saved group and counts in OWED (R103). -/
  owed : Bool
  /-- RESHAPE: the cycle at which it has taken its time (R161). -/
  due : Nat
deriving DecidableEq, Repr

/-- A range-scoreboard entry (R170): owner, kind, space (1 local, 2 tile, physical), bounds. -/
structure RsEntry where
  owner : Nat
  /-- The copy, nest, LDT, SACC, SEND or RECV it belongs to. -/
  who : Nat
  write : Bool
  space : Nat
  lo : Nat
  hi : Nat
deriving DecidableEq, Repr

/-- A TLB entry (R172). -/
structure TlbEntry where
  asid : Nat
  vpage : Nat
  big : Bool
  pte : BitVec 64
deriving DecidableEq, Repr

/-- A cluster (R14). -/
structure Cluster where
  last : CtxNo
  /-- The last cycle in which it selected, plus one (R127). -/
  selAt : Nat
  tiles : Sparse Store
  regions : Sparse Region
  stashReqs : List StashReq
  planes : Sparse Plane
  galleys : Sparse Galley
  copies : List Copy
  rsb : List RsEntry
  tlb : List TlbEntry
  /-- Energy (R432 to R435): window number plus one of the account (0: none yet), U, A, D, and whether it held a stall
  or a held SGO; the current bundle is the first of the window. -/
  win : Nat
  u : Nat
  nestU : Nat
  al : Nat
  dd : Nat
  eheld : Bool
  estall : Bool
  first : Bool
  egrant : BitVec 16
  rplcnt : BitVec 32
  /-- Droop (R437): the cycles of the last connections, and whether stall bundles are being carried. -/
  duty : List Nat
  droop : Bool
deriving DecidableEq, Repr

/-- Power and reset of a stream chiplet (R20 to R22, R493). -/
inductive ChipSt where
  | on
  /-- Quiescing since a cycle; controlled. -/
  | quiesce (since : Nat) (controlled : Bool)
  /-- A controlled reset waits for its groups' saves. -/
  | draining
  | inReset
  | down
deriving DecidableEq, Repr

/-- A line held in a slice (R157, R220). -/
structure Line where
  line : Nat
  data : BitVec 2048
  dirty : Bool
  /-- Way, position in the replacement order (R157). -/
  way : Nat
  pos : Nat
  tenant : Option Nat
  /-- The way waits for the line's fill. -/
  filling : Bool
  /-- Held by a FILL or EVICT event, from its raising to its end (R215). -/
  evLock : Bool
  poison : Bool
  /-- The requests for whose eviction it was the victim that a VETO has kept, until they have found another way (R211). -/
  vetoed : List Nat
deriving DecidableEq, Repr

/-- A fill pending from the channel (R211, R229). -/
structure Fill where
  line : Nat
  waiters : List Nat
  tenant : Option Nat
  noev : Bool
  handler : Bool
  /-- The request that caused it, for the event record. -/
  reqCl : Nat
  reqSl : Bool
  kind : Nat
  asid : Nat
  hint : Nat
  off : Nat
  /-- The cycle at which it started: the schedule gives it the channel's nominal time (R226, log 1). -/
  since : Nat
deriving DecidableEq, Repr

/-- An event of a slice (R210, R212). -/
structure Ev where
  kind : Nat
  tenant : Nat
  cls : Nat
  laddr : Nat
  reqCl : Nat
  reqSl : Bool
  rkind : Nat
  asid : Nat
  hint : Nat
  off : Nat
  aux : Nat
  rtoken : BitVec 64
  msg : BitVec 512
  /-- The accesses waiting for its action. -/
  waiters : List Nat
deriving DecidableEq, Repr

/-- What the running handler's instruction waits for. -/
inductive RunWait where
  | none
  /-- The line's fill; an implicit fill re-executes the instruction when it arrives (R218, R231). -/
  | fill (line : Nat)
deriving DecidableEq, Repr

/-- The handler in progress (R213 to R216). -/
structure Run where
  ev : Ev
  pc : Nat
  x : Sparse Word
  used : Nat
  bud : Nat
  resv : Option Nat
  locks : List Nat
  wait : RunWait
  /-- Lines whose fill has brought an uncorrectable error while it ran (R231). -/
  failed : List Nat
  /-- The cycle at which its next handler cycle begins: the handler clock is half the arithmetic clock (R19, R205). -/
  next : Nat
deriving DecidableEq, Repr

/-- A sharer-directory entry (R164): granule, sharer mask (bit 96: the host). -/
structure DirEntry where
  gran : Nat
  mask : BitVec 97
deriving DecidableEq, Repr

/-- A slice (R157, R164, R206, R209, R214, R223, R478). -/
structure Slice where
  lines : List Line
  fills : List Fill
  dir : List DirEntry
  code : List Host.Cell
  data : Store
  /-- Table entry of tenant, event, class at 16·tenant + 4·event + class. -/
  table : Sparse (BitVec 64)
  events : List Ev
  run : Option Run
  seqn : BitVec 32
  /-- ABORT, FAULT, QFULL, RDROP at 4·tenant + i. -/
  cnt : Sparse (BitVec 32)
  /-- Accesses that have arrived and wait, in order of arrival (R183, R215). -/
  held : List Nat
  /-- In reset with its memory chiplet (R494), or degraded (R495). -/
  down : Bool
  /-- Its share of its channel's training values, 16 bits; a channel has four slices (R20, log 98). -/
  train : BitVec 16
deriving DecidableEq, Repr

/-- A bounce-buffer line (R175). -/
structure Bounce where
  asid : Nat
  vline : Nat
  mask : BitVec 256
  data : BitVec 2048
deriving DecidableEq, Repr

/-- A reduction window (R177): owner, base and length (as named), and its shadows by element. -/
structure Shadow where
  s : BitVec 128
  nan : Bool
  pinf : Bool
  ninf : Bool
  ovf : Bool
deriving DecidableEq, Repr

structure RedWin where
  wid : Nat
  launch : Nat
  /-- The alias it was declared through. -/
  base : Nat
  len : Nat
  /-- Shadows by the element's address in that alias. -/
  shadows : Sparse Shadow
deriving DecidableEq, Repr

/-- A request to the pager (R448). -/
structure PagerReq where
  id : Nat
  asid : Nat
  vpage : Nat
  /-- While the page is held (R176): address and value of its leaf, and its size. -/
  leaf : Option (Nat × Nat × Nat)
deriving DecidableEq, Repr

/-- A POST whose flag is not yet delivered (R277). -/
structure PostReq where
  id : Nat
  cl : Nat
  ctx : Nat
  ord : Nat
  gen : BitVec 16
  /-- The poster's launch, as in a binding, and group. -/
  launch : Nat
  group : Nat
  target : Nat
  flag : FReg
deriving DecidableEq, Repr

/-- A SEND whose bytes are not yet in their queue (R383): read once its accesses are performed. -/
structure SendReq where
  id : Nat
  cl : Nat
  ctx : Nat
  ord : Nat
  gen : BitVec 16
  /-- The sender's launch, as in a binding, and group. -/
  launch : Nat
  group : Nat
  handle : Nat
  dmod : Nat
  ch : Nat
  nfl : Nat
  addr : Nat
  bytes : Option (List Byte)
deriving DecidableEq, Repr

/-- A message in a receive channel, or on its way (R380, R384). -/
structure SpanMsg where
  handle : Nat
  src : Nat
  ch : Nat
  bytes : List Byte
deriving DecidableEq, Repr

/-- A handler's reply in flight: its token and bytes, the slice and the tenant that sent it (R222). -/
structure Reply where
  token : BitVec 64
  bytes : BitVec 512
  slice : Nat
  tenant : Nat
deriving DecidableEq, Repr

/-- States of a launch (R117). -/
inductive LaunchSt where
  | pending | running | retiring
deriving DecidableEq, Repr

/-- States of one thread group of a launch, by index. -/
inductive GroupSt where
  | unbound
  | bound (cl : Nat) (ctx : Nat)
  /-- Saved; the cluster it was bound to (R100). -/
  | saved (cl : Nat)
  | exited
deriving DecidableEq, Repr

/-- A fetched launch (R111 to R117). -/
structure Launch where
  /-- Its entry; entries are numbered in fetch order. -/
  id : Nat
  st : LaunchSt
  queue : Nat
  /-- LPRI, when PRI is 1 (R112). -/
  pri : Option Nat
  /-- The fields of the record (R112); the successors are those that are listed and not 0. -/
  cor : Bool
  npe : Bool
  handle : Nat
  kimage : Nat
  param : Nat
  savea : Nat
  gcount : Nat
  asid : Nat
  firstcl : Nat
  ncl : Nat
  tenant : Nat
  cbu : Option Nat
  succ : List Nat
  cookie : BitVec 64
  cpladdr : Nat
  cplvec : Nat
  /-- The image header (R79). -/
  dom : Nat
  entry : Nat
  metaoff : Nat
  lmoff : Nat
  lmcount : Nat
  carr : Nat
  ctile : Nat
  creg : Nat
  cgal : Nat
  savstride : Nat
  /-- The batching descriptor (R130): W, G, RBASE, RLOG, TAIL0. -/
  cbdesc : Option (Nat × Nat × Nat × Nat × Nat)
  counter : Int
  status : Nat
  /-- Groups not in the default state unbound, by index. -/
  groups : Sparse GroupSt
  /-- How many have been bound at least once (the lowest indices), and how many have exited. -/
  nbound : Nat
  nexited : Nat
  /-- Order of its last selection (R123). -/
  selOrd : Nat
  /-- Retirement: step reached, successors still to credit (R114). -/
  step : Nat
  credits : List Nat
  /-- Deferred faults kept for saved groups (R447). -/
  kept : List (Nat × Defer)
  /-- Of the galley sections of saved groups, by group and relative galley, the number of the free value under which the
  binding and the position stand in the record: R104 gives their bytes no layout (log 61). -/
  galleys : List (Nat × Nat × Nat)
  /-- Of the nests of saved groups, by group and relative plane, what R65 needs and the record does not hold: the nest as it
  stopped, and SEBn (log 93). -/
  nests : List (Nat × Nat × Nest × BitVec 48)
  /-- Modes of the saved regions, with group and relative region: a PLAIN region's section does not show its mode. -/
  modes : List (Nat × Nat × RegMode)
  /-- Faulted: since a cycle; groups still stopping (R474). -/
  faulted : Option Nat
  everRun : Bool
deriving DecidableEq, Repr

/-- A group that is asked to stop: its launch and context, the launch it makes room for (none: the forme die asks, for a
reset or a fault), and since when (R123, R475, R493). -/
structure StopReq where
  launch : Nat
  cl : Nat
  ctx : Nat
  by' : Option Nat
  since : Nat
deriving DecidableEq, Repr

/-- Resources that a victim freed, held for the launch that it made room for (R123). -/
structure Hold where
  launch : Nat
  cl : Nat
  ctx : Nat
  bnd : Binding
deriving DecidableEq, Repr

/-- A launch queue (R108, R109). -/
structure Queue where
  qbase : BitVec 64
  qctl : BitVec 32
  qtail : BitVec 32
  qhead : BitVec 32
deriving DecidableEq, Repr

/-- A constraint in a unit's window or groups (R134). -/
structure Constraint where
  cid : BitVec 32
  nb : Nat
  /-- BODY, 12 bytes. -/
  body : BitVec 96
  pay : BitVec 64
deriving DecidableEq, Repr

/-- A formed group (R137, R140, R143): members with (handed out, done). -/
structure CbGroup where
  gno : Nat
  isOpen : Bool
  members : List (Constraint × Bool × Bool)
deriving DecidableEq, Repr

/-- A request waiting for an answer of a unit, or a report not yet counted (R141, R143). -/
structure CbReq where
  access : Nat
  tag : Option (BitVec 32)
  /-- The cycle in which a request arrived at its unit (R141). -/
  arrived : Option Nat
deriving DecidableEq, Repr

/-- A conflict-batching unit (R129 to R144, R476). -/
structure CbUnit where
  launch : Option Nat
  win : Nat
  gmax : Nat
  rbase : Nat
  rlog : Nat
  tail : BitVec 32
  head : BitVec 32
  sealed : Bool
  window : List Constraint
  groups : List CbGroup
  gform : BitVec 32
  gopen : BitVec 32
  gret : BitVec 32
  cdone : BitVec 32
  cberr : BitVec 32
  held : List Nat
  takes : List CbReq
  dones : List CbReq
deriving DecidableEq, Repr

/-- A barrier instance of a launch (R96 to R99): level, unit, arrived members, first arrival, waiting completion. -/
structure Barrier where
  launch : Nat
  lvl : Nat
  unit : Nat
  line : Nat
  /-- The members by group index, ascending, and those that have arrived. -/
  members : List Nat
  arrived : List Nat
  since : Nat
  /-- The cycle at which every arrival was first seen high, plus one; 0 while one is low (R98, R99). -/
  high : Nat
  /-- Level 5: this module has reported completion; the completions received, with the members that each reports (R98,
  R386). -/
  sent : Bool
  recvd : List (Nat × Nat)
deriving DecidableEq, Repr

/-- An error record being kept pending for LOST (R462, R463): code, source, unit, handle, group, count, address,
detail. -/
structure ErrRec where
  code : Nat
  src : Nat
  unit : Nat
  handle : Nat
  group : Nat
  count : Nat
  addr : Nat
  detail : BitVec 192
deriving DecidableEq, Repr

/-- An entry of a memory chiplet's refusal log (R466): the requester, the address, the class and the reason. -/
structure RefRec where
  cl : Nat
  ctx : Nat
  handle : Nat
  group : Nat
  addr : Nat
  cls : Nat
  reason : Nat
deriving DecidableEq, Repr

/-- A measurement response (R429): the requester's nonce, the measurement blocks in order, and the signature. -/
structure Measured where
  nonce : Nat
  blocks : List (List Byte)
  sig : List Byte
deriving DecidableEq, Repr

/-- A DOE mailbox (R416): the words of the object being written and of the response to be read, and its error bit, as PCIe
defines them (log 97). -/
structure Mailbox where
  req : List (BitVec 32)
  rsp : List (BitVec 32)
  err : Bool
deriving DecidableEq, Repr

/-- Voltage column sensors and throttle of the module (R487 to R489). -/
structure Column where
  /-- The voted temperature, and that of the last voltage search, whose trims are stored (R425, R487). -/
  temp : Int
  trim : Int
deriving DecidableEq, Repr

/-- A firmware image (R426): a header of a magic value, the security version, the body's length and a signature, then the
body (log 14). -/
structure Image where
  magic : BitVec 32
  svn : BitVec 32
  len : BitVec 32
  sig : BitVec 512
  body : List Byte
deriving DecidableEq, Repr

/-- An image of zeros. -/
def Image.empty : Image := ⟨0, 0, 0, 0, []⟩

/-- The identity record in module flash (R430): the PUF's helper data, the identity public key and its certificate, the
ordering code, the degraded units, the factory trims, MINSVN, and the root key's signature (log 14). -/
structure IdRec where
  helper : List Byte
  pub : BitVec 256
  cert : List Byte
  order : List Byte
  degmap : BitVec 96
  trims : List Byte
  minsvn : BitVec 32
  sig : BitVec 512
deriving DecidableEq, Repr

/-- An empty mailbox. -/
def Mailbox.empty : Mailbox := ⟨[], [], false⟩

/-- A record of zeros. -/
def IdRec.empty : IdRec := ⟨[], 0, [], [], 0, [], 0, 0⟩

/-- The forme die (R12, R20, R108, R173, R422, R461). -/
structure Forme where
  queues : Sparse Queue
  launches : List Launch
  nextLaunch : Nat
  selOrd : Nat
  precredit : List (Nat × Int)
  heldCredits : List (Nat × Nat)
  /-- Queue last selected, by priority (R119); unlisted: 63. -/
  lastq : Sparse Nat
  reserve : Option Nat
  stops : List StopReq
  holds : List Hold
  units : Sparse CbUnit
  bars : List Barrier
  astbase : BitVec 64
  invaddr : BitVec 64
  invlen : BitVec 64
  invcmd : BitVec 32
  invbusy : Bool
  /-- The accesses an invalidation waits for. -/
  invwait : List Nat
  bbbase : BitVec 64
  bounce : List Bounce
  pager : List PagerReq
  /-- Bounce writes that wait for a free line: access, cycle of the last record (R467). -/
  bbWait : List (Nat × Nat)
  mstat : BitVec 32
  grant : BitVec 32
  slewlim : BitVec 32
  droopcnt : BitVec 32
  droopstl : BitVec 32
  /-- DEGMAP, 96 bits (R422). -/
  degmap : BitVec 96
  elbase : BitVec 64
  elhead : BitVec 32
  eltail : BitVec 32
  ellost : BitVec 32
  elvec : BitVec 16
  ellostPend : Bool
  /-- MSI-X: interrupts raised, masked entries and pending bits (R416, R420), entry number port·1024 + index. -/
  msixTable : Sparse (BitVec 128)
  msixPend : List Nat
  irqs : List Nat
  /-- Starts (R424, R425, R492): failed in a row, starts so far, stored training valid, memory kept. -/
  starting : Bool
  /-- 1 cold, 2 warm, 3 warm keeping memory. -/
  startKind : Nat
  failed : Nat
  starts : Nat
  trained : Bool
  coldNext : Bool
  /-- The stored training values, 16 bits for each slice (R20, R425); the firmware of the completed start that stored them
  and the trims, and the degraded units then (R425). -/
  training : BitVec 6144
  trainedBy : List Byte
  trainedDeg : List (Nat × Nat)
  /-- GiB of LPDDR-6 fitted to each channel; unlisted: 8 (R3). -/
  fitted : Sparse Nat
  /-- A link has lost two planes: no new launch until a start (R485). -/
  noLaunch : Bool
  /-- Memory chiplets in reset (R494). -/
  memDown : List Nat
  /-- Firmware slots and identity record of the flash (R426, R430): images as bytes; SVN accepted at the last start. -/
  slots : List Image
  recovery : Image
  idrec : IdRec
  /-- The root public key in the mask of the ROM (R426). -/
  rootKey : BitVec 256
  /-- The ROM's own identity, as it is measured (R428). -/
  romId : List Byte
  /-- The PUF's response as it is read (R430). -/
  puf : List Byte
  /-- The tenants that have a handler master image, in the order of loading, and what the images load into every slice: code
  and table (R20, R424, R428). -/
  handlerImages : List Nat
  masterCode : List Host.Cell
  masterTable : Sparse (BitVec 64)
  /-- Tenant descriptors (R207) and ranges (R208): tenant·4 + n, with base, limit, enable. -/
  tenants : Sparse (BitVec 64)
  ranges : Sparse (Nat × Nat × Bool)
  degraded : List (Nat × Nat)
  degPend : List (Nat × Nat)
  /-- Attestation log (R428) and the last measurement response (R429). -/
  attLog : List (Nat × List Byte)
  m : List Byte
  doe : Option Measured
  /-- The DOE mailbox of each port (R416), and the algorithms chosen of those offered: asymmetric, hash (R429). -/
  boxes : Sparse Mailbox
  spdmAlgs : BitVec 32 × BitVec 32
  /-- Refusal logs of the memory chiplets (R466). -/
  refusals : Sparse (List RefRec)
  /-- Firmware-reserved ranges (R466). -/
  reserved : List (Nat × Nat)
  /-- Corrected errors merged: period of 2^30 cycles and count, at 16 · unit + kind (R464). -/
  cecc : Sparse (Nat × Nat)
  modid : BitVec 12
  nmod : BitVec 13
  /-- The link by which messages to each module leave, 3 bits each (R379, R421). -/
  routes : BitVec 12288
  /-- BAR0 of each host port, as the host has set it (R416). -/
  bar0 : Sparse (BitVec 64)
  /-- Receive channels (R380): messages in arrival order; messages arriving. -/
  chans : Sparse (List SpanMsg)
  /-- Messages from other modules, each with an id. -/
  arriving : List (Nat × SpanMsg)
  spanUp : BitVec 8
  /-- HANDLEs of span launches that have retired (R386, R473). -/
  spanGone : List Nat
  /-- Link planes failed over, by stop·8 + plane·2 + direction: failures in a row (R485). -/
  links : Sparse Nat
  /-- Failover list. -/
  failover : List Nat
  temps : Sparse Column
  /-- The trimmed voltages of the columns as the last search found them, in mV, 16 bits for each column (R431). -/
  volts : BitVec 12288
  /-- Chiplets throttled (R489), halvings in force, since when current is low, IMON reported at. -/
  throttled : List Nat
  halvings : Nat
  /-- The rail current last taken, in amperes. -/
  railAmps : Nat
  lowSince : Option Nat
  imonAt : Option Nat
  /-- Debug hold (R490, R491): halted chiplets, since. -/
  haltedChips : List Nat
  holdSince : Option Nat
  /-- Outside answers: the last data a host read returned, and its poison. -/
  hostRead : Option (List Byte × Bool)
  /-- The POSTs, SENDs and replies in flight. -/
  posts : List PostReq
  sends : List SendReq
  replies : List Reply
  windows : List RedWin
  /-- OWED writes of saved groups in flight are marked in the accesses. Flags POSTed to saved groups are set in the
  saved record's flags (R277): launch, group, flag. -/
  savedFlags : List (Nat × Nat × FReg)
  /-- What owed copies of saved groups leave in CSTAT: launch, group, the bits kept, the bits set (R103, R348). -/
  savedCstat : List (Nat × Nat × BitVec 32 × BitVec 32)
  /-- Lines of device memory that a launch has reached by both aliases against R156: launch, linear line. What it reads
  there is undefined. -/
  broken : List (Nat × Nat)
  /-- Units of 4 bytes that ATOM or RED has reached, with the alias: linear address over 4, interleaved (R156). -/
  atoms : List (Nat × Bool)
  /-- Invalidations of granules that a home has asked for and that wait: cluster, granule (R164, R479). -/
  invals : List (Nat × Nat)
  /-- Access ids abandoned when their chiplet was reset: late responses (R22). -/
  late : List Nat
deriving DecidableEq, Repr

/-- Which bundle, context and slot is being issued. -/
structure Cur where
  cl : ClusterNo
  ctx : CtxNo
  slot : SlotNo
  bpc : Nat
  bmpc : Nat
  lit : BitVec 64
  /-- The bundle's number in its context (R248). -/
  bno : Nat
  /-- The M slot of the bundle is not a NOP: the MPC advances by 8 at its end (R255). -/
  mslot : Bool
  /-- The bundle is still to be completed: a trap or a wait inside it has not ended it. -/
  live : Bool
  /-- What has come of the slot last run. -/
  out : SlotEnd
deriving DecidableEq, Repr

/-- Whose move is next (log 1). -/
inductive Move where
  | act (i : Instr)
  /-- The handler core of a slice executes its next instruction. -/
  | hart (sl : Nat)
deriving DecidableEq, Repr

/-- The module. -/
structure State where
  /-- CYCLE (R376). -/
  cycle : Nat
  /-- Contexts, at 4 · cluster + context. -/
  ctxs : Sparse Ctx
  clusters : Sparse Cluster
  chips : Sparse ChipSt
  slices : Sparse Slice
  /-- LPDDR-6, by linear address (R153, R154); an unlisted byte reads as the first range of
  `memFill` that holds it says (low, high, fill), 0 where none does. -/
  mem : List Host.Cell
  memFill : List (Nat × Nat × Nat)
  /-- Poison marks: linear lines of device memory (R479). -/
  memPoison : List Nat
  /-- Poison marks of local 32-byte units: cluster, space, unit (R479). -/
  locPoison : List (Nat × Nat × Nat)
  /-- Host memory, by host physical address (R419). -/
  hostMem : List Host.Cell
  accs : List Access
  nextId : Nat
  forme : Forme
  /-- The model's own (log 1, log 4). -/
  free : Nat
  turn : Nat
  agenda : List Move
  cur : Cur
  slots : List Slot
  slotNos : List SlotNo
  /-- The slice whose handler core executes. -/
  hart : Nat
  /-- The banks and the results in flight of the issuing context as the bundle's sources read them (R248). -/
  snap : Banks
  snapPend : List Pend
  snapSys : Sys
deriving DecidableEq, Repr

/-! ## The state after reset

Everything the spec gives zero or empty is so (R20, R351, R376); INVENTORY.md names the log entry of every other. -/

def Store.zero : Store := ⟨0, []⟩

/-- The banks at zero (R20, R81). -/
def Banks.zero : Banks :=
  { s := [], v := [], k := [], a := [], l := [], p := 0, f := 0, z := [], hm := [], hmSh := [], n := [], nSh := [],
    hc := [], hcSh := [], slen := 0, seedb := 0, smode := 0, eref := 0, smarg := 0, svmrg := 0, sflg := 0, sqry := 0,
    fstat := 0, cstat := 0, tshape := [], dom := 0, lead := 0, leadpos := 0 }

/-- TRAPM and the counts at zero. -/
def Sys.zero : Sys := ⟨false, 0, []⟩

def Block.off : Block := ⟨false, 0, 0, 0, false, false⟩

/-- No launch bound (log 9). -/
def Binding.none : Binding :=
  { launch := 0, handle := 0, group := 0, gcount := 0, gen := 0, asid := 0, tenant := 0, image := 0, entry := 0,
    metaoff := 0, textEnd := 0, lmoff := 0, lmcount := 0, carr := 0, ctile := 0, creg := 0, cgal := 0, arr0 := 0,
    tile0 := 0, reg0 := 0, gal0 := 0, cbu := Option.none }

/-- A context after reset (R20, R126) (DESIGN CHOICE, log 9) (DEDUCED, log 85). -/
def Ctx.reset : Ctx :=
  { st := .free, haltFrom := .free, regs := Banks.zero, shadow := Banks.zero, nr := false, rpc := 0, rmpc := 0,
    lmidx := 0xFFFF, pc := 0, mpc := 0, br := Option.none, pend := [], blk := Block.off, blkNew := false,
    held := [], rest := [], restSnap := Option.none, tried := [], wait := .none,
    defer := [], lost := false, owed := [], bnd := Binding.none, trapm := false, tret := false, tvec := 0, erpc := 0, ermpc := 0,
    tcause := 0, tinfo := 0, egstall := 0, spout := 0, preempt := false, stopWait := false, stopNr0 := false, srsn := 0,
    nestsAt := Option.none, aside := [], bundle := 0, ord := 0, markId := 0, fset := 0, fsetAt := 0 }

def Region.reset : Region := ⟨.plain, Store.zero, Option.none, .none, [], []⟩

/-- A plane; until its first SGO or SCLR since binding its readout constants are those of EREF 0 and SMODE 0 (DESIGN CHOICE,
log 106). -/
def Plane.reset : Plane :=
  { tag := 0, acc := [], pstat := 0, seb := 0, eb := 0, leref := 0, lsmode := 0, lpass := 0, lq := 0, li := [],
    last := Option.none, nest := Option.none, stopped := false, queue := [] }

/-- A cluster after reset: context 0 is first in the order of R127 (log 9); EGRANT is the reset GRANT (R422, log 10). -/
def Cluster.reset : Cluster :=
  { last := 3, selAt := 0, tiles := [], regions := [], stashReqs := [], planes := [], galleys := [], copies := [],
    rsb := [], tlb := [], win := 0, u := 0, nestU := 0, al := 0, dd := 0, eheld := false, estall := false, first := true,
    egrant := 0xFFFF, rplcnt := 0, duty := [], droop := false }

/-- A slice after reset: every line and fill invalid, no handlers (R209, R424). -/
def Slice.reset : Slice :=
  { lines := [], fills := [], dir := [], code := [], data := Store.zero, table := [], events := [],
    run := Option.none, seqn := 0, cnt := [], held := [], down := false, train := 0 }

def Queue.reset : Queue := ⟨0, 0, 0, 0⟩

def CbUnit.reset : CbUnit :=
  { launch := Option.none, win := 0, gmax := 0, rbase := 0, rlog := 0, tail := 0, head := 0, sealed := false,
    window := [], groups := [], gform := 0, gopen := 0, gret := 0, cdone := 0, cberr := 0, held := [], takes := [],
    dones := [] }

/-- The forme die before its first start (R108, R173, R422, R461; log 10, log 14) (DESIGN CHOICE, log 82). -/
def Forme.reset : Forme :=
  { queues := [], launches := [], nextLaunch := 1, selOrd := 0, precredit := [], heldCredits := [], lastq := [],
    reserve := Option.none, stops := [], holds := [], units := [], bars := [], astbase := 0, invaddr := 0, invlen := 0, invcmd := 0,
    invbusy := false, invwait := [], bbbase := 0, bounce := [], pager := [], bbWait := [], mstat := 0, grant := 65535,
    slewlim := 1200, droopcnt := 0, droopstl := 0, degmap := 0, elbase := 0, elhead := 0, eltail := 0, ellost := 0,
    elvec := 0, ellostPend := false, msixTable := [], msixPend := [], irqs := [], starting := true, startKind := 1, failed := 0,
    starts := 0, trained := false, coldNext := false, training := 0, trainedBy := [], trainedDeg := [], fitted := [],
    noLaunch := false, memDown := [],
    slots := [Image.empty, Image.empty], recovery := Image.empty, idrec := IdRec.empty, rootKey := Config.rootKey,
    romId := [], puf := [], handlerImages := [], masterCode := [], masterTable := [], tenants := [], ranges := [], degraded := [],
    degPend := [], attLog := [], m := List.replicate 64 0, doe := Option.none, boxes := [], spdmAlgs := (0, 0),
    refusals := [], reserved := [], cecc := [],
    modid := 0, nmod := 1, routes := 0, bar0 := [], chans := [], arriving := [], spanUp := 0xFF, spanGone := [], links := [],
    failover := [], temps := [], volts := 0, throttled := [], halvings := 0, railAmps := 0, lowSince := Option.none, imonAt := Option.none,
    haltedChips := [], holdSince := Option.none, hostRead := Option.none, posts := [], sends := [],
    replies := [], windows := [], savedFlags := [], savedCstat := [], broken := [], atoms := [], invals := [], late := [] }

/-- The module right after reset: rails about to come up (R423, R424), every context FREE, memory with nothing listed
(log 3) (DESIGN CHOICE, log 86). -/
def State.reset : State :=
  { cycle := 0, ctxs := [], clusters := [], chips := [], slices := [], mem := [], memFill := [], memPoison := [],
    locPoison := [], hostMem := [], accs := [], nextId := 0, forme := Forme.reset, free := 0, turn := 0, agenda := [],
    cur := ⟨0, 0, .y, 0, 0, 0, 0, false, false, .ran⟩, slots := [], slotNos := [], hart := 0, snap := Banks.zero,
    snapPend := [], snapSys := Sys.zero }

end Sys2Proof.Machine
end

