-- ==== Sys2Proof/Machine/Sparse.lean ====
section
/-!
DEFINITION. Finite maps from Nat with a default: reading, writing, and the canonical form (keys strictly rising, no entry
equal to the default of its key).
-/
namespace Sys2Proof.Machine

variable {α : Type}

/-- The value at a key; `d` where nothing is listed. -/
def sget (d : α) : Sparse α → Nat → α
  | [], _ => d
  | (i, x) :: m, k => if i = k then x else sget d m k

/-- The entries of the other keys. -/
def serase (m : Sparse α) (k : Nat) : Sparse α := m.filter fun e => e.1 != k

/-- Insert an entry before the first greater key. -/
def sinsert : Sparse α → Nat → α → Sparse α
  | [], k, v => [(k, v)]
  | (i, x) :: m, k, v => if k < i then (k, v) :: (i, x) :: m else (i, x) :: sinsert m k v

/-- Set a key; the default value lists nothing. -/
def sset [DecidableEq α] (d : α) (m : Sparse α) (k : Nat) (v : α) : Sparse α :=
  if v = d then serase m k else sinsert (serase m k) k v

/-- The canonical form, with the default of each key. -/
abbrev Sparse.wf [DecidableEq α] (d : Nat → α) (m : Sparse α) : Prop :=
  m.Pairwise (fun a b => a.1 < b.1) ∧ ∀ e ∈ m, e.2 ≠ d e.1

end Sys2Proof.Machine
end

