-- ==== Sys2Proof/Machine/Bits.lean ====
section
/-!
DEFINITION. Bit fields, byte order (R8), and the elements of vector registers (R42).
-/
namespace Sys2Proof.Machine

/-- Bits [lo + n − 1 : lo] of a number. -/
def bitsAt (x lo n : Nat) : Nat := x / 2 ^ lo % 2 ^ n

/-- Bit i of a number. -/
def bitAt (x i : Nat) : Bool := x / 2 ^ i % 2 == 1

/-- A bit field of a bit vector replaced. -/
def setField {w : Nat} (x : BitVec w) (lo n v : Nat) : BitVec w :=
  .ofNat w (x.toNat - bitsAt x.toNat lo n * 2 ^ lo + v % 2 ^ n * 2 ^ lo)

/-- Set or clear bit i. -/
def setBit {w : Nat} (x : BitVec w) (i : Nat) (b : Bool) : BitVec w := setField x i 1 b.toNat

/-- n bytes of a number, byte 0 first (R8). -/
def toBytes : Nat → Nat → List Byte
  | 0, _ => []
  | n + 1, x => .ofNat 8 x :: toBytes n (x / 256)

/-- The number whose bytes are these, byte 0 first (R8). -/
def ofBytes : List Byte → Nat
  | [] => 0
  | b :: bs => b.toNat + 256 * ofBytes bs

/-- Signed value of an n-bit number. -/
def toSigned (n x : Nat) : Int := if x < 2 ^ (n - 1) then x else (x : Int) - 2 ^ n

/-- An integer modulo 2^w, as bits. -/
def wrap (w : Nat) (x : Int) : BitVec w := .ofInt w x

/-- Element e of width w of a vector register (R42). -/
def elemAt (w : Nat) (x : VWord) (e : Nat) : BitVec w := .ofNat w (x.toNat / 2 ^ (w * e))

/-- The number with elements f 0, f 1, … f (n − 1) of width w. -/
def joinElems (w : Nat) (f : Nat → Nat) : Nat → Nat
  | 0 => 0
  | n + 1 => joinElems w f n + f n % 2 ^ w * 2 ^ (w * n)

/-- The vector register whose elements of width w are f 0, f 1, … (R42). -/
def ofElems (w : Nat) (f : Nat → BitVec w) : VWord := .ofNat 1024 (joinElems w (fun e => (f e).toNat) (1024 / w))

/-- Byte i of a vector register. -/
def vbyte (x : VWord) (i : Nat) : Byte := elemAt 8 x i

/-- The bytes of a vector register. -/
def vbytes (x : VWord) : List Byte := toBytes 128 x.toNat

/-- Address arithmetic modulo 2^64. -/
def addr64 (base : Nat) (off : Int) : Nat := (((base : Int) + off) % 2 ^ 64).toNat

/-- Population count of the low n bits. -/
def popCount (x : Nat) : Nat → Nat
  | 0 => 0
  | n + 1 => popCount x n + x / 2 ^ n % 2

/-- Leading zero bits of an n-bit number. -/
def leadZeros (x : Nat) : Nat → Nat
  | 0 => 0
  | n + 1 => if x / 2 ^ n % 2 = 1 then 0 else 1 + leadZeros x n

/-- Trailing zero bits of an n-bit number whose bits from i upward remain to be seen. -/
def trailZeros (x : Nat) : Nat → Nat → Nat
  | 0, _ => 0
  | n + 1, i => if x / 2 ^ i % 2 = 1 then 0 else 1 + trailZeros x n (i + 1)

/-- The first number below n, from i upward, that satisfies p. -/
def findFrom (p : Nat → Bool) : Nat → Nat → Option Nat
  | 0, _ => none
  | n + 1, i => if p i then some i else findFrom p n (i + 1)

/-- The list without its first element that satisfies p. -/
def eraseFirst {α : Type} (p : α → Bool) : List α → List α
  | [] => []
  | x :: xs => if p x then xs else x :: eraseFirst p xs

/-- Replace the elements that satisfy p. -/
def mapIf {α : Type} (p : α → Bool) (f : α → α) (xs : List α) : List α := xs.map fun x => if p x then f x else x

end Sys2Proof.Machine
end

