-- ==== Sys2Proof/Machine/Flags.lean ====
section
/-!
DEFINITION. Status flags (R38, R348, R358), conditions (R262), summaries (R247, R268, R297), and the narrowing of an
exact integer result with its flag (R27).
-/
namespace Sys2Proof.Machine

/-- A set of FSTAT flags (R38). CSTAT's and SFLG's flags stand at the same bits (R348, R358). -/
abbrev Flags := BitVec 32

def flagNV : Flags := 0x01
def flagDZ : Flags := 0x02
def flagOF : Flags := 0x04
def flagUF : Flags := 0x08
def flagNX : Flags := 0x10
def flagSI : Flags := 0x20
def flagSC : Flags := 0x40
def flagND : Flags := 0x80

/-- A flag when a condition holds. -/
def flagIf (b : Bool) (f : Flags) : Flags := if b then f else 0

/-- The conditions of R262 on n-bit values. -/
def condHolds (c : Cond) (n a b : Nat) : Bool :=
  match c with
  | .eq => a == b
  | .ne => a != b
  | .lt => toSigned n a < toSigned n b
  | .ge => toSigned n b ≤ toSigned n a
  | .ltn => a < b
  | .gen => b ≤ a
  | .tst => a &&& b != 0
  | .ntst => a &&& b == 0

/-- A summary: [8] ANY, [7] ALL, [6] NONE, [5:0] COUNT (R247), from which lanes are active and which test true (R297). -/
def summaryOf (active true' : Nat → Bool) : BitVec 9 :=
  let on := (List.range 32).filter active
  let yes := on.filter true'
  .ofNat 9 ((!yes.isEmpty).toNat * 256 + (yes.length == on.length).toNat * 128 + yes.isEmpty.toNat * 64 + yes.length)

/-- The summary tests (R268). -/
def sumHolds (t : SumTest) (z : BitVec 9) : Bool :=
  match t with
  | .any => z.getLsbD 8
  | .all => z.getLsbD 7
  | .none => z.getLsbD 6
  | .nall => !z.getLsbD 7

/-- The least and the greatest value of an integer format (R26). -/
def intMin (w : Nat) (nat : Bool) : Int := if nat then 0 else -(2 : Int) ^ (w - 1)
def intMax (w : Nat) (nat : Bool) : Int := if nat then 2 ^ w - 1 else 2 ^ (w - 1) - 1

/-- Clamp to a format; the flag tells whether it clamped (R27). -/
def saturate (w : Nat) (nat : Bool) (x : Int) : Int × Bool :=
  if x < intMin w nat then (intMin w nat, true)
  else if intMax w nat < x then (intMax w nat, true)
  else (x, false)

/-- Narrow an exact result: wrap, or saturate and set SI (R27). -/
def narrow (w : Nat) (nat sat : Bool) (x : Int) : BitVec w × Flags :=
  if sat then (wrap w (saturate w nat x).1, flagIf (saturate w nat x).2 flagSI) else (wrap w x, 0)

/-- The value of an n-bit element taken as natural or signed. -/
def intVal (w : Nat) (nat : Bool) (x : Nat) : Int := if nat then x else toSigned w x

end Sys2Proof.Machine
end

