-- ==== Sys2Proof/Machine/Ops.lean ====
section
/-!
DEFINITION. The named operations over the state: its parts, free values, the registers as a bundle's slots read and
write them (R244 to R250), flags, and taking a trap and returning from one (R283, R439 to R443).
-/
namespace Sys2Proof.Machine

/-- The outcome of a meaning. -/
abbrev Out := Host.Outcome State Fault Refusal

/-! ## Parts of the state -/

/-- Context c of cluster k. -/
def State.ctx (s : State) (k c : Nat) : Ctx := sget Ctx.reset s.ctxs (4 * k + c)
def State.setCtx (s : State) (k c : Nat) (x : Ctx) : State := { s with ctxs := sset Ctx.reset s.ctxs (4 * k + c) x }
def State.modCtx (s : State) (k c : Nat) (f : Ctx → Ctx) : State := s.setCtx k c (f (s.ctx k c))

def State.cluster (s : State) (k : Nat) : Cluster := sget Cluster.reset s.clusters k
def State.setCluster (s : State) (k : Nat) (x : Cluster) : State :=
  { s with clusters := sset Cluster.reset s.clusters k x }
def State.modCluster (s : State) (k : Nat) (f : Cluster → Cluster) : State := s.setCluster k (f (s.cluster k))

/-- Stream chiplets of the form: 80 on a VLN-C80-M, whose identity record names sixteen as degraded in DEGMAP, else 96 (R1,
R2, R422; the form at reset is log 17). -/
def State.nchips (s : State) : Nat := if s.forme.degmap = 0 then 96 else 80

/-- Clusters of the form: four for each stream chiplet (R23). -/
def State.nclus (s : State) : Nat := 4 * s.nchips

/-- The stop of a stream chiplet on its arc: the enabled chiplets of an arc are numbered in ascending order of physical stop, from
stop 1 on (R2, R13, R422). -/
def State.arcStop (s : State) (x : Nat) : Nat :=
  let per := s.nchips / 8
  ((List.range 12).filter fun i => !s.forme.degmap.getLsbD (12 * (x / per) + i)).getD (x % per) 0 + 1

def State.chip (s : State) (x : Nat) : ChipSt := sget .on s.chips x
def State.setChip (s : State) (x : Nat) (v : ChipSt) : State := { s with chips := sset .on s.chips x v }

def State.slice (s : State) (n : Nat) : Slice := sget Slice.reset s.slices n
def State.setSlice (s : State) (n : Nat) (x : Slice) : State := { s with slices := sset Slice.reset s.slices n x }
def State.modSlice (s : State) (n : Nat) (f : Slice → Slice) : State := s.setSlice n (f (s.slice n))

def State.modForme (s : State) (f : Forme → Forme) : State := { s with forme := f s.forme }

/-- The context and the cluster of the bundle being issued. -/
def State.me (s : State) : Ctx := s.ctx s.cur.cl.toNat s.cur.ctx.toNat
def State.modMe (s : State) (f : Ctx → Ctx) : State := s.modCtx s.cur.cl.toNat s.cur.ctx.toNat f
def State.cc (s : State) : Cluster := s.cluster s.cur.cl.toNat
def State.modCc (s : State) (f : Cluster → Cluster) : State := s.modCluster s.cur.cl.toNat f

/-- Key of a context. -/
def State.key (s : State) : Nat := 4 * s.cur.cl.toNat + s.cur.ctx.toNat

/-- The time as the timers of R491 count it: it stands still during a debug hold. -/
def State.timer (s : State) : Nat := s.forme.holdSince.getD s.cycle

/-- Moves that follow at once (log 1). -/
def State.soon (s : State) (ms : List Instr) : State := { s with agenda := ms.map .act ++ s.agenda }

/-- Replace the accesses that satisfy p. -/
def State.modAccs (s : State) (p : Access → Bool) (f : Access → Access) : State := { s with accs := mapIf p f s.accs }

/-- The access with an id. -/
def State.acc? (s : State) (id : Nat) : Option Access := s.accs.find? fun a => a.id == id

/-- The launch with an entry number (binding numbers are one more). -/
def State.launch? (s : State) (id : Nat) : Option Launch := s.forme.launches.find? fun l => l.id == id
def State.modLaunch (s : State) (id : Nat) (f : Launch → Launch) : State :=
  s.modForme fun m => { m with launches := mapIf (fun l => l.id == id) f m.launches }

/-- A conflict-batching unit. -/
def State.unit (s : State) (u : Nat) : CbUnit := sget CbUnit.reset s.forme.units u
def State.modUnit (s : State) (u : Nat) (f : CbUnit → CbUnit) : State :=
  s.modForme fun m => { m with units := sset CbUnit.reset m.units u (f (s.unit u)) }

/-- An event names a unit the form does not have. -/
def noUnit : Out := .fault .noSuchUnit

/-! ## Free values (R6, log 4) -/

/-- A free value of w bits, and the machine with its counter advanced. -/
def State.freshBits (s : State) (w : Nat) : BitVec w × State :=
  (Config.freeBits w s.free, { s with free := s.free + 1 })

/-- A store whose contents are undefined. -/
def State.freshStore (s : State) : Store × State := (⟨s.free + 1, []⟩, { s with free := s.free + 1 })

/-- A new id (tag of a result, an access, a copy) (DESIGN CHOICE, log 86). -/
def State.freshId (s : State) : Nat × State := (s.nextId, { s with nextId := s.nextId + 1 })

/-- Flits held in a receive channel (R376, R380). -/
def State.spocc (s : State) (ch : Nat) : Nat :=
  (sget [] s.forme.chans ch).foldl (fun n m => n + m.bytes.length / 128) 0

/-- What the control registers beside the banks read now (R378). -/
def State.sysNow (s : State) (k c : Nat) : Sys := ⟨(s.ctx k c).trapm, (s.ctx k c).spout, (List.range 16).map s.spocc⟩

/-! ## Control registers held by the context (R376, R377) -/

/-- A write that reserved bits ignore (R9): they keep the old value. -/
def keepBits (res old v : Word) : Word := (v &&& ~~~res) ||| (old &&& res)

/-- A write of a control register by MTC, as it lands: the low bits, W1C bits cleared, read-only and reserved fields
kept (R9, R377). Writes the map forbids never reach here (R377 traps them at issue). -/
def Ctx.writeCreg (x : Ctx) (r : Nat) (v : Word) : Ctx :=
  let n := v.toNat
  if r = 0x010 then { x with regs := { x.regs with fstat := x.regs.fstat &&& ~~~(BitVec.ofNat 32 (n % 256)) } }
  else if r = 0x011 then { x with regs := { x.regs with cstat := x.regs.cstat &&& ~~~(BitVec.ofNat 32 n &&& 0xBD) } }
  else if r = 0x012 then { x with regs := { x.regs with sflg := x.regs.sflg &&& ~~~(BitVec.ofNat 32 n &&& 0x1C) } }
  else if r = 0x021 then { x with regs := { x.regs with lead := .ofNat 7 n } }
  else if r = 0x041 then { x with tvec := (v &&& ~~~(0x38 : Word)) }
  else if r = 0x042 then { x with erpc := v }
  else if r = 0x043 then { x with ermpc := v }
  else if r = 0x080 then
    if 6 ≤ n % 32 ∧ n % 32 ≤ 16 then { x with regs := { x.regs with slen := .ofNat 5 n } } else x
  else if r = 0x081 then { x with regs := { x.regs with seedb := .ofNat 32 n } }
  else if r = 0x082 then { x with regs := { x.regs with smode := .ofNat 10 n &&& 0x3F8 } }
  else if r = 0x083 then { x with regs := { x.regs with eref := .ofNat 10 n } }
  else if r = 0x084 then { x with regs := { x.regs with smarg := .ofNat 28 n } }
  else if r = 0x085 then { x with regs := { x.regs with svmrg := .ofNat 11 n } }
  else if 0x088 ≤ r ∧ r ≤ 0x08B then
    { x with regs := { x.regs with hmSh := sset 0 x.regs.hmSh (r - 0x088) (keepBits 0x3FFFF (sget 0 x.regs.hmSh (r - 0x088)) v) } }
  else if 0x090 ≤ r ∧ r ≤ 0x095 then
    { x with regs := { x.regs with nSh := sset 0 x.regs.nSh (r - 0x090) (keepBits 0xFFE (sget 0 x.regs.nSh (r - 0x090)) v) } }
  else if 0x0A0 ≤ r ∧ r ≤ 0x0BF then
    let mask : Word := if r % 8 = 2 then 0x003FFFFFFFFFFFFF else if r % 8 = 6 then 0x3FFF else BitVec.allOnes 64
    { x with regs := { x.regs with hcSh := sset 0 x.regs.hcSh (r - 0x0A0) (keepBits (~~~mask) (sget 0 x.regs.hcSh (r - 0x0A0)) v) } }
  else if 0x0C0 ≤ r ∧ r ≤ 0x0DF then
    { x with regs := { x.regs with tshape := sset 0 x.regs.tshape (r - 0x0C0) (.ofNat 32 n &&& 0xF03FFFFF) } }
  else x

/-! ## Results in flight (R248, R249) -/

/-- A result lands in the context. A push lands in its galley (Operands.lean). -/
def Ctx.land (x : Ctx) (p : Pend) : Ctx :=
  match p.dst with
  | .s n => { x with regs := { x.regs with s := sset ⟨0, false⟩ x.regs.s n.toNat ⟨p.val.setWidth 64, p.psn⟩ } }
  | .v n => { x with regs := { x.regs with v := sset ⟨0, false⟩ x.regs.v n.toNat ⟨p.val, p.psn⟩ } }
  | .a n => { x with regs := { x.regs with a := sset 0 x.regs.a n.toNat (p.val.setWidth 64) } }
  | .k n => { x with regs := { x.regs with k := sset 0 x.regs.k n.toNat (p.val.setWidth 32) } }
  | .z n => { x with regs := { x.regs with z := sset 0 x.regs.z n.toNat (p.val.setWidth 9) } }
  | .l n => { x with regs := { x.regs with l := sset 0 x.regs.l n.toNat (p.val.setWidth 64) } }
  | .fstat => { x with regs := { x.regs with fstat := x.regs.fstat ||| p.val.setWidth 32 } }
  | .creg n => x.writeCreg n.toNat (p.val.setWidth 64)
  | .leadpos => { x with regs := { x.regs with leadpos := p.val.setWidth 11 } }
  | .push _ => x

/-- Is a result a control-register write? Of those that land together, a clear comes before a set (R39, R377). -/
def Pend.isCreg (p : Pend) : Bool :=
  match p.dst with
  | .creg _ => true
  | _ => false

/-- Has a result passed its bound at bundle b? -/
def Pend.passed (p : Pend) (b : Nat) : Bool :=
  match p.due with
  | some d => p.ready && d ≤ b
  | none => false

/-- A result as it lands: one that another has overtaken is undefined then (R249). Until then a read sees the old value or
its own (R6, R248). -/
def Pend.final (p : Pend) : Pend :=
  match p.undef with
  | some n => { p with val := Config.freeBits 1024 n }
  | none => p

/-- Land the results that satisfy q; the others stay in flight. -/
def Ctx.landIf (x : Ctx) (q : Pend → Bool) : Ctx :=
  let ps := (x.pend.filter q).map Pend.final
  let y := (ps.filter Pend.isCreg ++ ps.filter fun p => !p.isCreg).foldl Ctx.land x
  { y with pend := x.pend.filter fun p => !q p }

/-- The context as the slot being issued reads it: its registers at issue, with every result in flight that the slot
already sees (R248, log 5). -/
def State.view (s : State) : Ctx :=
  (s.snapPend.filter fun p => p.ready && p.dst != .leadpos && Config.seesNew p.tag s.cur.bno s.cur.slot.index).foldl Ctx.land
    { s.me with regs := s.snap }

/-! ## Reading registers (R244 to R248) -/

def State.rdS (s : State) (n : SReg) : SVal := sget ⟨0, false⟩ s.view.regs.s n.toNat
def State.rdV (s : State) (n : VReg) : VVal := sget ⟨0, false⟩ s.view.regs.v n.toNat
def State.rdA (s : State) (n : AReg) : Word := sget 0 s.view.regs.a n.toNat
def State.rdK (s : State) (n : KReg) : BitVec 32 := sget 0 s.view.regs.k n.toNat
def State.rdL (s : State) (n : LReg) : Word := sget 0 s.view.regs.l n.toNat
def State.rdZ (s : State) (n : ZReg) : BitVec 9 := sget 0 s.view.regs.z n.toNat
/-- p0 reads 1 (R247). -/
def State.rdP (s : State) (n : PReg) : Bool := n == 0 || s.view.regs.p.getLsbD n.toNat
/-- A flag is read as it stands: other agents set flags (R86). -/
def State.rdF (s : State) (n : FReg) : Bool := s.me.regs.f.getLsbD n.toNat
/-- The shape of a relative tile (R167). -/
def State.rdShape (s : State) (t : Nat) : BitVec 32 := sget 0 s.view.regs.tshape t

/-! ## Writing registers -/

/-- A later result whose bound ends first leaves the value undefined once the earlier one lands (R249) (DEDUCED, log 35). -/
def Pend.scramble (d : Dst) (due n : Nat) (p : Pend) : Pend :=
  if p.dst = d ∧ due ≤ p.due.getD due then { p with undef := some n } else p

def State.scramble (s : State) (d : Dst) (due : Nat) : State :=
  { s.modMe fun x => { x with pend := x.pend.map (Pend.scramble d due s.free) } with free := s.free + 1 }

/-- Is an older result to this register in flight? -/
def State.inFlight (s : State) (d : Dst) : Bool := s.me.pend.any fun p => p.dst = d

/-- The older results to registers that an exchange of bound 1 writes (R249, R335, R354). -/
def State.scrambleAll (s : State) (ds : List Dst) : State :=
  ds.foldl (fun s d => if s.inFlight d then s.scramble d (s.cur.bno + 1) else s) s

/-- Has an older result to this register the same bound? Neither lands last, so that the value is undefined (R249)
(DEDUCED, log 35). -/
def State.tied (s : State) (d : Dst) (due : Nat) : Bool := s.me.pend.any fun p => p.dst = d && p.due = some due

/-- A result of the slot being issued, with its latency bound. A bound of 1 is written at once: the slots of its own
bundle read the copy taken at issue (R248). A poisoned result has an undefined value (R246) (DEDUCED, log 34). -/
def State.put (s : State) (d : Dst) (v : VWord) (psn : Bool) (bound : Nat) : State :=
  let due := s.cur.bno + bound
  let v' := if psn then Config.freeBits 1024 s.free else v
  let s1 := if psn then { s with free := s.free + 1 } else s
  let s2 := if s1.inFlight d then s1.scramble d due else s1
  let p : Pend := ⟨s2.nextId, d, v', psn, some due, true, 0, if s.tied d due then some s1.free else none⟩
  if bound ≤ 1 then s2.modMe fun x => x.land p
  else { s2.modMe fun x => { x with pend := x.pend ++ [p] } with nextId := s2.nextId + 1 }

def State.putS (s : State) (n : SReg) (v : Word) (psn : Bool) (bound : Nat) : State :=
  s.put (.s n) (v.setWidth 1024) psn bound
def State.putA (s : State) (n : AReg) (v : Word) (bound : Nat) : State := s.put (.a n) (v.setWidth 1024) false bound
def State.putK (s : State) (n : KReg) (v : BitVec 32) (bound : Nat) : State :=
  s.put (.k n) (v.setWidth 1024) false bound
def State.putZ (s : State) (n : ZReg) (v : BitVec 9) (bound : Nat) : State := s.put (.z n) (v.setWidth 1024) false bound

/-- Flags of a vector instruction, visible under its bound, and ORed with those of other instructions (R39). A flag still in
flight lands after an MTC that clears its bit and whose bound ends before (DESIGN CHOICE, log 105). -/
def State.putFlags (s : State) (f : BitVec 32) (bound : Nat) : State :=
  if f = 0 then s
  else
    { s.modMe fun x =>
        { x with pend := x.pend ++
            [⟨s.nextId, .fstat, f.setWidth 1024, false, some (s.cur.bno + bound), true, 0, none⟩] } with
      nextId := s.nextId + 1 }

/-- A predicate, with bound 1; writes to p0 are ignored (R247). -/
def State.putP (s : State) (n : PReg) (b : Bool) : State :=
  if n = 0 then s else s.modMe fun x => { x with regs := { x.regs with p := setBit x.regs.p n.toNat b } }

/-- A predicate computed from a poisoned source is undefined (R260). -/
def State.putPoisonP (s : State) (n : PReg) : State :=
  { s.putP n (Config.freeBits 1 s.free == 1) with free := s.free + 1 }

/-- An l register, with bound 1. -/
def State.putL (s : State) (n : LReg) (v : Word) : State := s.put (.l n) (v.setWidth 1024) false 1

/-- A flag written in a cycle: a set and a clear that meet in one cycle leave 1 (R86). -/
def Ctx.putFlag (x : Ctx) (cycle f : Nat) (b : Bool) : Ctx :=
  let now := if x.fsetAt = cycle + 1 then x.fset else 0
  if b then { x with regs := { x.regs with f := setBit x.regs.f f true }, fset := setBit now f true, fsetAt := cycle + 1 }
  else { x with regs := { x.regs with f := setBit x.regs.f f (now.getLsbD f) } }

/-- A flag of context c of cluster k (R86). -/
def State.setFlag (s : State) (k c f : Nat) (b : Bool) : State := s.modCtx k c fun x => x.putFlag s.cycle f b

/-! ## Traps (R439 to R443) -/

/-- TCAUSE as R376 lays it out. -/
def tcauseOf (slot : Option SlotNo) (lost : Bool) (cause : Nat) : BitVec 32 :=
  .ofNat 32 ((slot.map SlotNo.index).getD 0 * 2 ^ 29 + lost.toNat * 2 ^ 28 + cause)

/-- TINFO of R441: BIDX of the bundle charged, and the detail. -/
def tinfoOf (bpc detail : Nat) : BitVec 64 := .ofNat 64 (bpc / 64 % 2 ^ 24 * 2 ^ 40 + detail % 2 ^ 40)

/-- The bundle in issue ends here: nothing of it follows. -/
def State.endBundle (s : State) : State := { s with slots := [], slotNos := [], cur := { s.cur with live := false } }

/-- Is a deferred-fault entry a BOVR? -/
def Defer.isBovr (d : Defer) : Bool := bitsAt d.tcause.toNat 0 16 == 0x18

/-- TINFO of an entry when it is taken: the BOVR of the block still running, the newest recorded, reports the block's
count as it stands (R441). -/
def Ctx.deferInfo (x : Ctx) (d : Defer) : BitVec 64 :=
  if x.blk.noted && d.isBovr && x.defer.all (fun e => !e.isBovr || e.ord ≤ d.ord) then
    setField d.tinfo 16 16 (min x.blk.count 65535)
  else d.tinfo

/-- The current block ends: a BOVR that it recorded keeps its last count (R85, R441). -/
def Ctx.endBlock (x : Ctx) : Ctx :=
  { x with defer := x.defer.map fun d => { d with tinfo := x.deferInfo d }, blk := Block.off }

/-- A rollback to the last mark (R93, R443): the banks are those of the shadow, every result in flight is discarded, and
the held writes with it; the block's count is kept when the block began before the mark (R85) (DEDUCED, log 11)
(DEDUCED, log 18). -/
def Ctx.rollback (x : Ctx) : Ctx :=
  { (if x.blkNew then x.endBlock else x) with
    regs := x.shadow, pc := x.rpc, mpc := x.rmpc, br := none, pend := [], held := [], rest := [],
    restSnap := none, tried := [], wait := .none, st := .ready,
    blkNew := false, aside := [] }

/-- Is an access of context c of cluster k still held in its gated store buffer? -/
def Access.heldBy (k c : Nat) (a : Access) : Bool := a.cl == k && a.ctx == c && a.st == .held

/-- The rollback of context c of cluster k: the ordering points since the mark go with the held writes; one that precedes
the mark stands (R93, R188). -/
def State.rollback (s : State) (k c : Nat) : State :=
  { s.modCtx k c Ctx.rollback with
    accs := s.accs.filter fun a =>
      !(a.heldBy k c || (a.op == .fence && a.cl == k && a.ctx == c && decide ((s.ctx k c).markId ≤ a.id))) }

/-- A group ends with an unrestartable fault: its record is to be written with SRSN 2, and its launch ends with FAULT
(R443, R474) (DEDUCED, log 77). -/
def State.unrestartable (s : State) (k c : Nat) (tc : BitVec 32) (ti : BitVec 64) : State :=
  (s.modCtx k c fun x => 
    { x with st := .saving, wait := .none, srsn := 2, stopWait := false, stopNr0 := !x.nr, tcause := tc, tinfo := ti }).soon
    [.launchFault ((s.ctx k c).bnd.launch - 1), .saveRecordWritten (.ofNat 9 k) (.ofNat 2 c)]

/-- Bytes [5:0] of TVEC are controls; the handler's bundle offset and literal index (R442). -/
def Ctx.handlerPc (x : Ctx) : Nat := bitsAt x.tvec.toNat 6 34 * 64
def Ctx.handlerMpc (x : Ctx) : Nat := x.bnd.metaoff + 8 * bitsAt x.tvec.toNat 40 24

/-- The delivery of a trap to context c of cluster k (R443). `pager` is the pager's request when it resolves the
cause (R448). -/
def State.deliver (s : State) (k c : Nat) (tc : BitVec 32) (ti : BitVec 64) (pager : Option Nat) : State :=
  let x := s.ctx k c
  if x.nr then s.endBundle.unrestartable k c tc ti
  else
    let s1 := s.endBundle.rollback k c
    match pager with
    | some id => s1.modCtx k c fun y => { y with st := .blocked, wait := .pager id tc ti }
    | none =>
      if x.trapm || x.handlerPc = 0 || x.handlerPc < x.bnd.entry || x.bnd.textEnd ≤ x.handlerPc then s1.unrestartable k c tc ti
      else s1.modCtx k c fun y =>
        { y with erpc := .ofNat 64 y.rpc, ermpc := .ofNat 64 y.rmpc, tcause := tc, tinfo := ti, trapm := true,
                 pc := y.handlerPc, mpc := y.handlerMpc }

/-- A context of a halted chiplet that would run again stays halted, to go on from there at release (R490). -/
def State.keepHalted (s : State) (k c : Nat) : State :=
  if s.forme.haltedChips.contains (k / 4) then
    s.modCtx k c fun x => if x.st = .ready ∨ x.st = .blocked then { x with st := .halted, haltFrom := x.st } else x
  else s

/-- Note what has come of the slot in issue. -/
def State.ends (s : State) (e : SlotEnd) : State := { s with cur := { s.cur with out := e } }

/-- An issue trap of the bundle in issue. -/
def State.trap (s : State) (t : Trap) : State :=
  (s.ends (.trap t)).deliver s.cur.cl.toNat s.cur.ctx.toNat (tcauseOf t.slot false t.cause)
    (t.whole.getD (tinfoOf s.cur.bpc t.detail)) none

/-- The return of TRET: the bundle at ERPC is the context's next (R283). -/
def State.trapReturn (s : State) : State :=
  s.modMe fun x => { x with trapm := false, tret := true, br := some ⟨1, some (s.view.erpc.toNat, s.view.ermpc.toNat)⟩ }

/-- A trap of the slot being issued. -/
def State.trapOf (s : State) (cause detail : Nat) : Trap := ⟨cause, some s.cur.slot, detail, none⟩

/-- Run an effect when no check fails; otherwise the trap is taken (R440). -/
def State.checked (s : State) (t : Option Trap) (eff : State) : Out :=
  match t with
  | some t => .next (s.trap t)
  | none => .next eff

/-- The first check that fails. -/
def firstTrap (ts : List (Option Trap)) : Option Trap := ts.findSome? id

/-- The context of the bundle in issue waits, and its bundle is selected again: nothing of it has had an effect (R126). -/
def State.stall (s : State) (w : Wait) : State :=
  (s.ends (.stall w)).endBundle.modMe fun x => { x with st := .blocked, wait := w }

/-- A non-repeatable instruction has run (R94). -/
def State.setNr (s : State) : State := s.modMe fun x => { x with nr := true }

end Sys2Proof.Machine
end

