-- ==== Sys2Proof/Machine/Operands.lean ====
section
/-!
DEFINITION. Operand forms: claimed resources (R80), galleys as operands (R169, R287), masks (R286), effective addresses
(R312, R313), branch targets (R253, R254), and the checks that their use makes.
-/
namespace Sys2Proof.Machine

/-! ## Claims (R80) -/

/-- The claim trap: kind 0 array, 1 tile, 2 region, 3 galley, 4 local address, and the number named (R441). -/
def State.claimTrap (s : State) (kind num : Nat) : Trap := s.trapOf 0x0007 (kind * 2 ^ 36 + num % 2 ^ 23)

/-- A name at or beyond its claim. -/
def State.claimCheck (s : State) (kind num limit : Nat) : Option Trap :=
  if num < limit then none else some (s.claimTrap kind num)

def State.planeCheck (s : State) (n : Nat) : Option Trap := s.claimCheck 0 n s.me.bnd.carr
def State.tileCheck (s : State) (n : Nat) : Option Trap := s.claimCheck 1 n s.me.bnd.ctile
def State.regionCheck (s : State) (n : Nat) : Option Trap := s.claimCheck 2 n s.me.bnd.creg
def State.galleyCheck (s : State) (n : Nat) : Option Trap := s.claimCheck 3 n s.me.bnd.cgal

/-- The granted number of a relative one (R80). -/
def State.physPlane (s : State) (n : Nat) : Nat := s.me.bnd.arr0 + n
def State.physTile (s : State) (n : Nat) : Nat := s.me.bnd.tile0 + n
def State.physRegion (s : State) (n : Nat) : Nat := s.me.bnd.reg0 + n

/-- Is a range of local bytes within claimed regions (R313)? -/
def Binding.localOk (b : Binding) (a n : Nat) : Bool := a + n ≤ 2 ^ 23 && (a + n - 1) / 2 ^ 17 < b.creg

/-- The physical local address of a relative one: region · 2^17 + offset. -/
def Binding.localPhys (b : Binding) (a : Nat) : Nat := (b.reg0 + a / 2 ^ 17) * 2 ^ 17 + a % 2 ^ 17

/-- The mode of the region that a relative local address names. -/
def Cluster.region (c : Cluster) (r : Nat) : Region := sget Region.reset c.regions r
def Cluster.modRegion (c : Cluster) (r : Nat) (f : Region → Region) : Cluster :=
  { c with regions := sset Region.reset c.regions r (f (c.region r)) }

/-- Does a range of local bytes lie within one claimed region in PLAIN mode (R329, R333, R382)? -/
def State.plainOk (s : State) (a n : Nat) : Bool :=
  s.me.bnd.localOk a n && a / 2 ^ 17 == (a + n - 1) / 2 ^ 17 &&
    (s.cc.region (s.physRegion (a / 2 ^ 17))).mode == .plain

/-- Physical local address of a relative one. -/
def State.physLocal (s : State) (a : Nat) : Nat := s.me.bnd.localPhys a

/-! ## Poison (R246) -/

/-- The poison trap naming an s or a v register (R441). -/
def State.poisonTrap (s : State) (isV : Bool) (n : Nat) : Trap := s.trapOf 0x0005 (isV.toNat * 2 ^ 9 + n)

def State.poisonS (s : State) (n : SReg) : Option Trap :=
  if (s.rdS n).psn then some (s.poisonTrap false n.toNat) else none

/-! ## Galleys as operands (R168, R169, R287) -/

/-- The bound galley that a v register names, with its physical number. -/
def State.galley? (s : State) (v : VReg) : Option (Nat × Galley) :=
  let g := v.toNat - 496
  if 496 ≤ v.toNat ∧ g < s.me.bnd.cgal then
    (s.cc.galleys.lookup (s.me.bnd.gal0 + g)).map fun x => (s.me.bnd.gal0 + g, x)
  else none

/-- The galley trap: reason of R450 and relative galley. -/
def State.galleyTrap (s : State) (reason : Nat) (v : VReg) : Trap := s.trapOf 0x0006 (reason * 16 + v.toNat % 16)

/-- Elements of a pattern (R336). -/
def Pattern.count (p : Pattern) : Nat := p.c0 * p.c1 * p.c2

/-- Entries of a read galley still to come: those queued and those not yet filled (R168). -/
def Galley.remaining (g : Galley) : Nat := g.q.length + (g.pat.count - g.pos + 128 / g.pat.esz - 1) / (128 / g.pat.esz)

/-- The trap of popping a galley (R169, R320, R450). -/
def State.popCheck (s : State) (v : VReg) : Option Trap :=
  match s.galley? v with
  | none => none
  | some (_, g) =>
    match g.kind with
    | .wr => some (s.galleyTrap 2 v)
    | .rd => if g.remaining = 0 then some (s.galleyTrap 0 v) else none
    | .ldx => if g.q.isEmpty then some (s.galleyTrap 5 v) else none

/-- The trap of naming a galley as a destination: only a write galley may be (R287) (DEDUCED, log 40). -/
def State.pushCheck (s : State) (v : VReg) : Option Trap :=
  match s.galley? v with
  | some (_, g) => if g.kind = .wr then none else some (s.galleyTrap 1 v)
  | none => none

/-- Does a pop wait for an entry, of an LDX galley for every LDX that is owed, and a push for a free place (R169, R320)? -/
def State.popStall (s : State) (v : VReg) : Bool :=
  match s.galley? v with
  | none => false
  | some (_, g) => (g.q.head?.bind (·.2)).isNone || (g.kind == .ldx && g.q.any fun e => e.2.isNone)
def State.pushStall (s : State) (v : VReg) : Bool :=
  match s.galley? v with
  | none => false
  | some (_, g) => decide (8 ≤ g.q.length)

/-- A v source: the galley's oldest entry, or the register (R169, R287). -/
def State.srcV (s : State) (v : VReg) : VVal :=
  match s.galley? v with
  | some (_, g) => ⟨(g.q.head?.bind (·.2)).getD 0, false⟩
  | none => s.rdV v

/-- Replace a bound galley. -/
def State.modGalley (s : State) (g : Nat) (f : Galley → Galley) : State :=
  s.modCc fun c => { c with galleys := c.galleys.map fun e => if e.1 = g then (g, f e.2) else e }

/-- Pop the galleys that a list of sources names, each once (R169). A pop is non-repeatable (R94). -/
def State.popV (s : State) (vs : List VReg) : State :=
  vs.eraseDups.foldl (fun s v => match s.galley? v with
    | some (g, _) => (s.modGalley g fun x => { x with q := x.q.tail }).setNr
    | none => s) s

/-- Write a v result: to the register, or as a push to the write galley it names, whose entry fills when the result
lands (R250, R287) (DEDUCED, log 40). -/
def State.putV (s : State) (v : VReg) (val : VWord) (psn : Bool) (bound : Nat) : State :=
  match s.galley? v with
  | some (g, _) =>
    let p : Pend := ⟨s.nextId, .push (.ofNat 4 g), val, false, some (s.cur.bno + bound), true, 0, none⟩
    ({ (s.modGalley g fun x => { x with q := x.q ++ [(s.nextId, none)] }).modMe fun x =>
        { x with pend := x.pend ++ [p] } with nextId := s.nextId + 1 }).setNr
  | none => s.put (.v v) val psn bound

/-- The old value of a destination: zero for a push (R287). -/
def State.oldV (s : State) (v : VReg) : VVal := if (s.galley? v).isSome then ⟨0, false⟩ else s.rdV v

/-- The first poisoned register of a list that names no galley. -/
def State.poisoned? (s : State) (vs : List VReg) : Option VReg := vs.find? fun v => (s.srcV v).psn

/-- The checks of a V-slot instruction with a v destination (R287, R458). Of several galley traps it takes that of the first
source, before that of the destination, and of two checks of one cause the one that stands first; the POISON trap of a push
names the first poisoned source (DESIGN CHOICE, log 107). -/
def State.vCheck (s : State) (srcs : List VReg) (vd : VReg) : Option Trap :=
  firstTrap (srcs.map s.popCheck ++ [s.pushCheck vd,
    if (s.galley? vd).isSome then (s.poisoned? srcs).map fun v => s.poisonTrap true v.toNat else none])

/-- The checks of a V-slot instruction without a v destination. -/
def State.vCheckSrc (s : State) (srcs : List VReg) : Option Trap := firstTrap (srcs.map s.popCheck)

/-- Does the instruction wait for a galley? -/
def State.vStall (s : State) (srcs : List VReg) (vd : Option VReg) : Bool :=
  srcs.any s.popStall || (vd.map s.pushStall).getD false

/-! ## Masks (R286) -/

/-- Is lane i active under the mask field K? -/
def State.lane (s : State) (k : KReg) (i : Nat) : Bool := k == 0 || (s.rdK k).getLsbD i

/-- The destination under a write mask: the result in active elements of width w, the old value elsewhere. -/
def State.merge (s : State) (k : KReg) (w : Nat) (res : Nat → BitVec w) (old : VWord) : VWord :=
  ofElems w fun e => if s.lane k (e * w / 32) then res e else elemAt w old e

/-- Flags of the active elements. -/
def State.flagsOf (s : State) (k : KReg) (w n : Nat) (fl : Nat → Flags) : Flags :=
  (List.range n).foldl (fun f e => if s.lane k (e * w / 32) then f ||| fl e else f) 0

/-- Does the instruction read its old destination: under a mask, or as stated with it (R286)? -/
def readsOld (k : KReg) (always : Bool) : Bool := k != 0 || always

/-- A V-slot instruction with a v destination: its checks and waits, its pops, its result from its sources and the old
destination, its flags and its poison (R286 to R288). -/
def State.vop (s : State) (srcs : List VReg) (vd : VReg) (old : Bool) (bound : Nat)
    (f : List VWord → VWord → VWord × Flags) : Out :=
  match s.vCheck srcs vd with
  | some t => .next (s.trap t)
  | none =>
    if s.vStall srcs (some vd) then .next (s.stall .retry)
    else
      let o := s.oldV vd
      let r := f (srcs.map fun v => (s.srcV v).val) o.val
      let psn := (srcs.any fun v => (s.srcV v).psn) || (old && o.psn)
      .next (((s.popV srcs).putV vd r.1 psn bound).putFlags r.2 bound)

/-- A V-slot instruction with a k destination, which is undefined when a source is poisoned (R287). -/
def State.vopK (s : State) (srcs : List VReg) (kd : KReg) (bound : Nat) (f : List VWord → BitVec 32 × Flags) : Out :=
  match s.vCheckSrc srcs with
  | some t => .next (s.trap t)
  | none =>
    if s.vStall srcs none then .next (s.stall .retry)
    else
      let r := f (srcs.map fun v => (s.srcV v).val)
      let s1 := s.popV srcs
      if srcs.any fun v => (s.srcV v).psn then
        .next (({ s1 with free := s1.free + 1 }.putK kd (Config.freeBits 32 s1.free) bound).putFlags r.2 bound)
      else .next ((s1.putK kd r.1 bound).putFlags r.2 bound)

/-! ## Addresses (R312, R313) -/

/-- The effective address of the base and offset form. -/
def State.ea (s : State) (ab : AReg) (off : Int) : Nat := addr64 (s.rdA ab).toNat off

/-- The alignment trap (R441). -/
def State.alignCheck (s : State) (ea w : Nat) : Option Trap :=
  if ea % w = 0 then none else some (s.trapOf 0x0008 (ea % 2 ^ 40))

/-- The claim check of a local access. -/
def State.localCheck (s : State) (ea n : Nat) : Option Trap :=
  if s.me.bnd.localOk ea n then none else some (s.claimTrap 4 ea)

/-! ## Branch targets (R253, R254, R451) -/

/-- The branch-target trap with the target's bundle offset. -/
def State.btgt (s : State) (boff : Nat) : Trap := s.trapOf 0x0003 (boff % 2 ^ 34)

/-- Does a bundle offset lie inside the image's text? -/
def Binding.inText (b : Binding) (pc : Int) : Bool := b.entry ≤ pc && pc < b.textEnd

/-- Target of a YT or YC branch: PC and MPC as offsets. -/
def State.target (s : State) (t : BrTarget) : Int × Int :=
  (s.cur.bpc + 64 * t.bdisp.toInt, s.cur.bmpc + 8 * t.ldisp.toInt)

def State.targetCheck (s : State) (t : BrTarget) : Option Trap :=
  if s.me.bnd.inText (s.target t).1 then none else some (s.btgt ((s.target t).1 / 64 % 2 ^ 34).toNat)

/-- Bundle offset and literal index of a link (R254). -/
def linkPc (l : Word) : Nat := bitsAt l.toNat 6 34 * 64
def linkMpc (metaoff : Nat) (l : Word) : Nat := metaoff + 8 * bitsAt l.toNat 40 24

def State.linkCheck (s : State) (l : Word) : Option Trap :=
  if bitsAt l.toNat 0 6 = 0 ∧ s.me.bnd.inText (linkPc l) then none else some (s.btgt (bitsAt l.toNat 6 34))

/-- The branch in issue is taken: its target issues after its two delay slots (R251). -/
def State.take (s : State) (pc mpc : Nat) : State := s.modMe fun x => { x with br := some ⟨3, some (pc, mpc)⟩ }

/-- The branch in issue is not taken. -/
def State.notTaken (s : State) : State := s.modMe fun x => { x with br := some ⟨3, none⟩ }

/-- The link of CALL and JMPL: the bundle three after the branch, with the literal index there (R254). The two delay
slots' M slots count. -/
def State.link (s : State) (mslots : Nat) : Word :=
  let lidx := (s.cur.bmpc - s.me.bnd.metaoff) / 8 + mslots
  .ofNat 64 (lidx % 2 ^ 24 * 2 ^ 40 + (s.cur.bpc + 192) / 64 % 2 ^ 34 * 64)

end Sys2Proof.Machine
end

