-- ==== Sys2Proof/Machine/Memory.lean ====
section
/-!
DEFINITION. Memory: the physical windows and the home of a byte (R153 to R155, R496), device memory through its slices
(R157, R158), local store and tiles (R159, R166), and the module error log (R461 to R463).
-/
namespace Sys2Proof.Machine

/-! ## Bytes with a fill -/

/-- A byte that nothing has written: 0 under fill 0, a free byte under any other (R6, log 3, log 4). -/
def fillByte (tag a : Nat) : Byte :=
  match tag with
  | 0 => 0
  | n + 1 => Config.freeByte n a

def Store.get (m : Store) (a : Nat) : Byte := sget (fillByte m.tag a) m.cells a
def Store.set (m : Store) (a : Nat) (b : Byte) : Store := { m with cells := sset (fillByte m.tag a) m.cells a b }

/-- n bytes from a. -/
def Store.read (m : Store) (a n : Nat) : List Byte := (List.range n).map fun i => m.get (a + i)
/-- Write bytes from a. -/
def Store.write (m : Store) (a : Nat) : List Byte → Store
  | [] => m
  | b :: bs => (m.set a b).write (a + 1) bs

/-! ## Physical windows (R153, R154, R496) -/

inductive Window where
  | linear | interleaved | host | regs
deriving DecidableEq, Repr

/-- The degraded channels, and those that remain, ascending (R496). -/
def State.badChan (s : State) (ch : Nat) : Bool := s.forme.degraded.contains (1, ch)
def State.chans (s : State) : List Nat := (List.range Config.nchan).filter fun c => !s.badChan c

/-- The window of a physical address, none where R153 lists none. -/
def State.window (s : State) (pa : Nat) : Option Window :=
  if pa < 96 * 2 ^ 33 then if s.badChan (pa / 2 ^ 33) then none else some .linear
  else if 0x100000000000 ≤ pa ∧ pa < 0x100000000000 + s.chans.length * 2 ^ 33 then some .interleaved
  else if 0x200000000000 ≤ pa ∧ pa < 0x300000000000 then some .host
  else if 0x300000000000 ≤ pa ∧ pa < 0x300100000000 then some .regs
  else none

/-- The linear address of an interleaved one (R154, R496). -/
def State.deinterleave (s : State) (y : Nat) : Nat :=
  let n := s.chans.length
  let lx := y / 256
  let g := lx / n
  let h := ((bitsAt g 0 7) ^^^ (bitsAt g 7 7) ^^^ (bitsAt g 14 7) ^^^ (bitsAt g 21 4)) % n
  let ch := s.chans.getD ((lx % n + h) % n) 0
  ch * 2 ^ 33 + g * 256 + y % 256

/-- The linear address of a byte of device memory named through either window. -/
def State.linear (s : State) (pa : Nat) : Nat :=
  if pa < 0x100000000000 ∨ 0x200000000000 ≤ pa then pa else s.deinterleave (pa - 0x100000000000)

/-- Is a slice powered down: degraded, or one of the four of a degraded channel (R496)? -/
def State.sliceGone (s : State) (n : Nat) : Bool := s.forme.degraded.contains (0, n) || s.badChan (n / 4)

/-- The home slice of a linear address (R155), moved off a degraded slice (R496). -/
def State.home (s : State) (lin : Nat) : Nat :=
  let ch := lin / 2 ^ 33
  let g := lin % 2 ^ 33 / 256
  let r := 4 * (ch % 12) + g % 4
  let sl (k : Nat) := 48 * (ch / 12) + (r + k) % 48
  if !s.sliceGone (sl 0) then sl 0
  else ((List.range 47).find? fun k => !s.sliceGone (sl (k + 1))).elim (sl 0) fun k => sl (k + 1)

/-- The linear address of a slice's own line in its set: the memory chiplet's number. -/
def chipOfMem (lin : Nat) : Nat := lin / 2 ^ 33 / 12

/-! ## Device memory at the channel -/

def State.fillAt (s : State) (lin : Nat) : Byte :=
  fillByte (((s.memFill.find? fun r => r.1 ≤ lin && lin < r.2.1).map (·.2.2)).getD 0) lin
def State.dram (s : State) (lin : Nat) : Byte := sget (s.fillAt lin) s.mem lin
/-- The contents of a range become undefined (R6, R20, R424, R494). -/
def State.undefine (s : State) (lo hi : Nat) : State :=
  { s with mem := s.mem.filter fun e => !(lo ≤ e.1 && e.1 < hi), memFill := (lo, hi, s.free + 1) :: s.memFill,
           free := s.free + 1 }
def State.setDram (s : State) (lin : Nat) (b : Byte) : State := { s with mem := sset (s.fillAt lin) s.mem lin b }

/-! ## Device memory at its home (R157, R183) -/

def Slice.line? (x : Slice) (l : Nat) : Option Line := x.lines.find? fun e => e.line == l && !e.filling
def Slice.modLine (x : Slice) (l : Nat) (f : Line → Line) : Slice :=
  { x with lines := mapIf (fun e => e.line == l && !e.filling) f x.lines }

/-- A byte at its home: the slice's line, or the channel. -/
def State.homeByte (s : State) (lin : Nat) : Byte :=
  match (s.slice (s.home lin)).line? (lin / 256) with
  | some l => .ofNat 8 (l.data.toNat / 2 ^ (8 * (lin % 256)))
  | none => s.dram lin

/-! ### A set's lines (R157, R220) -/

def setOfLine (line : Nat) : Nat := line / 4 % 1024

/-- Is a line held back from other agents: locked by the handler, or by its event (R215, R220)? (DEDUCED, log 47) -/
def Slice.locked (x : Slice) (l : Nat) : Bool :=
  (x.run.any fun r => r.locks.contains l) || x.lines.any fun e => e.line == l && e.evLock

def Slice.filling (x : Slice) (l : Nat) : Bool := x.fills.any fun f => f.line == l

/-- A line takes position p of its set; the lines between close up behind it. -/
def Slice.moveTo (x : Slice) (l p : Nat) : Slice :=
  match x.lines.find? fun e => e.line == l with
  | none => x
  | some e =>
    { x with lines := x.lines.map fun y =>
        if y.line = l then { y with pos := p }
        else if setOfLine y.line ≠ setOfLine l then y
        else if e.pos < y.pos ∧ y.pos ≤ p then { y with pos := y.pos - 1 }
        else if p ≤ y.pos ∧ y.pos < e.pos then { y with pos := y.pos + 1 }
        else y }

/-- An agent's read that hits a line moves it to the last position of its set (R157). -/
def State.touchLine (s : State) (line : Nat) : State :=
  let h := s.home (line * 256)
  if ((s.slice h).line? line).isSome then s.modSlice h fun x => x.moveTo line 15 else s

/-- Is a line held back from the agents outside its slice (R215, R220)? -/
def State.lineLocked (s : State) (line : Nat) : Bool := (s.slice (s.home (line * 256))).locked line

/-- Write a byte at its home: into the line, which becomes dirty, or to the channel (R158). -/
def State.setHomeByte (s : State) (lin : Nat) (b : Byte) : State :=
  let h := s.home lin
  match (s.slice h).line? (lin / 256) with
  | some _ =>
    s.modSlice h fun x => x.modLine (lin / 256) fun e =>
      { e with data := setField e.data (8 * (lin % 256)) 8 b.toNat, dirty := true }
  | none => s.setDram lin b

def State.homeRead (s : State) (lin n : Nat) : List Byte := (List.range n).map fun i => s.homeByte (lin + i)
def State.homeWrite (s : State) (lin : Nat) : List Byte → State
  | [] => s
  | b :: bs => (s.setHomeByte lin b).homeWrite (lin + 1) bs

/-- Is a byte's line marked poisoned (R479, R480)? -/
def State.linePoison (s : State) (lin : Nat) : Bool :=
  s.memPoison.contains (lin / 256) ||
    (((s.slice (s.home lin)).line? (lin / 256)).map Line.poison).getD false

/-- A write of a whole line clears its mark (R480). -/
def State.clearPoison (s : State) (line : Nat) : State :=
  let s1 := s.modSlice (s.home (line * 256)) fun x => x.modLine line fun e => { e with poison := false }
  { s1 with memPoison := s.memPoison.filter fun l => l != line }

/-! ## Host memory (R419) -/

def State.hostByte (s : State) (h : Nat) : Byte := sget 0 s.hostMem h
def State.setHostByte (s : State) (h : Nat) (b : Byte) : State := { s with hostMem := sset 0 s.hostMem h b }

/-- Bytes of device or host memory by physical address. -/
def State.physByte (s : State) (pa : Nat) : Byte :=
  if 0x200000000000 ≤ pa then s.hostByte (pa - 0x200000000000) else s.homeByte (s.linear pa)
def State.setPhysByte (s : State) (pa : Nat) (b : Byte) : State :=
  if 0x200000000000 ≤ pa then s.setHostByte (pa - 0x200000000000) b else s.setHomeByte (s.linear pa) b
def State.physRead (s : State) (pa n : Nat) : List Byte := (List.range n).map fun i => s.physByte (pa + i)
def State.physWrite (s : State) (pa : Nat) : List Byte → State
  | [] => s
  | b :: bs => (s.setPhysByte pa b).physWrite (pa + 1) bs

/-- The canonical form of device and host memory: addresses strictly rising, no entry equal to what an unlisted address
reads as. -/
abbrev Memory.wf (s : State) : Prop := Sparse.wf s.fillAt s.mem ∧ Sparse.wf (fun _ => (0 : Byte)) s.hostMem

/-! ## Holders of a line: stash granules and CACHE-region lines (R163, R164) -/

/-- Write back one line's bytes from a region's store; the whole line is written, which clears its poison mark (R480). -/
def State.writeBackLine (s : State) (st : Store) (off lin : Nat) : State :=
  (s.homeWrite lin (st.read off 256)).clearPoison (lin / 256)

/-- The linear address of line i (0 to 15) of a granule at physical address pa. -/
def State.granLine (s : State) (pa i : Nat) : Nat := s.linear (pa + 256 * i)

/-- Does the granule of a number, named in its alias, hold a linear line (R164)? -/
def State.granHas (s : State) (gran line : Nat) : Bool := (List.range 16).any fun i => s.granLine (gran * 4096) i / 256 == line

/-- The dirty lines of a granule: offset in the region, linear line. -/
def State.granDirty (s : State) (g : Granule) : List (Nat × Nat) :=
  match g.pa with
  | some pa => (List.range 16).filterMap fun i =>
      if g.dirty.getLsbD i then some (g.idx * 4096 + i * 256, s.granLine pa i / 256) else none
  | none => []

/-- Does a granule cover a linear line? -/
def State.granHolds (s : State) (g : Granule) (line : Nat) : Bool := g.pa.any fun pa => s.granHas (pa / 4096) line

/-- Place of a CACHE line in its region: set of VA[13:8], 8 ways (R160). -/
def CLine.place (l : CLine) : Nat := (l.vline % 64 * 8 + l.way) * 256

/-- The granules of a region, and its CACHE lines, that an invalidation for a linear line names: every line of the granule
that holds it (R164, R219); `onlyExcl`: only copies held for writing. -/
def State.namedBy (s : State) (reg : Region) (line : Nat) (onlyExcl : Bool) : List Granule × List CLine :=
  (reg.gran.filter fun g => (g.st == .exclusive || !onlyExcl) && s.granHolds g line,
   reg.lines.filter fun l => (l.excl || !onlyExcl) && s.granHas l.gran line)

/-- What a region writes back for it: offset in the region, linear line. -/
def State.dirtyOf (s : State) (x : List Granule × List CLine) : List (Nat × Nat) :=
  (x.1.map s.granDirty).flatten ++ x.2.filterMap fun l => if l.dirty then some (l.place, l.pline) else none

/-- A region with what an invalidation names written back and dropped (R163, R164); copies held for writing are kept
Shared for a read (R219) (DEDUCED, log 8). -/
def State.recallRegion (s : State) (k r line : Nat) (onlyExcl : Bool) : State :=
  let reg := (s.cluster k).region r
  let named := s.namedBy reg line onlyExcl
  if named.1.isEmpty && named.2.isEmpty then s
  else
    ((s.dirtyOf named).foldl (fun s e => s.writeBackLine reg.store e.1 (e.2 * 256)) s).modCluster k fun c => c.modRegion r fun x =>
      if onlyExcl then
        { x with gran := mapIf named.1.contains (fun g => { g with st := .shared, dirty := 0 }) x.gran,
                 lines := mapIf named.2.contains (fun l => { l with excl := false, dirty := false }) x.lines }
      else { x with gran := x.gran.filter fun g => !named.1.contains g, lines := x.lines.filter fun l => !named.2.contains l }

/-- The regions of every cluster but one, as (cluster, region). -/
def State.otherRegions (s : State) (but : Option (Nat × Nat)) : List (Nat × Nat) :=
  (s.clusters.map fun e => e.2.regions.map fun r => (e.1, r.1)).flatten.filter fun e => but != some e

/-- Lines that the copies of other regions write back when a line is recalled. -/
def State.recallLines (s : State) (line : Nat) (but : Option (Nat × Nat)) (onlyExcl : Bool) : List Nat :=
  ((s.otherRegions but).map fun e => (s.dirtyOf (s.namedBy ((s.cluster e.1).region e.2) line onlyExcl)).map (·.2)).flatten

/-- May the recall of a line go on: no line that it writes back is locked at its home (R220)? -/
def State.recallFree (s : State) (line : Nat) (but : Option (Nat × Nat)) (onlyExcl : Bool) : Bool :=
  (s.recallLines line but onlyExcl).all fun l => !s.lineLocked l

/-- The home's directory entries that cover a line name the chiplet of the requester alone, and no host (R164, R200). -/
def State.invalidated (s : State) (line : Nat) (but : Option Nat) : State :=
  let h := s.home (line * 256)
  if (s.slice h).dir.isEmpty then s
  else s.modSlice h fun x => { x with
    dir := mapIf (fun d => s.granHas d.gran line)
      (fun d => { d with mask := match but with
        | some c => d.mask &&& BitVec.twoPow 97 c
        | none => 0 }) x.dir }

/-- Before the home performs an access to a line, it takes back the copies of every region but one, and for a write the
host's: all copies for a write, those held for writing for a read (R164, R200) (DEDUCED, log 8). -/
def State.recall (s : State) (line : Nat) (but : Option (Nat × Nat)) (onlyExcl : Bool) : State :=
  let s1 := (s.otherRegions but).foldl (fun s e => s.recallRegion e.1 e.2 line onlyExcl) s
  if onlyExcl then s1 else s1.invalidated line (but.map fun e => e.1 / 4)

/-- The lines of n bytes at a physical address of device memory. -/
def State.linesOf (s : State) (pa n : Nat) : List Nat :=
  if 0x200000000000 ≤ pa then [] else ((List.range n).map fun i => s.linear (pa + i) / 256).eraseDups

/-- Read and write device memory as an agent outside the clusters does: copies are taken back first. -/
def State.takeBack (s : State) (pa n : Nat) (onlyExcl : Bool) : State :=
  (s.linesOf pa n).foldl (fun s l => s.recall l none onlyExcl) s

/-- Is an access one that the slice of MC0 has taken up, to a host line of n bytes at a physical address (R157, R181)? A
watch reads again and again and holds no other access (R323). -/
def Access.onHost (a : Access) (pa n : Nat) : Bool :=
  a.st == .home && (match a.dst, a.tr with
    | .watch .., _ => false
    | _, .ok q 1 => decide (q / 256 * 256 < pa + n) && decide (pa < (q + a.len + 255) / 256 * 256)
    | _, _ => false)

/-- Do the slices of MC0 hold no access to the host lines of n bytes? They take the accesses of one line one at a time
(R157, R181). -/
def State.hostFree (s : State) (pa n : Nat) : Bool := pa < 0x200000000000 || s.accs.all fun a => !a.onHost pa n

/-- May an agent outside the clusters reach n bytes: no line of them is locked, and none of host memory has an access in
flight (R181, R220)? -/
def State.agentFree (s : State) (pa n : Nat) : Bool :=
  ((s.linesOf pa n).all fun l => !s.lineLocked l) && s.hostFree pa n

/-- The lines of device memory that n bytes cover wholly. -/
def State.wholeLines (s : State) (pa n : Nat) : List Nat :=
  if 0x200000000000 ≤ pa ∨ n < 256 then []
  else (List.range (n / 256 + 1)).filterMap fun i =>
    let a := (pa + 255) / 256 * 256 + 256 * i
    if a + 256 ≤ pa + n then some (s.linear a / 256) else none

/-- An agent's write: copies are taken back first, and the marks of lines that it writes whole are cleared (R480). -/
def State.agentWrite (s : State) (pa : Nat) (bs : List Byte) : State :=
  (s.wholeLines pa bs.length).foldl State.clearPoison ((s.takeBack pa bs.length false).physWrite pa bs)

/-- An agent has read n bytes: the lines that it hit move in their sets (R157). -/
def State.touched (s : State) (pa n : Nat) : State := (s.linesOf pa n).foldl State.touchLine s

/-- The value of n bytes as an agent reads them, without the copies' writebacks (for reads that change nothing). -/
def State.peek (s : State) (pa n : Nat) : List Byte := (s.takeBack pa n true).physRead pa n
def State.peekNum (s : State) (pa n : Nat) : Nat := ofBytes (s.peek pa n)

/-! ## The directory (R164, R200) -/

/-- A cluster writes back the dirty lines of a granule and drops it, with every line of it held in a CACHE region (R163,
R164, R219). -/
def State.dropGranule (s : State) (k gran : Nat) : State :=
  (List.range 16).foldl (fun s i =>
    ((s.cluster k).regions.map (·.1)).foldl (fun s r => s.recallRegion k r (s.granLine (gran * 4096) i / 256) false) s) s

/-- The entry that a full directory gives up to record a granule (R164). -/
def Slice.dirVictim (x : Slice) (gran : Nat) : Option DirEntry :=
  if (x.dir.any fun d => d.gran == gran) || x.dir.length < 32768 then none else x.dir.head?

/-- The clusters that an entry of the directory names. -/
def DirEntry.clusters (d : DirEntry) : List Nat := (List.range 384).filter fun k => d.mask.getLsbD (k / 4)

/-- Record a holder of a granule: bit b of its entry. A full directory frees its oldest entry, whose sharers are
invalidated first (R164). -/
def State.share (s : State) (h gran b : Nat) : State :=
  let x := s.slice h
  if x.dir.any fun d => d.gran == gran then
    s.modSlice h fun x => { x with dir := mapIf (fun d => d.gran == gran) (fun d => { d with mask := setBit d.mask b true }) x.dir }
  else
    let add (x : Slice) : Slice := { x with dir := x.dir ++ [⟨gran, BitVec.twoPow 97 b⟩] }
    match x.dir with
    | d :: rest =>
      if x.dir.length < 32768 then s.modSlice h add
      else
        (d.clusters.foldl (fun s k => s.dropGranule k d.gran) s).modSlice h
          fun x => add { x with dir := rest }
    | [] => s.modSlice h add

/-- The homes of the lines of a granule. -/
def State.granHomes (s : State) (gran : Nat) : List Nat :=
  ((List.range 16).map fun i => s.home (s.granLine (gran * 4096) i)).eraseDups

/-- Does a cluster hold a granule, or a line of it? -/
def Cluster.holdsGran (c : Cluster) (gran : Nat) : Bool :=
  c.regions.any fun r => (r.2.gran.any fun g => g.pa.any fun p => p / 4096 == gran) || r.2.lines.any fun l => l.gran == gran

/-- A cluster has dropped a granule for a reason of its own: the release goes to every home of its lines. A home clears the
chiplet's bit when none of its clusters holds the granule any more (R164) (DEDUCED, log 89). -/
def State.releaseGran (s : State) (k gran : Nat) : State :=
  if (List.range 4).any fun i => (s.cluster (k / 4 * 4 + i)).holdsGran gran then s
  else (s.granHomes gran).foldl (fun s h => s.modSlice h fun x => { x with
    dir := mapIf (fun d => d.gran == gran) (fun d => { d with mask := setBit d.mask (k / 4) false }) x.dir }) s

/-- Does a home's directory name another holder of a line than chiplet c: another chiplet, or the host (R163, R164)? -/
def State.namesOther (s : State) (line c : Nat) : Bool :=
  (s.slice (s.home (line * 256))).dir.any fun d => s.granHas d.gran line && (d.mask &&& ~~~(BitVec.twoPow 97 c)) != 0

/-- Does a region, other than one of a cluster, hold a line (R164)? -/
def State.heldLine (s : State) (line : Nat) (but : Option (Nat × Nat)) : Bool :=
  s.clusters.any fun c => c.2.regions.any fun r => but != some (c.1, r.1) &&
    ((r.2.gran.any fun g => s.granHolds g line) || r.2.lines.any fun l => l.pline == line)

/-- Does a cluster hold a line by another alias than that of a granule (R156)? -/
def State.otherAlias (s : State) (k gran line : Nat) : Bool :=
  (s.cluster k).regions.any fun r =>
    (r.2.gran.any fun g => s.granHolds g line && g.pa.any fun pa => pa / 4096 != gran) ||
      r.2.lines.any fun l => l.pline == line && l.gran != gran

/-- A launch reaches a line by an alias while its cluster holds it by the other: what it reads there is undefined from then
on (R6, R156) (DEDUCED, log 92). -/
def State.breakAlias (s : State) (launch k gran line : Nat) : State :=
  if s.otherAlias k gran line && !s.forme.broken.contains (launch, line) then
    s.modForme fun m => { m with broken := m.broken ++ [(launch, line)] }
  else s

/-- The context of a cluster that owns a region, and its launch. -/
def State.regionOwner (s : State) (k r : Nat) : Option Nat :=
  ([0, 1, 2, 3] : List Nat).find? fun c =>
    let x := s.ctx k c
    x.st != .free && x.bnd.reg0 ≤ r && r < x.bnd.reg0 + x.bnd.creg
def State.regionLaunch (s : State) (k r : Nat) : Nat := ((s.regionOwner k r).map fun c => (s.ctx k c).bnd.launch).getD 0

/-- The bytes of a line as a cluster fills a copy of it in a region from line src (R156). -/
def State.fillBytes (s : State) (k r gran line src : Nat) : List Byte × State :=
  (s.homeRead (src * 256) 256, s.breakAlias (s.regionLaunch k r) k gran line)

/-! ## Local store (R159, R160) -/

/-- A byte at a physical local address: region · 2^17 + offset. -/
def Cluster.locByte (c : Cluster) (a : Nat) : Byte := (c.region (a / 2 ^ 17)).store.get (a % 2 ^ 17)
def Cluster.setLocByte (c : Cluster) (a : Nat) (b : Byte) : Cluster :=
  c.modRegion (a / 2 ^ 17) fun r => { r with store := r.store.set (a % 2 ^ 17) b }
def Cluster.locRead (c : Cluster) (a n : Nat) : List Byte := (List.range n).map fun i => c.locByte (a + i)
def Cluster.locWrite (c : Cluster) (a : Nat) : List Byte → Cluster
  | [] => c
  | b :: bs => (c.setLocByte a b).locWrite (a + 1) bs

/-! ## Tiles (R166): tile t at t · 0xA000, elements at +0, band at +0x8000 (R335) -/

def Cluster.tile (c : Cluster) (t : Nat) : Store := sget Store.zero c.tiles t
def Cluster.modTile (c : Cluster) (t : Nat) (f : Store → Store) : Cluster :=
  { c with tiles := sset Store.zero c.tiles t (f (c.tile t)) }
def Cluster.tileRead (c : Cluster) (a n : Nat) : List Byte :=
  (List.range n).map fun i => (c.tile ((a + i) / 0xA000)).get ((a + i) % 0xA000)
def Cluster.tileWrite (c : Cluster) (a : Nat) : List Byte → Cluster
  | [] => c
  | b :: bs => (c.modTile (a / 0xA000) fun t => t.set (a % 0xA000) b).tileWrite (a + 1) bs

/-- Poison marks of local bytes: cluster, space (1 local, 2 tile) and unit of 32 bytes (R479). -/
def State.locPoisoned (s : State) (k sp a n : Nat) : Bool :=
  s.locPoison.any fun e => e.1 == k && e.2.1 == sp && a / 32 ≤ e.2.2 && e.2.2 ≤ (a + n - 1) / 32
/-- A write of whole units clears their marks. -/
def State.clearLoc (s : State) (k sp a n : Nat) : State :=
  { s with locPoison := s.locPoison.filter fun e =>
      !(e.1 == k && e.2.1 == sp && a ≤ e.2.2 * 32 && e.2.2 * 32 + 32 ≤ a + n) }

/-! ## The range scoreboard (R170, R171) -/

/-- Does a range overlap an entry: any entry of another instruction, or write entries alone? -/
def Cluster.rangeBusy (c : Cluster) (space lo hi who : Nat) (onlyWrites : Bool) : Bool :=
  c.rsb.any fun e => e.space == space && e.who != who && (e.write || !onlyWrites) && e.lo < hi && lo < e.hi

/-- An entry widened to 32-byte bounds. -/
def RsEntry.of (owner who : Nat) (write : Bool) (space lo hi : Nat) : RsEntry :=
  ⟨owner, who, write, space, lo / 32 * 32, (hi + 31) / 32 * 32⟩

def Cluster.rsbFree (c : Cluster) (n : Nat) : Bool := c.rsb.length + n ≤ 64

/-- Release the entries of an instruction. -/
def Cluster.rsbDrop (c : Cluster) (who : Nat) : Cluster := { c with rsb := c.rsb.filter fun e => e.who != who }

/-! ## The module error log (R461 to R463) -/

/-- The 64 bytes of a record (R463). -/
def recordBytes (n : Nat) (e : ErrRec) (lost : Bool) (cycle : Nat) : List Byte :=
  toBytes 4 n ++ toBytes 2 e.code ++ toBytes 1 e.src ++ toBytes 1 lost.toNat ++ toBytes 4 e.unit ++ toBytes 4 e.handle ++
    toBytes 4 e.group ++ toBytes 4 e.count ++ toBytes 8 e.addr ++ toBytes 8 cycle ++ toBytes 24 e.detail.toNat

/-- Raise MSI-X entry v − 1; a masked entry sets its pending bit (R420). Entries are masked after reset, as PCIe
specifies (DEDUCED, log 23). -/
def State.raiseIrq (s : State) (v : Nat) : State :=
  if v = 0 ∨ 2048 < v then s
  else if (sget (BitVec.twoPow 128 96) s.forme.msixTable (v - 1)).getLsbD 96 then
    s.modForme fun m => { m with msixPend := if m.msixPend.contains (v - 1) then m.msixPend else m.msixPend ++ [v - 1] }
  else s.modForme fun m => { m with irqs := m.irqs ++ [v - 1] }

/-- Append a record, or drop it when the ring is full (R462) (DEDUCED, log 65). -/
def State.logErr (s : State) (e : ErrRec) : State :=
  let m := s.forme
  if 4096 ≤ (m.eltail - m.elhead).toNat then
    s.modForme fun m => { m with ellost := m.ellost + 1, ellostPend := true }
  else
    let a := m.elbase.toNat + 64 * (m.eltail.toNat % 4096)
    let s1 := s.agentWrite a (recordBytes m.eltail.toNat e m.ellostPend s.cycle)
    let s2 := s1.modForme fun m => { m with eltail := m.eltail + 1, ellostPend := false }
    if (m.eltail + 1 - m.elhead).toNat = 1 then s2.raiseIrq m.elvec.toNat else s2

/-- A record with no address, handle or group (R463) (DEDUCED, log 65). -/
def State.logUnit (s : State) (code src unit : Nat) (detail : Nat) : State :=
  s.logErr ⟨code, src, unit, 0, 0xFFFFFFFF, 1, 0, .ofNat 192 detail⟩

/-- A record about a context's group. -/
def State.logCtx (s : State) (code src unit k c : Nat) (addr detail : Nat) : State :=
  let b := (s.ctx k c).bnd
  s.logErr ⟨code, src, unit, b.handle, b.group, 1, addr, .ofNat 192 detail⟩

end Sys2Proof.Machine
end

