-- ==== Sys2Proof/Machine/Translate.lean ====
section
/-!
DEFINITION. Address translation (R150 to R152, R172): the walk of the page table, the cluster's TLB, and the region map
(R162).
-/
namespace Sys2Proof.Machine

/-- What an access needs of a page (R151). -/
inductive Need where
  | read | write | fetch
deriving DecidableEq, Repr

/-- The result of a walk: a page with its entry's address and value, not resident (with PAGED), being made resident, or
a translation fault. -/
inductive Walk where
  | page (big : Bool) (pteAddr pte : Nat)
  | nonres (pteAddr pte lvl : Nat)
  | hold
  | fault
deriving DecidableEq, Repr

/-- Page size in bits. -/
def pageBits (big : Bool) : Nat := if big then 25 else 16

/-- The physical address of a leaf for a virtual address (R152). -/
def leafPa (big : Bool) (pte va : Nat) : Nat :=
  bitsAt pte (pageBits big) (46 - pageBits big) * 2 ^ pageBits big + va % 2 ^ pageBits big

/-- The window that the physical address of a leaf lies in, coded as MT: 0 device, 1 host, 2 registers (R152). -/
def mtOf (pa : Nat) : Nat :=
  if pa < 0xC000000000 ∨ (0x100000000000 ≤ pa ∧ pa < 0x10C000000000) then 0
  else if 0x200000000000 ≤ pa ∧ pa < 0x300000000000 then 1
  else if 0x300000000000 ≤ pa ∧ pa < 0x300100000000 then 2
  else 3

/-- A walker read that meets an uncorrectable error (R465). -/
def State.tablePoison (s : State) (a : Nat) : Bool := a < 0x200000000000 && s.linePoison (s.linear a)

/-- A table word that a walk cannot read: its address is in no window, or in the register window, or its line meets a poison
mark (DESIGN CHOICE, log 88). -/
def State.tableBad (s : State) (a : Nat) : Bool := 0x300000000000 ≤ a || (s.window a).isNone || s.tablePoison a

/-- The walk from the table at t, levels lvl − 1 down to 0 (R152). A locked line is waited for (R220). -/
def State.walkFrom (s : State) (va : Nat) : Nat → Nat → Walk
  | 0, _ => .fault
  | lvl + 1, t =>
    let a := t + 8 * bitsAt va (16 + 9 * lvl) 9
    if s.tableBad a then .fault else if !s.agentFree a 8 then .hold else
    let pte := s.peekNum a 8
    let leaf := bitAt pte 1
    if !bitAt pte 0 then
      if bitAt pte 11 then (if bitAt pte 10 then .hold else .nonres a pte lvl) else .fault
    else if bitsAt pte 46 18 != 0 || bitAt pte 5 then .fault
    else if leaf && bitsAt pte 8 2 == 3 then .fault
    else if leaf then
      if lvl = 1 then
        if bitsAt pte 12 13 != 0 || mtOf (leafPa true pte va) != bitsAt pte 8 2 then .fault else .page true a pte
      else if lvl = 0 then
        if bitsAt pte 12 4 != 0 || mtOf (leafPa false pte va) != bitsAt pte 8 2 then .fault else .page false a pte
      else .fault
    else s.walkFrom va lvl (bitsAt pte 12 34 * 4096)

/-- The whole walk of an address space (R152). A walker read that meets a poison mark gives a fault (R465)
(DEDUCED, log 76). An entry of the address-space table with a reserved bit set gives one too (DESIGN CHOICE, log 88). -/
def State.walk (s : State) (asid va : Nat) : Walk :=
  let a := s.forme.astbase.toNat + 8 * asid
  if s.tableBad a then .fault else if !s.agentFree a 8 then .hold else
  let ent := s.peekNum a 8
  if !bitAt ent 0 || bitsAt ent 46 18 != 0 || bitsAt ent 1 11 != 0 then .fault
  else s.walkFrom va 4 (bitsAt ent 12 34 * 4096)

/-- The words that a walk reads from the table at t down. -/
def State.walkReads (s : State) (va : Nat) : Nat → Nat → List Nat
  | 0, _ => []
  | lvl + 1, t =>
    let a := t + 8 * bitsAt va (16 + 9 * lvl) 9
    if s.tableBad a then [] else
    let pte := s.peekNum a 8
    a :: (if bitAt pte 0 && !bitAt pte 1 then s.walkReads va lvl (bitsAt pte 12 34 * 4096) else [])

/-- A walk has read its words: the lines that it hit move in their sets (R157). -/
def State.walked (s : State) (asid va : Nat) : State :=
  let a := s.forme.astbase.toNat + 8 * asid
  if s.tableBad a then s
  else (a :: s.walkReads va 4 (bitsAt (s.peekNum a 8) 12 34 * 4096)).foldl (fun s w => s.touched w 8) s

/-- Does an entry allow the access (R152)? -/
def allowed (pte : Nat) (n : Need) : Bool :=
  match n with
  | .read => bitAt pte 2
  | .write => bitAt pte 3
  | .fetch => bitAt pte 4

/-- The outcome of an access through a leaf: the permission, then the address (R152, R153). -/
def State.through (s : State) (big : Bool) (pte va : Nat) (n : Need) : Tr :=
  let pa := leafPa big pte va
  if !allowed pte n then .fault 0x0021
  else if (s.window pa).isNone then .fault 0x0023
  else .ok pa (bitsAt pte 8 2)

/-- The TLB entry of an address; a write through an entry whose D bit is clear walks again to set it (R151, R172). -/
def Cluster.tlbFind (c : Cluster) (asid va : Nat) (n : Need) : Option TlbEntry :=
  c.tlb.find? fun e => e.asid == asid && va / 2 ^ pageBits e.big == e.vpage && (n != .write || e.pte.getLsbD 7)

/-- Translation by the TLB alone; `pending` on a miss. -/
def State.tlbLookup (s : State) (k asid va : Nat) (n : Need) : Tr :=
  if 2 ^ 52 ≤ va then .fault 0x0020
  else match (s.cluster k).tlbFind asid va n with
    | some e => s.through e.big e.pte.toNat va n
    | none => .pending

/-- Enter a page in a cluster's TLB; a full TLB gives up an entry of its choice (log 12). -/
def State.tlbFill (s : State) (k asid va : Nat) (big : Bool) (pte : Nat) : State :=
  let e : TlbEntry := ⟨asid, va / 2 ^ pageBits big, big, .ofNat 64 pte⟩
  let keep := ((s.cluster k).tlb.filter fun x => !(x.asid == e.asid && x.big == e.big && x.vpage == e.vpage))
  if keep.length < 2048 then s.modCluster k fun c => { c with tlb := keep ++ [e] }
  else
    let v := s.freshBits 11
    v.2.modCluster k fun c => { c with tlb := keep.eraseIdx v.1.toNat ++ [e] }

/-- A walk for an access of cluster k: sets A, and D for a write, fills the TLB, and gives the outcome (R151, R152). -/
def State.xlate (s : State) (k asid va : Nat) (n : Need) : Tr × State :=
  match s.tlbLookup k asid va n with
  | .pending =>
    let w := s.walked asid va
    match s.walk asid va with
    | .fault => (.fault 0x0020, w)
    | .nonres .. => (.nonres, w)
    | .hold => (.pending, s)
    | .page big a pte =>
      if !allowed pte n then (.fault 0x0021, w)
      else
        let pte' := (pte ||| 0x40) ||| (if n = .write then 0x80 else 0)
        let s1 := if pte' = pte then w else w.agentWrite a (toBytes 8 pte')
        (s1.through big pte' va n, s1.tlbFill k asid va big pte')
  | t => (t, s)

/-- The region of a cluster whose stash mapping holds an address, with the offset in it (R162). -/
def Cluster.stashAt (c : Cluster) (asid va : Nat) : Option (Nat × Nat) :=
  (c.regions.find? fun e => match e.2.map with
    | some (b, a) => a == asid && b ≤ va && va < b + 2 ^ 17
    | none => false).bind fun e => e.2.map.map fun m => (e.1, va - m.1)

end Sys2Proof.Machine
end

