-- ==== Sys2Proof/Machine/Access.lean ====
section
/-!
DEFINITION. Accesses of a context to memory: their place in program order (R184 to R193), the gated store buffer (R92),
deferred faults (R445 to R447), and the delivery of loaded values (R315).
-/
namespace Sys2Proof.Machine

/-! ## Deferred faults (R445 to R448) -/

/-- TINFO's detail of a far access (R441). -/
def farDetail (cls va : Nat) : Nat := cls * 2 ^ 36 + bitsAt va 16 36

/-- A fault recorded for a group past its EXIT (R447): LATEF; the launch ends with FAULT. -/
def State.lateFault (s : State) (k c cause : Nat) : State :=
  (s.logCtx 0x0018 2 k k c 0 cause).soon [.launchFault ((s.ctx k c).bnd.launch - 1)]

/-- Record a fault of context c of cluster k; one that finds 8 entries is only logged, and one past the release of
EXIT is late (R447). -/
def State.defer (s : State) (k c : Nat) (d : Defer) : State :=
  if (s.ctx k c).wait = .exit then s.lateFault k c (bitsAt d.tcause.toNat 0 16)
  else if (s.ctx k c).defer.length < 8 then s.modCtx k c fun x => { x with defer := x.defer ++ [d] }
  else (s.modCtx k c fun x => { x with lost := true }).logCtx 0x0019 2 k k c 0 (bitsAt d.tcause.toNat 0 16)

/-- The binding facts of an access's group, for reports that may find it elsewhere. -/
def Access.bnd (a : Access) : Binding :=
  { Binding.none with launch := a.launch, handle := a.handle, group := a.group, gen := a.gen }

/-! ## Reports to a group, wherever it is (R446, R447) -/

/-- Where a group is. -/
def State.groupSt (s : State) (launch group : Nat) : GroupSt :=
  if launch = 0 then .exited
  else match s.launch? (launch - 1) with
    | some l => sget .unbound l.groups group
    | none => .exited

/-- Is context c of cluster k bound to the group? -/
def State.holdsGroup (s : State) (k c : Nat) (b : Binding) : Bool :=
  let x := s.ctx k c
  x.st != .free && x.st != .binding && x.bnd.launch == b.launch && x.bnd.group == b.group

/-- A fault of a group: recorded in its context, kept with its save record, or late (R446, R447). -/
def State.groupFault (s : State) (k c : Nat) (b : Binding) (d : Defer) : State :=
  if s.holdsGroup k c b then s.defer k c d
  else match s.groupSt b.launch b.group with
    | .bound k' c' => s.defer k' c' d
    | .saved _ => s.modLaunch (b.launch - 1) fun l => { l with kept := l.kept ++ [(b.group, d)] }
    | _ =>
      (s.logErr ⟨0x0018, 2, k, b.handle, b.group, 1, 0, .ofNat 192 (bitsAt d.tcause.toNat 0 16)⟩).soon
        (if b.launch = 0 then [] else [.launchFault (b.launch - 1)])

/-- Is an entry due: every one at a MARK; at another release point those not reported from a destination, and those that a
MARK has found due before; none in a trap handler (R444 to R447)? (DEDUCED, log 51) -/
def Defer.isDue (d : Defer) (mark : Bool) : Bool := mark || !d.dest || d.due

/-- The due entry of oldest issue (R447) (DEDUCED, log 51). -/
def Ctx.dueFault (x : Ctx) (mark : Bool) : Option Defer :=
  if x.trapm then none
  else (x.defer.filter fun d => d.isDue mark).foldl (fun o d => match o with
    | some e => if d.ord < e.ord then some d else o
    | none => some d) none

/-- The entries that a fault leaves when it is taken: those that a MARK found due stay due (R447). -/
def Ctx.leaves (x : Ctx) (d : Defer) (mark : Bool) : List Defer :=
  (eraseFirst (fun e => decide (e = d)) x.defer).map fun e => { e with due := e.due || mark }

/-- Take a deferred fault in place of the instruction in issue: a page that is not resident goes to the pager; LOST is
reported once, with the first fault that is delivered (R443, R447, R448). -/
def State.takeFault (s : State) (d : Defer) (mark : Bool) : State :=
  let k := s.cur.cl.toNat
  let c := s.cur.ctx.toNat
  let x := s.me
  let s1 := s.modMe fun y => { y with defer := y.leaves d mark }
  let tc := if x.lost then d.tcause ||| 0x10000000 else d.tcause
  match (if x.nr then none else d.pager) with
  | some vp =>
    let r := s1.freshId
    (r.2.modForme fun m => { m with pager := m.pager ++ [⟨r.1, x.bnd.asid, vp, none⟩] }).deliver k c tc (x.deferInfo d)
      (some r.1)
  | none => (s1.modMe fun y => { y with lost := false }).deliver k c tc (x.deferInfo d) none

/-! ## Program order -/

/-- Is an access of the thread group of a binding? -/
def Access.ofGroup (a : Access) (b : Binding) : Bool := a.launch == b.launch && a.group == b.group

/-- Is an access of the thread group that issued b, in this binding of it or an earlier one (R204)? -/
def Access.sameCtx (a b : Access) : Bool := a.launch == b.launch && a.group == b.group

/-- Performed, refused, or never to perform anything. -/
def Access.over (a : Access) : Bool :=
  a.st == .performed || a.st == .refused || a.st == .done ||
    (match a.tr with | .fault _ => true | .nonres => a.eng == 0 | _ => false)

/-- Kinds of access for R184 and R187: an ATOM or RFLUSH counts as both a load and a store. -/
def Access.isLoad (a : Access) : Bool :=
  match a.op with
  | .load => true | .atom .. => true | .rfetch => true | .rflush => true | .cbtake => true | _ => false
def Access.isStore (a : Access) : Bool :=
  match a.op with
  | .store => true | .atom .. => true | .red .. => true | .rflush => true | .clean => true | .flush => true
  | .hmsg _ => true | .cbdone _ => true | _ => false

/-- Is an access over at a scope: SYS (4) or a narrower one? A write of host memory is performed at MOD when the slice at
MC0 has accepted it (R181). -/
def Access.overAt (a : Access) (scope : Nat) : Bool :=
  a.over || (decide (scope < 4) && a.st == .home && a.isStore && !a.isLoad && (match a.tr with | .ok _ 1 => true | _ => false))

/-- A plain store, whose held bytes the context's own loads see (R92). -/
def Access.isPlainStore (a : Access) : Bool := a.op == .store

/-- Does an LDX access fill a galley entry? -/
def Access.isLdx (a : Access) : Bool :=
  match a.dst with
  | .galley .. => true
  | _ => false

/-- Does an access read or write bytes of memory? -/
def Access.isData (a : Access) : Bool :=
  match a.op with
  | .hmsg _ => false | .cbtake => false | .cbdone _ => false | .fence => false | .pref => false | _ => true

/-- Does a class mask hold an access's class? -/
def inMask (m : BitVec 16) (c : Nat) : Bool := m.getLsbD c

/-- The open window that names an address (R177, R179). -/
def State.windowAt (s : State) (pa : Nat) : Option RedWin :=
  s.forme.windows.find? fun w => w.base ≤ pa && pa < w.base + w.len

/-- The location that a physical local address stands for: that of the stash granule which holds it, or its own (R162). -/
def State.granSpot (s : State) (k p : Nat) : Nat × Nat :=
  match (((s.cluster k).region (p / 2 ^ 17)).gran.find? fun g => g.idx == p % 2 ^ 17 / 4096).bind (·.pa) with
  | some pa => (0, s.linear (pa + p % 4096))
  | none => (3, p)

/-- Where the first byte of a translated access lies: space (0 device memory, by linear address; 1 host memory; 2 registers;
3 local store) and address. -/
def State.spot (s : State) (a : Access) : Option (Nat × Nat) :=
  match a.tr with
  | .ok p 0 => some (0, s.linear p)
  | .ok p 3 => some (s.granSpot a.cl p)
  | .ok p m => some (m, p)
  | _ => none

/-- Which locations of a window's element an access has: the element in memory, its shadow (R184, R196). -/
def State.elementShadow (s : State) (a : Access) : Bool × Bool :=
  let inWin := match a.tr with
    | .ok p 0 => (s.windowAt p).isSome
    | _ => false
  match a.op with
  | .red .. => (!inWin, inWin)
  | .rfetch => (!inWin, inWin)
  | .rflush => (true, inWin)
  | _ => (true, false)

/-- Is an access one of local store that no stash granule stands for? -/
def State.plainLocal (s : State) (a : Access) : Bool :=
  match a.tr with
  | .ok p 3 => ((s.cluster a.cl).region (p / 2 ^ 17)).map.isNone
  | _ => false

/-- Do two accesses have a common location (R184)? One that is not translated yet may have, with any but plain local
bytes. -/
def State.meets (s : State) (a b : Access) : Bool :=
  a.isData && b.isData &&
    match s.spot a, s.spot b with
    | some p, some q =>
      let x := s.elementShadow a
      let y := s.elementShadow b
      p.1 == q.1 && p.2 < q.2 + b.len && q.2 < p.2 + a.len && (x.1 && y.1 || x.2 && y.2)
    | _, _ => !(s.plainLocal a || s.plainLocal b)

/-- Must access a wait for the end of the earlier access b: a common location, far accesses of one class, local accesses,
the register windows? LDX is ordered by FENCE, STRL and R192 alone (R184, R187, R197). The elements of one LDG or STX keep
their order, and a CBDONE counts as a store of class 0 (DESIGN CHOICE, log 101). -/
def State.follows (s : State) (a b : Access) : Bool :=
  let forwards := !a.isStore && b.isPlainStore && b.st == .held && b.tr != .pending
  let class' := !a.loc && !b.loc && a.cls == b.cls && a.op != .fence && b.op != .fence &&
    ((b.isLoad && (a.isLoad || a.isStore)) || (b.isStore && a.isStore))
  let local' := a.loc && b.loc && b.st != .held
  let regs := match a.tr, b.tr with
    | .ok _ 2, .ok _ 2 => true
    | _, _ => false
  !a.isLdx && !b.isLdx && ((s.meets a b && !forwards) || class' || local' || regs)

/-- Does a release or an acquire order access a after the earlier access b, which is not yet performed at its scope (R189,
R190, R192)? -/
def Access.orderedAfter (a b : Access) : Bool :=
  (match a.rel with
    | some (x, m) => b.op != .fence && !b.overAt x && (inMask m b.cls || (a.op != .fence && b.cls == a.cls))
    | none => false) ||
  (match b.acq with
    | some (x, m) => a.op != .fence && !b.overAt x && (inMask m a.cls || (b.op != .fence && a.cls == b.cls))
    | none => false)

/-- The class and the hint of a job's accesses: BIND and UNBIND store as the galley that they unbind (R343). -/
def Copy.stores (y : Copy) : Copy :=
  match y.op with
  | .bind (some g) => { y with cls := g.cls, hint := g.hint }
  | .unbind (some g) => { y with cls := g.cls, hint := g.hint }
  | _ => y

/-- Do copies of a group, issued in this binding before the id, of a class in the mask, remain unperformed at a scope, or
write-galley entries pushed before it (R188, R197, R339)? -/
def State.copiesPending (s : State) (k c id : Nat) (b : Binding) (scope : Nat) (m : BitVec 16) : Bool :=
  ((s.cluster k).copies.any fun y =>
    y.ctx == c && y.bnd.launch == b.launch && y.bnd.group == b.group && y.bnd.gen == b.gen && y.id < id && inMask m y.stores.cls) ||
  ((s.cluster k).galleys.any fun e => e.2.ctx == c && e.2.kind == .wr && inMask m e.2.cls && e.2.q.any fun q => q.1 < id) ||
  s.accs.any fun a =>
    a.cl == k && a.ctx == c && a.ofGroup b && a.gen == b.gen && a.eng != 0 && a.eng - 1 < id && inMask m a.cls && a.isStore &&
      !a.overAt scope

/-- The context that holds the group of an access now, with its OWED counts (R103). -/
def State.owedOf (s : State) (a : Access) : Sparse Nat :=
  if (s.ctx a.cl a.ctx).bnd.launch = a.launch ∧ (s.ctx a.cl a.ctx).bnd.group = a.group then (s.ctx a.cl a.ctx).owed
  else match (s.launch? (a.launch - 1)).map fun l => sget GroupSt.unbound l.groups a.group with
    | some (.bound k c) => (s.ctx k c).owed
    | _ => []

/-- Is a FENCE or ordering point still unmet: an earlier access or copy of its classes is not performed at its scope, or a
count of OWED is not zero (R188)? -/
def State.fencePending (s : State) (f : Access) : Bool :=
  match f.rel with
  | none => false
  | some (x, m) =>
    (s.accs.any fun b => b.sameCtx f && b.id < f.id && b.eng == 0 && b.op != .fence && !b.overAt x && inMask m b.cls) ||
    (f.copies && s.copiesPending f.cl f.ctx f.id f.bnd x m) ||
    (List.range 16).any fun i => inMask m i && sget 0 (s.owedOf f) i != 0

/-- Does a FENCE or ordering point hold back a later access or copy of a class? A DBAR not yet released holds every
class (R97, R188, R192). -/
def State.fenceHolds (s : State) (b : Access) (cls : Nat) : Bool :=
  (match b.rel with
    | some (_, m) => inMask m cls && s.fencePending b
    | none => false) ||
  (match b.acq with
    | some (_, m) => inMask m cls && !b.over
    | none => false)

/-- May an access perform now (R184, R187 to R192)? A resumption takes no order away (R204). What orders far accesses by
class holds back no access to local store, which has none (R186, R187). -/
def State.mayPerform (s : State) (a : Access) : Bool :=
  s.accs.all fun b =>
    if a.eng ≠ 0 ∨ b.eng ≠ 0 ∨ a.id ≤ b.id ∨ b.sameCtx a = false then true
    else if b.op = .fence then a.loc || !(s.fenceHolds b a.cls)
    else (b.over || !s.follows a b) && (a.loc || !a.orderedAfter b)

/-- Does the arc stop of a cluster's chiplet still inject requests (R22)? -/
def State.injects (s : State) (k : Nat) : Bool :=
  match s.chip (k / 4) with
  | .quiesce .. => false
  | _ => true

/-- A store-release or an ordering point also waits for copies (R189, R192); a quiesced stop sends nothing on (R22). -/
def State.mayPerformAll (s : State) (a : Access) : Bool :=
  (a.st != .sent || a.loc || s.injects a.cl) && s.mayPerform a && !(match a.rel with
    | some (x, m) => a.copies && s.copiesPending a.cl a.ctx a.id a.bnd x m
    | none => false)

/-! ## Issue -/

/-- An access of the slot in issue, with its defaults (DEDUCED, log 19). -/
def State.newAcc (s : State) (op : AccOp) (va len : Nat) (cls : Cls) (hint : Hint) : Access :=
  let x := s.me
  { id := s.nextId, cl := s.cur.cl.toNat, ctx := s.cur.ctx.toNat, gen := x.bnd.gen, ord := x.ord, sub := false,
    slot := s.cur.slot, bpc := s.cur.bpc, op := op, va := va, asid := x.bnd.asid, tenant := x.bnd.tenant,
    handle := x.bnd.handle, launch := x.bnd.launch, group := x.bnd.group, len := len, data := [], cls := cls.toNat,
    hint := hint, acq := none,
    rel := none, copies := false, dst := .none, tag := 0, spec := false, tr := .pending, st := .sent, missDone := false,
    redirect := none, owed := false, eng := 0, loc := false }

/-- Enter an access in the list; the context's program order advances. -/
def State.addAcc (s : State) (a : Access) : State :=
  { s.modMe fun x => { x with ord := x.ord + 1 } with accs := s.accs ++ [a], nextId := s.nextId + 1 }

/-- TCAUSE of a fault of an access. -/
def Access.tcause (a : Access) (cause : Nat) : BitVec 32 := tcauseOf (some a.slot) false cause
def Access.tinfo (a : Access) : BitVec 64 := tinfoOf a.bpc (farDetail a.cls a.va)

/-- What an access needs of its page (R152, R333) (DEDUCED, log 38). -/
def Access.needs (a : Access) : Need :=
  match a.op with
  | .load => .read | .rfetch => .read | .pref => .read | .hmsg _ => .read | .clean => .read | .flush => .read
  | _ => .write

/-- A load's result in flight takes a value; it is ready when every part of it has returned (R315). -/
def State.fillPend (s : State) (k c tag : Nat) (f : VWord → VWord) (psn : Bool) : State :=
  let more := s.accs.any fun a => a.tag == tag && a.cl == k && a.ctx == c && a.st != .done && tag != 0
  s.modCtx k c fun x =>
    { x with
      pend := mapIf (fun p => p.tag == tag) (fun p => { p with val := f p.val, psn := p.psn || psn, ready := !more }) x.pend }

/-- The destination of an LDS whose access faults, or of a load that is refused, is written poisoned (R318, R466). -/
def State.poisonDst (s : State) (a : Access) : State :=
  let r := s.freshBits 1024
  r.2.fillPend a.cl a.ctx a.tag (fun _ => r.1) true

/-- Set the state of an access. -/
def State.setAcc (s : State) (id : Nat) (f : Access → Access) : State := s.modAccs (fun a => a.id == id) f

/-- Fill the entry with a tag. -/
def Galley.fill (g : Galley) (tag : Nat) (v : VWord) : Galley :=
  { g with q := mapIf (fun q => q.1 == tag) (fun q => (q.1, some v)) g.q }

/-- Change the galley that a BIND or UNBIND unbinds. -/
def CopyOp.mapOld (o : CopyOp) (f : Galley → Galley) : CopyOp :=
  match o with
  | .bind old => .bind (old.map f)
  | .unbind old => .unbind (old.map f)
  | o => o

/-- Change every galley of a cluster, bound or being unbound. -/
def Cluster.mapGalleys (c : Cluster) (f : Galley → Galley) : Cluster :=
  { c with galleys := c.galleys.map fun e => (e.1, f e.2),
           copies := c.copies.map fun y => { y with op := y.op.mapOld f } }

/-- Fill the entry of a galley that an LDX or a push owes, in a galley being unbound too (R250, R320, R343). -/
def State.fillGalley (s : State) (k tag : Nat) (v : VWord) : State :=
  s.modCluster k fun c => c.mapGalleys fun g => g.fill tag v

/-- Pushes in flight fill their entries at once: a stop or an exit loses no value pushed before it (R82, R169). -/
def State.landPushes (s : State) (k c : Nat) : State :=
  (s.ctx k c).pend.foldl (fun s p => match p.dst with
    | .push _ => s.fillGalley k p.tag p.val
    | _ => s) s

/-- The page of an engine's access is requested from the pager (R175, R448). -/
def State.askPager (s : State) (asid va : Nat) : State :=
  if s.forme.pager.any fun p => p.asid == asid && p.vpage == va / 2 ^ 16 then s
  else { s.modForme fun m => { m with pager := m.pager ++ [⟨s.nextId, asid, va / 2 ^ 16, none⟩] } with nextId := s.nextId + 1 }

/-- An engine access of a context ends: ENGINE is recorded, due at the next MARK (R446, R468). -/
def State.engineFault (s : State) (k c : Nat) (slot : SlotNo) (bpc ord cls va : Nat) : State :=
  s.defer k c ⟨tcauseOf (some slot) false 0x0025, tinfoOf bpc (farDetail cls va), true, ord, none, false⟩

/-- Is a fault of a cause that an access finds in its cluster one reported from a destination: ENGINE of a fill that met a
poison mark (R446, R480)? -/
def fromDest (cause : Nat) : Bool := cause == 0x0025

/-- A fault that the access of the slot in issue takes with it: charged, with its virtual page for the pager when it is not
resident (R445, R448, R500). -/
def State.issueFault (s : State) (cause cls va : Nat) : State :=
  s.defer s.cur.cl.toNat s.cur.ctx.toNat
    ⟨tcauseOf (some s.cur.slot) false cause, tinfoOf s.cur.bpc (farDetail cls va), fromDest cause, s.nextId,
      if cause = 0x22 then some (va / 2 ^ 16) else none, false⟩

/-- A LDX access that fails leaves its entry undefined; ENGINE goes to its group (R447, R468). -/
def State.ldxFail (s : State) (a : Access) : State :=
  let r := s.freshBits 1024
  match a.dst with
  | .galley .. => (r.2.fillGalley a.cl a.tag r.1).groupFault a.cl a.ctx a.bnd ⟨a.tcause 0x0025, a.tinfo, true, a.id, none, false⟩
  | _ => s

/-- A watch whose access faults ends; its register receives an undefined value (R323, R466). -/
def State.endWatch (s : State) (a : Access) (n : AReg) (v : Word) : State :=
  if (s.ctx a.cl a.ctx).wait = .watch a.id then
    (s.modCtx a.cl a.ctx fun x =>
      { x with st := .ready, wait := .none, regs := { x.regs with a := sset 0 x.regs.a n.toNat v } }).keepHalted a.cl a.ctx
  else s

/-- What a failed access leaves of its destination beside the fault: a watch ends. -/
def State.dropDst (s : State) (a : Access) : State :=
  match a.dst with
  | .watch n _ => let r := s.freshBits 64; r.2.endWatch a n r.1
  | .tile .. => s.modCluster a.cl fun c => c.rsbDrop a.id
  | _ => s

/-- A translation has failed: an LDS takes poison, a PREF is dropped, any other access records its fault (R318, R322,
R445). -/
def State.accFault (s : State) (a : Access) (cause : Nat) (pager : Option Nat) : State :=
  let s1 := s.setAcc a.id fun b => { b with st := if b.st = .held then .held else .done }
  if a.eng ≠ 0 then (s.setAcc a.id fun b => { b with st := .refused }).soon [.engineAccessAbandon (a.eng - 1)]
  else if a.op = .pref then s1
  else if a.spec then s1.poisonDst a
  else if a.isLdx then s1.ldxFail a
  else (s1.dropDst a).defer a.cl a.ctx ⟨a.tcause cause, a.tinfo, fromDest cause, a.id, pager, false⟩

/-- The bounce buffer's bytes for a read, when it holds all of them (R175) (DESIGN CHOICE, log 82). -/
def State.bounceBytes (s : State) (asid va n : Nat) : Option (List Byte) :=
  (List.range n).mapM fun i =>
    (s.forme.bounce.find? fun b => b.asid == asid && b.vline == (va + i) / 256 && b.mask.getLsbD ((va + i) % 256)).map
      fun b => .ofNat 8 (b.data.toNat / 2 ^ (8 * ((va + i) % 256)))

/-- Enter a translation in an access and go on: to its home when it is released and resident (R445). A load of a page
that is not resident is served from the bounce buffer when it can be (R175); so is an RFETCH, which no window holds there
(R326). -/
def State.setTr (s : State) (a : Access) (t : Tr) : State :=
  let s1 := s.setAcc a.id fun b => { b with tr := t }
  match t with
  | .pending => s1.soon [.pageWalk a.id]
  | .ok _ mt =>
    if (match a.op with | .hmsg _ => true | _ => false) && mt == 1 then
      (s1.setAcc a.id fun b => { b with tr := .fault 0x23 }).accFault a 0x0023 none
    else if a.st = .sent then s1.soon [.homeAccess a.id] else s1
  | .fault c => s1.accFault a c none
  | .nonres =>
    match (if a.op = .load ∨ a.op = .rfetch then s.bounceBytes a.asid a.va a.len else none) with
    | some bs =>
      (s1.setAcc a.id fun b => { b with data := bs, st := .performed, tr := .ok 0 0 }).soon [.farLoadReturn a.id]
    | none =>
      if a.eng ≠ 0 ∧ a.op = .store then s1.soon [.bounceWrite a.id]
      else if a.isLdx ∨ a.eng ≠ 0 then (s1.setAcc a.id fun b => { b with tr := .pending }).askPager a.asid a.va
      else s1.accFault a 0x0022 (some (a.va / 2 ^ 16))

/-- Does the stash serve an access whose address falls in a mapped range (R162)? LDA, STRL, ATOM and RED are performed at
the home (R160, R190, R194), and so is what names a line or a window there (DEDUCED, log 87); an RFETCH is translated first,
since it may name a window's element (R326). -/
def Access.stashable (a : Access) : Bool :=
  a.acq.isNone && a.rel.isNone && (match a.op with
    | .load => true | .store => true | .pref => true | _ => false)

/-- The place in the cluster's stash that serves an access: a physical local address (R162). -/
def State.stashSpot (s : State) (a : Access) : Option Nat :=
  if a.stashable then ((s.cluster a.cl).stashAt a.asid a.va).map fun e => e.1 * 2 ^ 17 + e.2 else none

/-- Issue a far access: it is translated when it issues (R445); one that the stash serves is translated on the granule's
fill and writeback alone (R162). -/
def State.issueFar (s : State) (a : Access) : State :=
  match (match a.tr with | .ok p 3 => some p | _ => s.stashSpot a) with
  | some p => if a.st = .sent then (s.addAcc { a with tr := .ok p 3 }).soon [.homeAccess a.id] else s.addAcc { a with tr := .ok p 3 }
  | none => (s.addAcc a).setTr a (s.tlbLookup a.cl a.asid a.va a.needs)

/-- The virtual address that a physical local address in a mapped STASH region stands for (R160, R162). -/
def State.granVa (s : State) (k p : Nat) : Option Nat :=
  let r := (s.cluster k).region (p / 2 ^ 17)
  if r.mode = .stash then r.map.map fun m => m.1 + p % 2 ^ 17 else none

/-- An access of the context in issue to local store: no translation; its faults name the virtual address of a granule's
byte (R160, R162). -/
def State.localAcc (s : State) (a : Access) : Access :=
  let p := s.physLocal a.va
  { a with loc := true, tr := .ok p 3, va := (s.granVa a.cl p).getD a.va }

/-! ## The gated store buffer (R92) -/

/-- Writes held for a context. -/
def State.heldCount (s : State) (k c : Nat) : Nat := (s.accs.filter fun a => a.heldBy k c && !a.sub).length

/-- SBFULL: the buffer holds 256 writes (R455). -/
def State.sbCheck (s : State) : Option Trap :=
  if s.heldCount s.cur.cl.toNat s.cur.ctx.toNat < 256 then none else some (s.trapOf 0x0016 0)

/-- Write local bytes, clearing the poison marks of whole units (R480). -/
def State.writeLocal (s : State) (k phys : Nat) (bs : List Byte) : State :=
  (s.modCluster k fun c => c.locWrite phys bs).clearLoc k 1 phys bs.length

/-- Release one held write: a plain local one is performed when no earlier local access is still to perform (R187); any
other is sent on, and one that faulted performs nothing. -/
def State.releaseOne (s : State) (a : Access) : State :=
  match a.tr with
  | .ok phys 3 =>
    if s.plainLocal a && s.mayPerform a then
      { s.writeLocal a.cl phys a.data with accs := s.accs.filter fun b => b.id != a.id }
    else s.setAcc a.id fun b => { b with st := .sent }
  | .ok .. => s.setAcc a.id fun b => { b with st := .sent }
  | .pending => s.setAcc a.id fun b => { b with st := .sent }
  | _ => { s with accs := s.accs.filter fun b => b.id != a.id }

/-- The writes that a release has sent to their homes or granules, in program order. -/
def State.sentOn (s : State) (held : List Access) : List Instr :=
  (held.filter fun a => a.tr != .pending && (s.acc? a.id).isSome).map fun a => .homeAccess a.id

/-- A release sends the held writes on in program order (R92). -/
def State.release (s : State) (k c : Nat) : State :=
  let held := s.accs.filter fun a => a.heldBy k c
  let s1 := held.foldl State.releaseOne s
  s1.soon (s1.sentOn held)

/-- Are all accesses of the context translated that were issued before this point (R445)? -/
def State.untranslated (s : State) : Bool :=
  s.accs.any fun a => a.ofGroup s.me.bnd && a.tr == .pending && a.op != .fence && a.op != .cbtake && a.eng == 0 && !a.over

/-- The fault check of a release point (R445): the fault taken in the instruction's place. -/
def State.releaseFault (s : State) (mark : Bool) : Option Defer := s.me.dueFault mark

/-- The rest of the bundle is held from the slot in issue on, until the context is selected again; a wait that an
earlier slot of the bundle has begun comes first. What the slots read stays as at issue, except where the Y slot itself
waits: then the whole bundle issues at its arrival (R278, R378). -/
def State.holdRest (s : State) (w : Wait) : State :=
  let rest := s.cur.slot :: s.slotNos
  (s.ends .hold).endBundle.modMe fun x =>
    { x with st := .blocked, wait := if x.wait = .none then w else x.wait, rest := rest,
             restSnap := if s.cur.slot = .y then none else some (s.snap, s.snapPend, s.snapSys) }

/-- A slot that begins a wait of its context comes after a wait that an earlier slot of its bundle has begun. -/
def State.afterWait (s : State) (o : Out) : Out := if s.me.wait = .none then o else .next (s.holdRest .retry)

/-- A release point: it waits for translations, takes a due fault, or has its effect (R445). The wait comes before
anything of the instruction. -/
def State.releasePoint (s : State) (mark : Bool) (eff : State) : Out :=
  if s.untranslated then .next (s.holdRest .retry)
  else match s.releaseFault mark with
    | some d => .next ((s.ends .hold).takeFault d mark)
    | none => .next eff

/-- An ordering point of the context: every earlier access of the classes, at a scope (R188, R192). -/
def State.orderPoint (s : State) (scope : Nat) (m : BitVec 16) (copies : Bool) : State :=
  s.addAcc { s.newAcc .fence 0 0 0 .none with rel := some (scope, m), copies := copies, tr := .ok 0 0 }

/-- Has every earlier access and copy of a group, of every class, been performed at a scope (R97, R277, R383)? -/
def State.allPerformed (s : State) (k c id : Nat) (b : Binding) (scope : Nat) : Bool :=
  !(s.accs.any fun a => a.ofGroup b && a.id < id && a.eng == 0 && a.op != .fence && !a.overAt scope) &&
    !(s.copiesPending k c id b scope 0xFFFF)

end Sys2Proof.Machine
end

