-- ==== Sys2Proof/Machine/Energy.lean ====
section
/-!
DEFINITION. The energy grant as a cluster keeps it (R432 to R435, R489): windows of 256 cycles, declared use, allowance,
grant stalls and held SGOs.
-/
namespace Sys2Proof.Machine

/-- Stream chiplet of a cluster: four clusters to a chiplet (R13). -/
def chipOf (k : Nat) : Nat := k / 4

/-- EGRANT of a cluster under GRANT, throttling and halvings (R422, R489) (DEDUCED, log 79). -/
def State.grantFor (s : State) (k : Nat) : Nat :=
  let g := max 1 (s.forme.grant.toNat % 65536)
  max (g / 8) ((if s.forme.throttled.contains (chipOf k) then g / 4 else g) / 2 ^ s.forme.halvings)

/-- RAMP (R433). -/
def State.ramp (s : State) : Nat := 3328 * max 20 (min 1200 s.forme.slewlim.toNat) / (9 * s.nclus)

/-- The nest that owns a plane, in flight or queued (R59, R367). -/
def Plane.owner (p : Plane) : Option Nest :=
  match p.nest with
  | some n => some n
  | none => p.queue.findSome? fun o => match o with
    | .sgo n => some n
    | _ => none

/-- Declared energy per cycle of the nests of the cluster that have started: a queued SGO is charged from its nest's start
cycle (R366, R432). -/
def Cluster.nestPower (c : Cluster) : Nat :=
  c.planes.foldl (fun n e => n + (e.2.nest.map Nest.new).getD 0) 0

/-- The window boundary: the allowance of the window that the present cycle lies in (R432, R433). A window in which the
cluster selected nothing used its nests' charges alone. -/
def State.energyRoll (s : State) (k : Nat) : State :=
  let w := s.cycle / 256
  let c := s.cluster k
  if c.win = w + 1 then s
  else
    let n := 256 * c.nestPower
    let d := if c.win = 0 then 0 else if c.win = w then (if c.eheld || c.estall then c.al else c.u) else n
    s.modCluster k fun c =>
      { c with win := w + 1, dd := d, al := min (s.grantFor k) (d + s.ramp), u := n, nestU := n, eheld := false,
               estall := false, first := true, egrant := .ofNat 16 (s.grantFor k) }

/-- Cycles left in the window, the present one included. -/
def State.cyclesLeft (s : State) : Nat := 256 - s.cycle % 256

/-- Must a bundle of weight ew give way to a stall bundle (R434)? -/
def Cluster.grantStall (c : Cluster) (ew : Nat) : Bool := c.estall || (!c.first && c.al < c.u + ew)

/-- Is an SGO that declares `new` held by the grant (R435)? -/
def State.sgoHeld (s : State) (c : Cluster) (new : Nat) : Bool :=
  decide (c.al < c.nestU + new * s.cyclesLeft) &&
    !(c.planes.all (fun e => e.2.owner.isNone) && c.al == c.egrant.toNat)

/-- The charge of a nest from its start to the end of the window (R432). -/
def State.chargeNest (s : State) (k new : Nat) : State :=
  s.modCluster k fun c => { c with u := c.u + new * s.cyclesLeft, nestU := c.nestU + new * s.cyclesLeft }

/-- ENERGY_WINDOW: the cluster sets its next allowance at a window boundary (R433). -/
def execEnergyWindow (k : ClusterNo) (s : State) : Out :=
  if s.nclus ≤ k.toNat then noUnit else .next (s.energyRoll k.toNat)

end Sys2Proof.Machine
end

