-- ==== Sys2Proof/Machine/Registers.lean ====
section
/-!
DEFINITION. The register window (R108, R109, R131, R132, R173, R174, R418, R422, R461): what a read returns, which event a
write is, and REGISTER_WRITE. Offsets are those of R418.
-/
namespace Sys2Proof.Machine

/-- MSTAT.STATE, and whether the module is READY (R423). -/
def State.mstate (s : State) : Nat := s.forme.mstat.toNat % 16
def State.isReady (s : State) : Bool := s.mstate == 5

/-! ## Counts of the compositor (R107, R109, R111, R117) -/

def State.pendOf (s : State) (q : Nat) : Nat :=
  (s.forme.launches.filter fun l => l.queue == q && l.st == .pending).length
def State.loanOf (s : State) (q : Nat) : Nat := s.pendOf q - 256
def State.poolFree (s : State) : Nat := 4096 - ((List.range 64).map s.loanOf).foldl (· + ·) 0
def State.runFree (s : State) : Nat := 1024 - (s.forme.launches.filter fun l => l.everRun).length
def State.queue (s : State) (q : Nat) : Queue := sget Queue.reset s.forme.queues q
def State.modQueue (s : State) (q : Nat) (f : Queue → Queue) : State :=
  s.modForme fun m => { m with queues := sset Queue.reset m.queues q (f (s.queue q)) }

/-! ## The conflict-batching unit's status (R132, R140, R144) -/

/-- Bodies of a constraint (R134). -/
def Constraint.bodies (c : Constraint) : List Nat := (List.range c.nb).map fun i => bitsAt c.body.toNat (24 * i) 24

/-- Has every admitted constraint been handed out? -/
def CbUnit.exhausted (x : CbUnit) : Bool :=
  x.sealed && x.window.isEmpty && x.groups.all fun g => g.members.all fun m => m.2.1
def CbUnit.nopen (x : CbUnit) : Nat := (x.groups.filter fun g => g.isOpen).length
def CbUnit.nfq (x : CbUnit) : Nat := (x.groups.filter fun g => !g.isOpen).length

/-- CBSTAT. -/
def CbUnit.stat (x : CbUnit) : Nat :=
  if x.launch.isNone then 0
  else 2 ^ 31 + x.sealed.toNat * 2 ^ 30 + x.exhausted.toNat * 2 ^ 29 + (x.exhausted && x.groups.isEmpty).toNat * 2 ^ 28 +
    (x.cberr != 0).toNat * 2 ^ 27 + x.window.length * 2 ^ 16 + x.nfq * 2 ^ 8 + x.nopen

/-- The four bytes at an offset of a unit's block (R131). -/
def State.cbWord (s : State) (u o : Nat) : Nat :=
  let x := s.unit u
  match o / 4 with
  | 0 => x.stat
  | 1 => x.tail.toNat
  | 2 => x.head.toNat
  | 3 => (x.launch.bind s.launch?).elim 0 Launch.handle
  | 4 => x.gform.toNat
  | 5 => x.gopen.toNat
  | 6 => x.gret.toNat
  | 7 => x.cdone.toNat
  | 8 => x.cberr.toNat
  | _ => 0

/-! ## Reads -/

/-- The four bytes at offset o of queue q's block (R108, R109). -/
def State.queueWord (s : State) (q o : Nat) : Nat :=
  let x := s.queue q
  match o / 4 with
  | 0 => x.qbase.toNat % 2 ^ 32
  | 1 => x.qbase.toNat / 2 ^ 32
  | 2 => x.qctl.toNat
  | 3 => s.pendOf q % 8192 * 65536 + s.loanOf q
  | 4 => x.qtail.toNat
  | 5 => x.qhead.toNat
  | _ => 0

/-- The four bytes at offset o of the walker block (R173). -/
def State.walkerWord (s : State) (o : Nat) : Nat :=
  let m := s.forme
  match o / 4 with
  | 0 => m.astbase.toNat % 2 ^ 32
  | 1 => m.astbase.toNat / 2 ^ 32
  | 2 => m.invaddr.toNat % 2 ^ 32
  | 3 => m.invaddr.toNat / 2 ^ 32
  | 4 => m.invlen.toNat % 2 ^ 32
  | 5 => m.invlen.toNat / 2 ^ 32
  | 6 => m.invcmd.toNat % 2 ^ 31
  | 7 => m.invbusy.toNat
  | 8 => min 2048 ((s.accs.filter fun a => a.tr == .pending).map fun a => (a.asid, a.va / 2 ^ 16)).eraseDups.length
  | 10 => m.bbbase.toNat % 2 ^ 32
  | 11 => m.bbbase.toNat / 2 ^ 32
  | _ => 0

/-- The four bytes at offset o of module control, the error log's registers in it (R422, R461). -/
def State.controlWord (s : State) (o : Nat) : Nat :=
  let m := s.forme
  match o / 4 with
  | 0 => m.mstat.toNat
  | 2 => m.grant.toNat
  | 3 => m.slewlim.toNat
  | 4 => s.ramp
  | 5 => m.droopcnt.toNat
  | 6 => m.droopstl.toNat
  | 7 => bitsAt m.degmap.toNat 0 32
  | 8 => bitsAt m.degmap.toNat 32 32
  | 9 => bitsAt m.degmap.toNat 64 32
  | 64 => m.elbase.toNat % 2 ^ 32
  | 65 => m.elbase.toNat / 2 ^ 32
  | 66 => 4096
  | 67 => m.elhead.toNat
  | 68 => m.eltail.toNat
  | 69 => m.ellost.toNat
  | 70 => m.elvec.toNat
  | _ => 0

/-- MSI-X entry number (port · 1024 + index) of an offset in the tables; reset: masked (PRESUMED, log 48). -/
def State.msix (s : State) (e : Nat) : BitVec 128 := sget (BitVec.twoPow 128 96) s.forme.msixTable e

/-- The four bytes at offset o of the MSI-X block (R416) (PRESUMED, log 48). -/
def State.msixWord (s : State) (o : Nat) : Nat :=
  let port := o / 0x8000
  let x := o % 0x8000
  if x < 0x4000 then bitsAt (s.msix (port * 1024 + x / 16)).toNat (8 * (x % 16)) 32
  else if x < 0x4080 then
    (List.range 32).foldl (fun n i =>
      if s.forme.msixPend.contains (port * 1024 + (x - 0x4000) * 8 + i) then n + 2 ^ i else n) 0
  else 0

/-- Is an offset covered by a row of R418 that a launch or the host may use? The die windows are firmware's
(DEDUCED, log 49). -/
def regCovered (o : Nat) : Bool :=
  o < 0x10000 || (0x10000 ≤ o && o < 0x11000) || (0x20000 ≤ o && o < 0x30000) || (0x1000000 ≤ o && o < 0x2000000)

/-- The four bytes at a multiple of 4 of the window. Before READY the compositor, the units and the walkers read their
reset values (R423); mailboxes read zero: firmware assigns no use to them here (R418, log 22). -/
def State.regWord (s : State) (o : Nat) : Nat :=
  let t := if s.isReady then s else { s with forme := { Forme.reset with mstat := s.forme.mstat } }
  if o = 0 then 1
  else if o = 4 then t.poolFree
  else if o = 8 then 4096 - t.forme.precredit.length
  else if o = 0xC then t.runFree
  else if 0x1000 ≤ o ∧ o < 0x2000 then t.queueWord ((o - 0x1000) / 0x40) (o % 0x40)
  else if 0x4000 ≤ o ∧ o < 0x4400 then t.cbWord ((o - 0x4000) / 0x100) (o % 0x100)
  else if 0x6000 ≤ o ∧ o < 0x6100 then t.walkerWord (o - 0x6000)
  else if 0x10000 ≤ o ∧ o < 0x11000 then s.controlWord (o - 0x10000)
  else if 0x20000 ≤ o ∧ o < 0x30000 then s.msixWord (o - 0x20000)
  else 0

/-- n bytes of the window. -/
def State.regRead (s : State) (o n : Nat) : List Byte :=
  (List.range n).map fun i => .ofNat 8 (s.regWord ((o + i) / 4 * 4) / 2 ^ (8 * ((o + i) % 4)))

/-! ## Configuration space (R416) -/

/-- The four bytes at offset o of port p's configuration space: Vendor ID, Device ID of the form, class code, BAR0 of 4 GiB,
the MSI-X capability, and as extended capabilities the CXL device DVSEC with the HDM range of 768 GiB and its
Memory_Active, Cache, IO and Mem capable, and the DOE mailbox. Where they stand is PCIe's and CXL's (PRESUMED, log 97). -/
def State.cfgWord (s : State) (p o : Nat) : Nat :=
  match o / 4 with
  | 0 => 0x1F5A + (if s.forme.degmap = 0 then 0xC960 else 0xC800) * 2 ^ 16
  | 1 => 0x00100000
  | 2 => 0x12000000
  | 4 => (sget 0 s.forme.bar0 p).toNat % 2 ^ 32 / 16 * 16 + 4
  | 5 => (sget 0 s.forme.bar0 p).toNat / 2 ^ 32
  | 13 => 0x40
  | 16 => 0x11 + 1023 * 2 ^ 16
  | 17 => 0x20000 + 0x8000 * p
  | 18 => 0x24000 + 0x8000 * p
  | 64 => 0x23 + 2 ^ 16 + 0x144 * 2 ^ 20
  | 65 => 0x1E98 + 0x3C * 2 ^ 20
  | 66 => 0x17 * 2 ^ 16
  | 70 => 0xC0
  | 71 => 1 + s.isReady.toNat * 2 + 2 * 2 ^ 13
  | 81 => 0x2E + 2 ^ 16
  | 84 =>
    let x := sget Mailbox.empty s.forme.boxes p
    x.err.toNat * 4 + (!x.rsp.isEmpty).toNat * 2 ^ 31
  | 86 => ((sget Mailbox.empty s.forme.boxes p).rsp.headD 0).toNat
  | _ => 0

/-! ## Writes -/

/-- The stated size of the writable register at an offset, 0 where there is none (R108, R131, R173, R422, R461). -/
def regSize (o : Nat) : Nat :=
  if 0x1000 ≤ o ∧ o < 0x2000 then
    (if o % 0x40 = 0 then 8 else if o % 0x40 = 8 ∨ o % 0x40 = 0x10 then 4 else 0)
  else if 0x4000 ≤ o ∧ o < 0x4400 then (if o % 0x100 = 4 ∨ o % 0x100 = 0x20 then 4 else 0)
  else if o = 0x6000 ∨ o = 0x6008 ∨ o = 0x6010 ∨ o = 0x6028 then 8
  else if o = 0x6018 then 4
  else if o = 0x10004 ∨ o = 0x10008 ∨ o = 0x1000C ∨ o = 0x1010C then 4
  else if o = 0x10118 then 2
  else if 0x20000 ≤ o ∧ o < 0x30000 ∧ o % 0x8000 < 0x4000 ∧ o % 4 = 0 then 4
  else 0

/-- The event of a write to a register that has behaviour of its own; none for the others. -/
def regEvent (o v : Nat) : Option (List Instr) :=
  if 0x1000 ≤ o ∧ o < 0x2000 ∧ o % 0x40 = 8 then
    some [.qctlWrite (.ofNat 6 ((o - 0x1000) / 0x40)) (.ofNat 64 (v % 2 ^ 32))]
  else if 0x1000 ≤ o ∧ o < 0x2000 ∧ o % 0x40 = 0x10 then
    some [.qtailWrite (.ofNat 6 ((o - 0x1000) / 0x40)) (.ofNat 64 (v % 2 ^ 32))]
  else if 0x4000 ≤ o ∧ o < 0x4400 ∧ o % 0x100 = 4 then
    some [.cbtailWrite (.ofNat 2 ((o - 0x4000) / 0x100)) (.ofNat 64 (v % 2 ^ 32))]
  else if 0x4000 ≤ o ∧ o < 0x4400 ∧ o % 0x100 = 0x20 then
    some [.cberrWrite (.ofNat 2 ((o - 0x4000) / 0x100)) (.ofNat 64 (v % 2 ^ 32))]
  else if o = 0x6018 ∧ bitAt v 31 then
    some (match bitsAt v 12 2 with
      | 0 => [.invAll]
      | 1 => [.invAsid (.ofNat 12 v)]
      | 2 => [.invRange (.ofNat 12 v)]
      | _ => [])
  else if o = 0x10004 then
    some (match v % 4 with
      | 1 => [.coldStart]
      | 2 => [.warmStart]
      | 3 => [.warmStartKeep]
      | _ => [])
  else if o = 0x1010C then some [.elheadWrite (.ofNat 64 (v % 2 ^ 32))]
  else none

/-- A write to the MSI-X tables; unmasking an entry raises it when it is pending (R420, as PCIe specifies). -/
def State.msixWrite (s : State) (o v : Nat) : State :=
  let e := o / 0x8000 * 1024 + o % 0x8000 / 16
  let x := setField (s.msix e) (8 * (o % 16)) 32 v
  let s1 := s.modForme fun m => { m with msixTable := sset (BitVec.twoPow 128 96) m.msixTable e x }
  if !x.getLsbD 96 && s.forme.msixPend.contains e then
    (s1.modForme fun m => { m with msixPend := m.msixPend.filter fun p => p != e }).raiseIrq (e + 1)
  else s1

/-- A write to a register without behaviour of its own stores its fields (R7, R108, R173, R422, R461). A vector above
2,048 is logged when it is written (R420, R464, log 23). -/
def State.regStore (s : State) (o v : Nat) : State :=
  if 0x1000 ≤ o ∧ o < 0x2000 ∧ o % 0x40 = 0 then
    let q := (o - 0x1000) / 0x40
    if s.isReady && !(s.queue q).qctl.getLsbD 31 then
      s.modQueue q fun x => { x with qbase := .ofNat 64 (v / 32768 * 32768) } else s
  else if o = 0x6000 then
    if s.isReady then s.modForme fun m => { m with astbase := .ofNat 64 (v / 4096 * 4096) } else s
  else if o = 0x6008 then if s.isReady then s.modForme fun m => { m with invaddr := .ofNat 64 v } else s
  else if o = 0x6010 then if s.isReady then s.modForme fun m => { m with invlen := .ofNat 64 v } else s
  else if o = 0x6018 then
    if s.isReady && bitsAt v 12 2 != 3 then s.modForme fun m => { m with invcmd := .ofNat 32 (v % 2 ^ 14) } else s
  else if o = 0x6028 then if s.isReady then s.modForme fun m => { m with bbbase := .ofNat 64 (v / 2 ^ 28 * 2 ^ 28) } else s
  else if o = 0x10008 then s.modForme fun m => { m with grant := .ofNat 32 (v % 65536) }
  else if o = 0x1000C then s.modForme fun m => { m with slewlim := .ofNat 32 v }
  else if o = 0x10118 then
    let s1 := s.modForme fun m => { m with elvec := .ofNat 16 v }
    if 2048 < v % 65536 then s1.logUnit 0x0012 0 0 (v % 65536) else s1
  else if 0x20000 ≤ o ∧ o < 0x30000 ∧ o % 0x8000 < 0x4000 ∧ o % 4 = 0 then s.msixWrite (o - 0x20000) v
  else s

/-- A write of the register at an offset: the event it is, or the store of its value. -/
def State.regWrite (s : State) (o v : Nat) : State :=
  match regEvent o v with
  | some ms => s.soon ms
  | none => s.regStore o v

/-- A write of n bytes to the window: of another size than the register's it is ignored. MSI-X entries take 8 bytes as
two writes of 4. -/
def State.regWriteN (s : State) (o : Nat) (bs : List Byte) : State :=
  let v := ofBytes bs
  if 0x20000 ≤ o ∧ o < 0x30000 ∧ bs.length = 8 ∧ o % 8 = 0 then
    (s.regWrite o (v % 2 ^ 32)).regWrite (o + 4) (v / 2 ^ 32)
  else if regSize o = bs.length then s.regWrite o v else s

/-- REGISTER_WRITE: a write of the register at a window offset, in its stated size; one that no row of R418 covers is an
UNMAPPED_WINDOW_ACCESS (DESIGN CHOICE, log 22). -/
def execRegisterWrite (o : Nat) (v : BitVec 64) (s : State) : Out :=
  if !regCovered o then .next (s.soon [.unmappedWindowAccess o])
  else if regSize o = 0 then .next s
  else .next (s.regWrite o (v.toNat % 2 ^ (8 * regSize o)))

/-- UNMAPPED_WINDOW_ACCESS by the host: zero data, nothing performed, DIEWIN (R418, R464); EUNIT is the port of the
access, which the two-way interleave of R417 gives no rule for: port 0 (log 24). -/
def execUnmappedWindowAccess (o : Nat) (s : State) : Out :=
  if regCovered o then .next s
  else
    .next ((s.logErr ⟨0x0036, 5, 0, 0, 0xFFFFFFFF, 1, 0x300000000000 + o, 0⟩).modForme fun m =>
      { m with hostRead := some (List.replicate 8 0, false) })

end Sys2Proof.Machine
end

