-- ==== Sys2Proof/Machine/Attest.lean ====
section
/-!
DEFINITION. Firmware authentication, attestation and identity (R426 to R430, R495), and the DOE mailboxes of the host ports
(R416, R429).
-/
namespace Sys2Proof.Machine

/-! ## Images, measurements, identity (R426 to R430) -/

/-- The header of an image without its signature field (R426, log 14). -/
def Image.head (i : Image) : List Byte := toBytes 4 i.magic.toNat ++ toBytes 4 i.svn.toNat ++ toBytes 4 i.len.toNat

/-- The whole image, as it is measured. -/
def Image.bytes (i : Image) : List Byte := i.head ++ toBytes 64 i.sig.toNat ++ i.body

/-- The identity record without its signature, and whole (R430, log 14). -/
def IdRec.signed (r : IdRec) : List Byte :=
  r.helper ++ toBytes 32 r.pub.toNat ++ r.cert ++ r.order ++ toBytes 12 r.degmap.toNat ++ r.trims ++ toBytes 4 r.minsvn.toNat
def IdRec.bytes (r : IdRec) : List Byte := r.signed ++ toBytes 64 r.sig.toNat

/-- Does the ROM accept an image (R427)? -/
def Forme.accepts (m : Forme) (i : Image) : Bool :=
  Config.ed25519Verify (toBytes 32 m.rootKey.toNat) (sha512 (i.head ++ i.body)) (toBytes 64 i.sig.toNat) &&
    decide (m.idrec.minsvn ≤ i.svn)

/-- The slots in the order in which the ROM tries them: the higher SVN first. -/
def slotOrder : List Image → List Image
  | [a, b] => if a.svn < b.svn then [b, a] else [a, b]
  | is => is

/-- An entry of the attestation log, kind and digest, and M (R428) (DESIGN CHOICE, log 70). -/
def Forme.measure (m : Forme) (kind : Nat) (object : List Byte) : Forme :=
  let d := sha512 object
  { m with attLog := m.attLog ++ [(kind, d)], m := sha512 (m.m ++ d) }

/-- The private seed of the identity key: the first half of the digest of the corrected PUF response (R430). -/
def Forme.seed (m : Forme) : List Byte := (sha512 (Config.pufCorrect m.puf m.idrec.helper)).take 32

/-- Does the identity hold: the record is signed by the root key, and the derived public key is the one in it (R430)
(DESIGN CHOICE, log 98)? -/
def Forme.identified (m : Forme) : Bool :=
  Config.ed25519Verify (toBytes 32 m.rootKey.toNat) m.idrec.signed (toBytes 64 m.idrec.sig.toNat) &&
    Config.ed25519Public m.seed == toBytes 32 m.idrec.pub.toNat

/-- The field record: the units degraded in the field, signed with the identity key (R495, log 98). -/
def Forme.fieldRecord (m : Forme) : List Byte :=
  let us := (m.degraded.map fun e => toBytes 4 e.1 ++ toBytes 4 e.2).flatten
  us ++ Config.ed25519Sign m.seed us

/-- The master image of a tenant's handlers as it is loaded: its partition of the code, and its table entries (R20, R428). -/
def Forme.masterImage (m : Forme) (t : Nat) : List Byte :=
  let d := (sget 0 m.tenants t).toNat
  let lo := bitsAt d 16 8 * 1024
  ((List.range (min 0x10000 (lo + bitsAt d 24 8 * 1024) - lo)).map fun i => sget 0 m.masterCode (lo + i)) ++
    ((List.range 16).map fun i => toBytes 8 (sget 0 m.masterTable (16 * t + i)).toNat).flatten

/-! ## Measurements for a requester (R429) -/

/-- The measurement blocks: each entry of the log, M as the last (R429) (DESIGN CHOICE, log 30). -/
def Forme.blocks (m : Forme) : List (List Byte) := (m.attLog.map fun e => toBytes 1 e.1 ++ e.2) ++ [m.m]

/-- The answer to GET_MEASUREMENTS for a requester's nonce, signed with the identity key (R429, log 30). -/
def Forme.measured (m : Forme) (nonce : Nat) : Measured :=
  ⟨nonce, m.blocks, Config.ed25519Sign m.seed (Config.spdmTranscript nonce m.blocks.flatten)⟩

/-- GET_MEASUREMENTS: the log's entries as measurement blocks, M as the last, signed with the identity key (R429). -/
def execGetMeasurements (n : Nat) (s : State) : Out :=
  .next (s.modForme fun m => { m with doe := some (m.measured n) })

/-! ## The DOE mailbox (R416, R429): its registers are PCIe's, its messages SPDM's (PRESUMED, log 97) -/

/-- Words of bytes. -/
def wordsOf (bs : List Byte) : List (BitVec 32) :=
  (List.range ((bs.length + 3) / 4)).map fun i => .ofNat 32 (ofBytes ((bs.drop (4 * i)).take 4))

/-- A data object of PCI-SIG: its type, its length in words, its payload. -/
def doeObject (type : Nat) (payload : List (BitVec 32)) : List (BitVec 32) :=
  [.ofNat 32 (1 + type * 2 ^ 16), .ofNat 32 (payload.length + 2)] ++ payload

/-- The response to an SPDM request, by its code: GET_MEASUREMENTS, NEGOTIATE_ALGORITHMS, which offers Ed25519 and SHA-512 alone
(R429), and the others. -/
def Forme.spdm (m : Forme) (req : List Byte) : Forme × List Byte :=
  let q := ofBytes req
  match bitsAt q 8 8 with
  | 0xE0 =>
    let r := m.measured (bitsAt q 32 256)
    ({ m with doe := some r }, Config.spdmMessage req (r.blocks.flatten ++ r.sig))
  | 0xE3 =>
    let algs : BitVec 32 × BitVec 32 := (.ofNat 32 (bitsAt q 64 32) &&& 0x200, .ofNat 32 (bitsAt q 96 32) &&& 0x4)
    ({ m with spdmAlgs := algs }, Config.spdmMessage req (toBytes 4 algs.1.toNat ++ toBytes 4 algs.2.toNat))
  | _ => (m, Config.spdmMessage req [])

/-- The object in a mailbox is taken up: discovery, or an SPDM request; one whose length is wrong is an error, one of another type
has no response. -/
def Forme.doeGo (m : Forme) (p : Nat) : Forme :=
  let x := sget Mailbox.empty m.boxes p
  let put (m : Forme) (y : Mailbox) : Forme := { m with boxes := sset Mailbox.empty m.boxes p y }
  match x.req with
  | d :: n :: pay =>
    if bitsAt n.toNat 0 18 ≠ pay.length + 2 then put m ⟨[], [], true⟩
    else match bitsAt d.toNat 0 24 with
      | 0x000001 =>
        let i := bitsAt ((pay.headD 0).toNat) 0 8
        put m ⟨[], doeObject 0 [if i = 0 then 0x01000001 else 0x00010001], false⟩
      | 0x010001 =>
        let r := m.spdm (pay.map fun w => toBytes 4 w.toNat).flatten
        put r.1 ⟨[], doeObject 1 (wordsOf r.2), false⟩
      | _ => put m { x with req := [] }
  | _ => put m ⟨[], [], true⟩

/-- A write of four bytes of port p's configuration space: BAR0's upper half, and the DOE control, write mailbox and read
mailbox. -/
def State.cfgWrite (s : State) (p o v : Nat) : State :=
  let box (f : Mailbox → Mailbox) : State :=
    s.modForme fun m => { m with boxes := sset Mailbox.empty m.boxes p (f (sget Mailbox.empty m.boxes p)) }
  match o with
  | 0x14 => s.modForme fun m => { m with bar0 := sset 0 m.bar0 p (.ofNat 64 (v * 2 ^ 32)) }
  | 0x14C => if bitAt v 0 then box fun _ => Mailbox.empty else if bitAt v 31 then s.modForme fun m => m.doeGo p else s
  | 0x154 => box fun x => { x with req := x.req ++ [.ofNat 32 v] }
  | 0x158 => box fun x => { x with rsp := x.rsp.tail }
  | _ => s

end Sys2Proof.Machine
end

