-- ==== Sys2Proof/Machine/Float.lean ====
section
/-!
DEFINITION. Floating formats and rounding (R28 to R37), block-scaled conversion (R40 to R45), the arithmetic of the
vector units (R30, R50, R51, R299 to R301). Every operation forms its exact value as an integer times a power of two,
or a lower bound of it with a mark that more follows, and rounds once.
-/
namespace Sys2Proof.Machine

/-- The floating formats (R28). -/
inductive Fmt where
  | f32 | f16 | bf16 | e4m3 | e5m2 | e2m1
deriving DecidableEq, Repr

/-- Mantissa bits, exponent bits, bias and emax (R28). -/
def Fmt.mw : Fmt → Nat
  | .f32 => 23 | .f16 => 10 | .bf16 => 7 | .e4m3 => 3 | .e5m2 => 2 | .e2m1 => 1
def Fmt.ew : Fmt → Nat
  | .f32 => 8 | .f16 => 5 | .bf16 => 8 | .e4m3 => 4 | .e5m2 => 5 | .e2m1 => 2
def Fmt.bias : Fmt → Nat
  | .f32 => 127 | .f16 => 15 | .bf16 => 127 | .e4m3 => 7 | .e5m2 => 15 | .e2m1 => 1
def Fmt.emax : Fmt → Nat
  | .f32 => 127 | .f16 => 15 | .bf16 => 127 | .e4m3 => 8 | .e5m2 => 15 | .e2m1 => 2
def Fmt.width (f : Fmt) : Nat := 1 + f.ew + f.mw
/-- The significand of the largest finite value, as an integer of mw + 1 bits: 1.110 in E4M3 (R29), else all ones. -/
def Fmt.maxSig (f : Fmt) : Nat := if f = .e4m3 then 14 else 2 ^ (f.mw + 1) - 1
/-- Has the format infinities (R29)? -/
def Fmt.hasInf : Fmt → Bool
  | .e4m3 => false | .e2m1 => false | _ => true

/-- The sign bit in place. -/
def Fmt.signed (f : Fmt) (s : Bool) (x : Nat) : Nat := s.toNat * 2 ^ (f.width - 1) + x
/-- The default NaN without its sign (R29); E2M1 has none and takes 0. -/
def Fmt.nanBits : Fmt → Nat
  | .f32 => 0x7FC00000 | .f16 => 0x7E00 | .bf16 => 0x7FC0 | .e4m3 => 0x7F | .e5m2 => 0x7E | .e2m1 => 0
/-- ∞ without its sign, and the largest finite value. -/
def Fmt.infBits (f : Fmt) : Nat := (2 ^ f.ew - 1) * 2 ^ f.mw
def Fmt.maxBits (f : Fmt) : Nat := (f.emax + f.bias) * 2 ^ f.mw + (f.maxSig - 2 ^ f.mw)

/-- A decoded value: NaN with sign, quiet bit and whole mantissa; infinity; or ± m · 2^e. -/
inductive FVal where
  | nan (s quiet : Bool) (man : Nat)
  | inf (s : Bool)
  | fin (s : Bool) (m : Nat) (e : Int)
deriving DecidableEq, Repr

/-- The value of a pattern (R28, R29). -/
def Fmt.decode (f : Fmt) (x : Nat) : FVal :=
  let s := bitAt x (f.width - 1)
  let ex := bitsAt x f.mw f.ew
  let man := bitsAt x 0 f.mw
  if ex = 2 ^ f.ew - 1 ∧ f.hasInf then
    if man = 0 then .inf s else .nan s (bitAt man (f.mw - 1)) man
  else if f = .e4m3 ∧ ex = 15 ∧ man = 7 then .nan s true man
  else if ex = 0 then .fin s man (1 - (f.bias : Int) - f.mw)
  else .fin s (man + 2 ^ f.mw) ((ex : Int) - f.bias - f.mw)

/-- Does a value just below the kept bits round up in magnitude (R33)? `odd`: the kept integer is odd; `half` compares
the discarded part with one half; `exact`: nothing is discarded. -/
def roundUp (rm : Rm) (s odd : Bool) (half : Ordering) (exact : Bool) : Bool :=
  !exact && match rm with
    | .rne => half == .gt || (half == .eq && odd)
    | .rz => false
    | .ru => !s
    | .rd => s

/-- ± m · 2^e, a little more in magnitude when `more`, rounded to a multiple of 2^q: the integer and whether it is
inexact (R33, R34). -/
def roundAt (rm : Rm) (s : Bool) (m : Nat) (e : Int) (more : Bool) (q : Int) : Nat × Bool :=
  if q ≤ e then
    let n := m * 2 ^ (e - q).toNat
    if roundUp rm s (n % 2 == 1) .lt (!more) then (n + 1, more) else (n, more)
  else
    let sh := (q - e).toNat
    let n := m / 2 ^ sh
    let r := m % 2 ^ sh
    let half := if r = 2 ^ (sh - 1) then (if more then .gt else .eq) else compare r (2 ^ (sh - 1))
    let exact := r == 0 && !more
    (if roundUp rm s (n % 2 == 1) half exact then n + 1 else n, !exact)

/-- Bits of a number. -/
def bitLen (x : Nat) : Nat := if x = 0 then 0 else Nat.log2 x + 1

/-- What an overflow delivers (R35). -/
def Fmt.overflow (f : Fmt) (rm : Rm) (s : Bool) : Nat :=
  let big := f.signed s f.maxBits
  if !f.hasInf then big else
  match rm with
  | .rne => f.signed s f.infBits
  | .rz => big
  | .ru => if s then big else f.infBits
  | .rd => if s then f.signed true f.infBits else big

/-- ± m · 2^e (m > 0), a little more in magnitude when `more`, rounded once to a format with its flags (R33 to R36). -/
def Fmt.round (f : Fmt) (rm : Rm) (s : Bool) (m : Nat) (e : Int) (more : Bool) : Nat × Flags :=
  let p := f.mw + 1
  let top : Int := (bitLen m : Int) - 1 + e
  let emin : Int := 1 - (f.bias : Int)
  let qU := top - p + 1
  let q := max qU (emin - p + 1)
  let r := roundAt rm s m e more q
  let u := roundAt rm s m e more qU
  let qMax : Int := (f.emax : Int) - p + 1
  if qMax < q ∨ (q = qMax ∧ f.maxSig < r.1) then (f.overflow rm s, flagOF ||| flagNX)
  else
    let tiny := decide (top < emin) && !(decide (top = emin - 1) && u.1 == 2 ^ p)
    let bits := if r.1 < 2 ^ f.mw then r.1 else ((q + f.mw + f.bias).toNat * 2 ^ f.mw + (r.1 - 2 ^ f.mw))
    (f.signed s bits, flagIf (tiny && r.2) flagUF ||| flagIf r.2 flagNX)

/-- Round a finite value; an exact zero keeps the sign given. -/
def Fmt.roundFin (f : Fmt) (rm : Rm) (s : Bool) (m : Nat) (e : Int) (more : Bool) : Nat × Flags :=
  if m = 0 then (f.signed s 0, 0) else f.round rm s m e more

/-- Is a value a signalling NaN (R29)? -/
def FVal.isSnan : FVal → Bool
  | .nan _ quiet _ => !quiet
  | _ => false
def FVal.isNan : FVal → Bool
  | .nan .. => true
  | _ => false
def FVal.isZero : FVal → Bool
  | .fin _ m _ => m == 0
  | _ => false
def FVal.sign : FVal → Bool
  | .nan s _ _ => s
  | .inf s => s
  | .fin s _ _ => s

/-- The first NaN of the operands, quieted, in its own format (R32). -/
def Fmt.firstNan (f : Fmt) (xs : List FVal) : Option Nat :=
  xs.findSome? fun x => match x with
    | .nan s quiet man => some (f.signed s (f.infBits + if quiet then man else man + 2 ^ (f.mw - 1)))
    | _ => none

/-- NaN results of R32: the first NaN operand, with NV for a signalling one; an invalid operation gives the default
NaN. `inv`: the operation is invalid even with a quiet NaN (0 × ∞ + c) (DEDUCED, log 15). -/
def Fmt.nanResult (f : Fmt) (xs : List FVal) (inv : Bool) : Option (Nat × Flags) :=
  match f.firstNan xs with
  | some b => some (b, flagIf (xs.any FVal.isSnan || inv) flagNV)
  | none => if inv then some (f.nanBits, flagNV) else none

/-- Align two values to one exponent and add them exactly, as a signed integer times 2^e. -/
def addExact (s1 : Bool) (m1 : Nat) (e1 : Int) (s2 : Bool) (m2 : Nat) (e2 : Int) : Int × Int :=
  let e := min e1 e2
  let a : Int := m1 * 2 ^ (e1 - e).toNat
  let b : Int := m2 * 2 ^ (e2 - e).toNat
  ((if s1 then -a else a) + (if s2 then -b else b), e)

/-- The sum of two exact values rounded once, with the zero rules of R30. -/
def Fmt.sum (f : Fmt) (rm : Rm) (s1 : Bool) (m1 : Nat) (e1 : Int) (s2 : Bool) (m2 : Nat) (e2 : Int) : Nat × Flags :=
  if m1 = 0 ∧ m2 = 0 ∧ s1 = s2 then (f.signed s1 0, 0)
  else
    let r := addExact s1 m1 e1 s2 m2 e2
    if r.1 = 0 then (f.signed (rm == .rd) 0, 0) else f.round rm (decide (r.1 < 0)) r.1.natAbs r.2 false

/-- a + b (R298). -/
def Fmt.add (f : Fmt) (rm : Rm) (a b : FVal) : Nat × Flags :=
  match a, b with
  | .fin s1 m1 e1, .fin s2 m2 e2 => f.sum rm s1 m1 e1 s2 m2 e2
  | .inf s1, .inf s2 => if s1 = s2 then (f.signed s1 f.infBits, 0) else (f.nanBits, flagNV)
  | .inf s1, .fin .. => (f.signed s1 f.infBits, 0)
  | .fin .., .inf s2 => (f.signed s2 f.infBits, 0)
  | a, b => (f.nanResult [a, b] false).getD (f.nanBits, flagNV)

/-- The value with its sign flipped; a NaN keeps its own (R299). -/
def FVal.neg : FVal → FVal
  | .nan s q m => .nan s q m
  | .inf s => .inf !s
  | .fin s m e => .fin (!s) m e

/-- a × b (R298). -/
def Fmt.mul (f : Fmt) (rm : Rm) (a b : FVal) : Nat × Flags :=
  match a, b with
  | .fin s1 m1 e1, .fin s2 m2 e2 => f.roundFin rm (s1 != s2) (m1 * m2) (e1 + e2) false
  | .inf s1, .inf s2 => (f.signed (s1 != s2) f.infBits, 0)
  | .inf s1, .fin s2 m _ => if m = 0 then (f.nanBits, flagNV) else (f.signed (s1 != s2) f.infBits, 0)
  | .fin s1 m _, .inf s2 => if m = 0 then (f.nanBits, flagNV) else (f.signed (s1 != s2) f.infBits, 0)
  | a, b => (f.nanResult [a, b] false).getD (f.nanBits, flagNV)

/-- Is one factor zero and the other infinite? -/
def zeroTimesInf (a b : FVal) : Bool :=
  match a, b with
  | .inf _, .fin _ m _ => m == 0
  | .fin _ m _, .inf _ => m == 0
  | _, _ => false

/-- ±(a × b) ± c rounded once (R51, R299): `np` negates the product, `nc` negates c (DEDUCED, log 15). -/
def Fmt.fma (f : Fmt) (rm : Rm) (np nc : Bool) (a b c : FVal) : Nat × Flags :=
  match f.nanResult [a, b, c] (zeroTimesInf a b) with
  | some r => r
  | none =>
    let c' := if nc then c.neg else c
    match a, b, c' with
    | .fin s1 m1 e1, .fin s2 m2 e2, .fin s3 m3 e3 =>
      f.sum rm ((s1 != s2) != np) (m1 * m2) (e1 + e2) s3 m3 e3
    | .fin .., .fin .., .inf s3 => (f.signed s3 f.infBits, 0)
    | a, b, .inf s3 =>
      if ((a.sign != b.sign) != np) = s3 then (f.signed s3 f.infBits, 0) else (f.nanBits, flagNV)
    | a, b, _ => (f.signed ((a.sign != b.sign) != np) f.infBits, 0)

/-- a < b for numbers, with −0 = +0. -/
def FVal.lt (a b : FVal) : Bool :=
  match a, b with
  | .fin s1 m1 e1, .fin s2 m2 e2 => decide ((addExact s1 m1 e1 (!s2) m2 e2).1 < 0)
  | .inf s1, .inf s2 => s1 && !s2
  | .inf s1, .fin .. => s1
  | .fin .., .inf s2 => !s2
  | _, _ => false

/-- The order of R50: −0 below +0. -/
def FVal.below (a b : FVal) : Bool := a.lt b || (a.isZero && b.isZero && a.sign && !b.sign)

/-- The smaller or the greater operand (R50), as the pattern it has. -/
def Fmt.minMax (f : Fmt) (max : Bool) (x y : Nat) : Nat × Flags :=
  let a := f.decode x
  let b := f.decode y
  let fl := flagIf (a.isSnan || b.isSnan) flagNV
  if a.isNan && b.isNan then (f.nanBits, fl)
  else if a.isNan then (y, fl)
  else if b.isNan then (x, fl)
  else if max then (if a.below b then y else x, fl)
  else (if b.below a then y else x, fl)

/-- The comparisons of R301 with NV. -/
def fcmp (c : FCond) (a b : FVal) : Bool × Flags :=
  let un := a.isNan || b.isNan
  let sn := flagIf (a.isSnan || b.isSnan) flagNV
  let an := flagIf un flagNV
  let eq := !un && !a.lt b && !b.lt a
  match c with
  | .eq => (eq, sn)
  | .ne => (!eq, sn)
  | .lt => (!un && a.lt b, an)
  | .le => (!un && !b.lt a, an)
  | .gt => (!un && b.lt a, an)
  | .ge => (!un && !a.lt b, an)
  | .un => (un, sn)
  | .ord => (!un, sn)

/-! ## The functions of R300 -/

/-- The integer square root, bit by bit from bit n − 1. -/
def isqrtGo (x : Nat) : Nat → Nat → Nat
  | 0, r => r
  | n + 1, r => isqrtGo x n (if (r + 2 ^ n) * (r + 2 ^ n) ≤ x then r + 2 ^ n else r)

/-- ⌊√x⌋ for x below 2^(2n). -/
def isqrt (x n : Nat) : Nat := isqrtGo x n 0

/-- 1/a. -/
def Fmt.rcp (f : Fmt) (rm : Rm) (a : FVal) : Nat × Flags :=
  match a with
  | .nan .. => (f.nanResult [a] false).getD (f.nanBits, 0)
  | .inf s => (f.signed s 0, 0)
  | .fin s m e =>
    if m = 0 then (f.signed s f.infBits, flagDZ)
    else f.round rm s (2 ^ 64 / m) (-64 - e) (2 ^ 64 % m != 0)

/-- 1/√a. -/
def Fmt.rsq (f : Fmt) (rm : Rm) (a : FVal) : Nat × Flags :=
  match a with
  | .nan .. => (f.nanResult [a] false).getD (f.nanBits, 0)
  | .inf s => if s then (f.nanBits, flagNV) else (f.signed false 0, 0)
  | .fin s m e =>
    if m = 0 then (f.signed s f.infBits, flagDZ)
    else if s then (f.nanBits, flagNV)
    else
      let m' := if e % 2 = 0 then m else 2 * m
      let e' := if e % 2 = 0 then e else e - 1
      let r := isqrt (2 ^ 128 / m') 66
      f.round rm false r (-64 - e' / 2) (r * r * m' != 2 ^ 128)

/-- Fraction bits of the fixed-point numbers below (log 13). -/
def fixBits : Nat := 320

/-- Σ x^k / k! in fixed point, from the term t = x^k / k!. -/
def expGo (x : Nat) : Nat → Nat → Nat → Nat
  | 0, _, _ => 0
  | n + 1, k, t => t + expGo x n (k + 1) (t * x / 2 ^ fixBits / (k + 1))

/-- Σ y^(2k+1) / (2k+1) in fixed point, from the power t and its exponent k. -/
def atanhGo (y2 : Nat) : Nat → Nat → Nat → Nat
  | 0, _, _ => 0
  | n + 1, k, t => t / k + atanhGo y2 n (k + 2) (t * y2 / 2 ^ fixBits)

/-- ln((p + q)/(p − q)) for q/p at most 1/3. -/
def lnFix (p q : Nat) : Nat :=
  let y := q * 2 ^ fixBits / p
  2 * atanhGo (y * y / 2 ^ fixBits) 110 1 y

/-- ln 2. -/
def ln2Fix : Nat := lnFix 3 1

/-- 2^a (DEDUCED, log 13). -/
def Fmt.exp2 (f : Fmt) (rm : Rm) (a : FVal) : Nat × Flags :=
  match a with
  | .nan .. => (f.nanResult [a] false).getD (f.nanBits, 0)
  | .inf s => (f.signed false (if s then 0 else f.infBits), 0)
  | .fin s m e =>
    if m = 0 then (f.bias * 2 ^ f.mw, 0)
    else if (12 : Int) ≤ bitLen m + e then f.round rm false 1 (if s then -5000 else 5000) false
    else
      let i : Nat := m * 2 ^ e.toNat / 2 ^ (-e).toNat
      let r : Nat := m * 2 ^ e.toNat % 2 ^ (-e).toNat
      if r = 0 then f.round rm false 1 (if s then -(i : Int) else i) false
      else
        let n : Int := if s then -(i : Int) - 1 else i
        let fr := if s then 2 ^ (-e).toNat - r else r
        let x := fr * ln2Fix / 2 ^ (-e).toNat
        f.round rm false (expGo x 80 0 (2 ^ fixBits)) (n - fixBits) true

/-- log2(a) (DEDUCED, log 13). -/
def Fmt.log2 (f : Fmt) (rm : Rm) (a : FVal) : Nat × Flags :=
  match a with
  | .nan .. => (f.nanResult [a] false).getD (f.nanBits, 0)
  | .inf s => if s then (f.nanBits, flagNV) else (f.infBits, 0)
  | .fin s m e =>
    if m = 0 then (f.signed true f.infBits, flagDZ)
    else if s then (f.nanBits, flagNV)
    else
      let l := bitLen m - 1
      let n : Int := l + e
      if m = 2 ^ l then f.roundFin rm (decide (n < 0)) n.natAbs 0 false
      else
        let fr := lnFix (m + 2 ^ l) (m - 2 ^ l) * 2 ^ fixBits / ln2Fix
        let v : Int := n * 2 ^ fixBits + fr
        f.round rm (decide (v < 0)) v.natAbs (-(fixBits : Int)) true

/-! ## Conversions -/

/-- A NaN of one format in another (R31, R32): the high mantissa bits, quieted; FP8 takes its default NaN with the
source's sign, and so does a value that comes from FP8; E2M1 takes +0 with NV. -/
def convNan (src dst : Fmt) (s quiet : Bool) (man : Nat) : Nat × Flags :=
  let fl := flagIf (!quiet) flagNV
  if dst = .e2m1 then (0, flagNV)
  else if dst = .e4m3 ∨ dst = .e5m2 then (dst.signed s dst.nanBits, fl)
  else if src = .e4m3 ∨ src = .e5m2 then (dst.signed s dst.nanBits, 0)
  else
    let top := if dst.mw ≤ src.mw then man / 2 ^ (src.mw - dst.mw) else man * 2 ^ (dst.mw - src.mw)
    let q := if bitAt top (dst.mw - 1) then top else top + 2 ^ (dst.mw - 1)
    (dst.signed s (dst.infBits + q), fl)

/-- A floating conversion (R303): an infinity into a format without one gives ±max and sets OF and NX. -/
def convert (src dst : Fmt) (rm : Rm) (x : Nat) : Nat × Flags :=
  match src.decode x with
  | .nan s quiet man => convNan src dst s quiet man
  | .inf s =>
    if dst.hasInf then (dst.signed s dst.infBits, 0) else (dst.signed s dst.maxBits, flagOF ||| flagNX)
  | .fin s m e => dst.roundFin rm s m e false

/-- Float to integer (R37). -/
def floatToInt (src : Fmt) (w : Nat) (nat : Bool) (rm : Rm) (x : Nat) : BitVec w × Flags :=
  match src.decode x with
  | .nan .. => (0, flagNV)
  | .inf s => (wrap w (if s then intMin w nat else intMax w nat), flagNV)
  | .fin s m e =>
    let r := roundAt rm s m e false 0
    let v : Int := if s then -(r.1 : Int) else r.1
    let c := saturate w nat v
    if c.2 then (wrap w c.1, flagNV) else (wrap w v, flagIf r.2 flagNX)

/-- Integer to float, rounded once (R304). -/
def intToFloat (dst : Fmt) (rm : Rm) (v : Int) : Nat × Flags := dst.roundFin rm (decide (v < 0)) v.natAbs 0 false

/-! ## Block-scaled formats (R40 to R45) -/

/-- emax of a block format (R41). -/
def blkEmax : BlkT → Int
  | .mxe4m3 => 8 | .mxe5m2 => 15 | .mxfp4 => 2 | .mxi8 => 0 | .mxn8 => -1

/-- The floating element format, when the elements are floating. -/
def blkFmt : BlkT → Option Fmt
  | .mxe4m3 => some .e4m3 | .mxe5m2 => some .e5m2 | .mxfp4 => some .e2m1 | .mxi8 => none | .mxn8 => none

/-- round_F of R43: ± m · 2^e to an element. -/
def blkElement (b : BlkT) (rm : Rm) (s : Bool) (m : Nat) (e : Int) : Nat × Flags :=
  match blkFmt b with
  | some f => f.roundFin rm s m e false
  | none =>
    let nat := b == .mxn8
    let r := roundAt rm s m (e + if nat then 8 else 6) false 0
    let v : Int := if s then -(r.1 : Int) else r.1
    let lo : Int := if nat then 0 else -127
    let hi : Int := if nat then 255 else 127
    if nat && s && m != 0 then (0, flagSI ||| flagNX)
    else if v < lo then ((wrap 8 lo).toNat, flagSI ||| flagNX)
    else if hi < v then ((wrap 8 hi).toNat, flagSI ||| flagNX)
    else ((wrap 8 v).toNat, flagIf r.2 flagNX)

/-- The zero of a block format with a sign (R43). -/
def blkZero (b : BlkT) (s : Bool) : Nat :=
  match blkFmt b with
  | some f => f.signed s 0
  | none => 0

/-- ⌊log2⌋ of the greatest magnitude of a block, none when all are zero. -/
def topOf (vs : List FVal) : Option Int :=
  vs.foldl (fun t v => match v with
    | .fin _ m e =>
      if m = 0 then t else
      let k : Int := bitLen m - 1 + e
      some (match t with
        | some j => max j k
        | none => k)
    | _ => t) none

/-- A block of four values to a block format (R43): scale byte, elements, flags. -/
def toBlock (b : BlkT) (rm : Rm) (vs : List FVal) : Nat × List Nat × Flags :=
  if vs.any fun v => v.isNan || (match v with | .inf _ => true | _ => false) then (0xFF, vs.map fun _ => 0, flagND)
  else
    match topOf vs with
    | none => (0, vs.map fun v => blkZero b v.sign, 0)
    | some k =>
      let s0 := k - blkEmax b
      let s := max (-127) (min 127 s0)
      let els := vs.map fun v => match v with
        | .fin sg m e => if m = 0 then (blkZero b sg, 0) else blkElement b rm sg m (e - s)
        | _ => (0, 0)
      ((s + 127).toNat, els.map (·.1), els.foldl (fun f x => f ||| x.2) (flagIf (s != s0) flagSC))

/-- An element under its scale to a floating format (R45). -/
def fromBlock (b : BlkT) (dst : Fmt) (rm : Rm) (scale x : Nat) : Nat × Flags :=
  if scale = 0xFF then (dst.nanBits, 0)
  else
    let s : Int := (scale : Int) - 127
    match blkFmt b with
    | some f =>
      match f.decode x with
      | .nan sg quiet man => convNan f dst sg quiet man
      | .inf sg => (dst.signed sg dst.infBits, 0)
      | .fin sg m e => dst.roundFin rm sg m (e + s) false
    | none =>
      if b = .mxn8 then dst.roundFin rm false x (s - 8) false
      else
        let v := toSigned 8 x
        dst.roundFin rm (decide (v < 0)) v.natAbs (s - 6) false

end Sys2Proof.Machine
end

