-- ==== Sys2Proof/Machine/VectorInt.lean ====
section
/-!
DEFINITION. Integer, logic, lane and mask instructions of the V slots (R290 to R297, R306).
-/
namespace Sys2Proof.Machine

/-- A one-source element operation with flags. -/
def State.velem1 (s : State) (w : Nat) (vd va : VReg) (k : KReg) (f : Nat → BitVec w × Flags) : Out :=
  s.vop [va] vd (readsOld k false) 2 fun vs old =>
    let r (e : Nat) := f (elemAt w (vs.getD 0 0) e).toNat
    (s.merge k w (fun e => (r e).1) old, s.flagsOf k w (1024 / w) fun e => (r e).2)

/-- A two-source element operation with flags. -/
def State.velem2 (s : State) (w : Nat) (vd va vb : VReg) (k : KReg) (f : Nat → Nat → BitVec w × Flags) : Out :=
  s.vop [va, vb] vd (readsOld k false) 2 fun vs old =>
    let r (e : Nat) := f (elemAt w (vs.getD 0 0) e).toNat (elemAt w (vs.getD 1 0) e).toNat
    (s.merge k w (fun e => (r e).1) old, s.flagsOf k w (1024 / w) fun e => (r e).2)

/-- A three-source element operation with flags. -/
def State.velem3 (s : State) (w : Nat) (vd va vb vc : VReg) (k : KReg) (f : Nat → Nat → Nat → BitVec w × Flags) : Out :=
  s.vop [va, vb, vc] vd (readsOld k false) 2 fun vs old =>
    let r (e : Nat) := f (elemAt w (vs.getD 0 0) e).toNat (elemAt w (vs.getD 1 0) e).toNat (elemAt w (vs.getD 2 0) e).toNat
    (s.merge k w (fun e => (r e).1) old, s.flagsOf k w (1024 / w) fun e => (r e).2)

/-- An exact integer result of two elements, narrowed (R27, R290). -/
def State.vint2 (s : State) (f : VInt) (vd va vb : VReg) (k : KReg) (op : Int → Int → Int) : Out :=
  s.velem2 f.w.bits vd va vb k fun a b =>
    narrow f.w.bits f.n f.sat (op (intVal f.w.bits f.n a) (intVal f.w.bits f.n b))


/-- VADD (R290). -/
def execVadd (f : VInt) (vd va vb : VReg) (k : KReg) (s : State) : Out :=
  s.vint2 f vd va vb k fun a b => a + b

/-- VSUB (R290). -/
def execVsub (f : VInt) (vd va vb : VReg) (k : KReg) (s : State) : Out :=
  s.vint2 f vd va vb k fun a b => a - b

/-- VMUL (R290). -/
def execVmul (f : VInt) (vd va vb : VReg) (k : KReg) (s : State) : Out :=
  s.vint2 f vd va vb k fun a b => a * b

/-- VMULH: the high half of the product (R290). -/
def execVmulh (w : EW) (n : Bool) (vd va vb : VReg) (k : KReg) (s : State) : Out :=
  s.velem2 w.bits vd va vb k fun a b =>
    (wrap w.bits (intVal w.bits n a * intVal w.bits n b / 2 ^ w.bits), 0)

/-- VMAD (R290). -/
def execVmad (f : VInt) (vd va vb vc : VReg) (k : KReg) (s : State) : Out :=
  s.velem3 f.w.bits vd va vb vc k fun a b c =>
    narrow f.w.bits f.n f.sat
      (intVal f.w.bits f.n a * intVal f.w.bits f.n b + intVal f.w.bits f.n c)

/-- VABS (R290). -/
def execVabs (w : EW) (sat : Bool) (vd va : VReg) (k : KReg) (s : State) : Out :=
  s.velem1 w.bits vd va k fun a => narrow w.bits false sat (toSigned w.bits a).natAbs

/-- VMIN (R290). -/
def execVmin (w : EW) (vd va vb : VReg) (k : KReg) (s : State) : Out :=
  s.velem2 w.bits vd va vb k fun a b => (.ofNat w.bits (if toSigned w.bits a < toSigned w.bits b then a else b), 0)

/-- VMAX (R290). -/
def execVmax (w : EW) (vd va vb : VReg) (k : KReg) (s : State) : Out :=
  s.velem2 w.bits vd va vb k fun a b => (.ofNat w.bits (if toSigned w.bits a < toSigned w.bits b then b else a), 0)

/-- VMINN (R290). -/
def execVminn (w : EW) (vd va vb : VReg) (k : KReg) (s : State) : Out :=
  s.velem2 w.bits vd va vb k fun a b => (.ofNat w.bits (min a b), 0)

/-- VMAXN (R290). -/
def execVmaxn (w : EW) (vd va vb : VReg) (k : KReg) (s : State) : Out :=
  s.velem2 w.bits vd va vb k fun a b => (.ofNat w.bits (max a b), 0)

/-- VAND: bitwise, the mask per lane (R290). -/
def execVand (vd va vb : VReg) (k : KReg) (s : State) : Out :=
  s.velem2 32 vd va vb k fun a b => (.ofNat 32 (a &&& b), 0)

/-- VOR: bitwise, the mask per lane (R290). -/
def execVor (vd va vb : VReg) (k : KReg) (s : State) : Out :=
  s.velem2 32 vd va vb k fun a b => (.ofNat 32 (a ||| b), 0)

/-- VXOR: bitwise, the mask per lane (R290). -/
def execVxor (vd va vb : VReg) (k : KReg) (s : State) : Out :=
  s.velem2 32 vd va vb k fun a b => (.ofNat 32 (a ^^^ b), 0)

/-- VPOPC (R290). -/
def execVpopc (w : EW) (vd va : VReg) (k : KReg) (s : State) : Out :=
  s.velem1 w.bits vd va k fun a => (.ofNat w.bits (popCount a w.bits), 0)

/-- VCLZ (R290). -/
def execVclz (w : EW) (vd va : VReg) (k : KReg) (s : State) : Out :=
  s.velem1 w.bits vd va k fun a => (.ofNat w.bits (leadZeros a w.bits), 0)

/-- Bit j of VLUT3: the truth table at 4a + 2b + c (R292). -/
def lut3 (tt : BitVec 8) (a b c : BitVec 32) : BitVec 32 :=
  (List.range 8).foldl (fun r i =>
    if tt.getLsbD i then
      r ||| ((if i / 4 % 2 = 1 then a else ~~~a) &&& (if i / 2 % 2 = 1 then b else ~~~b) &&& (if i % 2 = 1 then c else ~~~c))
    else r) 0

/-- VLUT3 (R292). -/
def execVlut3 (tt : BitVec 8) (vd va vb vc : VReg) (k : KReg) (s : State) : Out :=
  s.velem3 32 vd va vb vc k fun a b c => (lut3 tt (.ofNat 32 a) (.ofNat 32 b) (.ofNat 32 c), 0)

/-- A shift of each element by an element of the amount register, of which the low log2(w) bits count, or by an
immediate (R291). -/
def State.vshift (s : State) (w : EW) (vd va : VReg) (amt : VAmt) (k : KReg) (f : BitVec w.bits → Nat → BitVec w.bits) : Out :=
  match amt with
  | .imm n => s.velem1 w.bits vd va k fun a => (f (.ofNat w.bits a) n.toNat, 0)
  | .reg vb => s.velem2 w.bits vd va vb k fun a b => (f (.ofNat w.bits a) (b % w.bits), 0)

/-- A funnel shift of {a, b} (R291). -/
def State.vfunnel (s : State) (w : EW) (vd va vb : VReg) (amt : VAmt) (k : KReg)
    (f : Nat → Nat → BitVec w.bits) : Out :=
  match amt with
  | .imm n => s.velem2 w.bits vd va vb k fun a b => (f (a * 2 ^ w.bits + b) n.toNat, 0)
  | .reg vc => s.velem3 w.bits vd va vb vc k fun a b c => (f (a * 2 ^ w.bits + b) (c % w.bits), 0)

/-- VSHL (R291). -/
def execVshl (w : EW) (vd va : VReg) (amt : VAmt) (k : KReg) (s : State) : Out :=
  s.vshift w vd va amt k fun a n => a <<< n

/-- VSHR (R291). -/
def execVshr (w : EW) (vd va : VReg) (amt : VAmt) (k : KReg) (s : State) : Out :=
  s.vshift w vd va amt k fun a n => a >>> n

/-- VSAR (R291). -/
def execVsar (w : EW) (vd va : VReg) (amt : VAmt) (k : KReg) (s : State) : Out :=
  s.vshift w vd va amt k fun a n => a.sshiftRight n

/-- VROT (R291). -/
def execVrot (w : EW) (vd va : VReg) (amt : VAmt) (k : KReg) (s : State) : Out :=
  s.vshift w vd va amt k fun a n => a.rotateLeft n

/-- VFSL: the high half of {a, b} << n (R291). -/
def execVfsl (w : EW) (vd va vb : VReg) (amt : VAmt) (k : KReg) (s : State) : Out :=
  s.vfunnel w vd va vb amt k fun x n => .ofNat w.bits (x * 2 ^ n / 2 ^ w.bits)

/-- VFSR: the low half of {a, b} >> n (R291). -/
def execVfsr (w : EW) (vd va vb : VReg) (amt : VAmt) (k : KReg) (s : State) : Out :=
  s.vfunnel w vd va vb amt k fun x n => .ofNat w.bits (x / 2 ^ n)

/-- The k destination of a comparison: bit i combines the elements of lane i; an inactive lane keeps its bit
(R293, R301). -/
def State.laneBits (s : State) (k : KReg) (w : Nat) (agg : Bool) (c : Nat → Bool) (old : BitVec 32) : BitVec 32 :=
  let n := 32 / w
  .ofNat 32 (joinElems 1 (fun i =>
    if s.lane k i then
      (if agg then (List.range n).any fun j => c (i * n + j) else (List.range n).all fun j => c (i * n + j)).toNat
    else (old.getLsbD i).toNat) 32)

/-- VCMP (R293). -/
def execVcmp (cc : Cond) (w : EW) (agg : Bool) (kd : KReg) (va vb : VReg) (k : KReg) (s : State) : Out :=
  s.vopK [va, vb] kd 2 fun vs =>
    (s.laneBits k w.bits agg (fun e =>
      condHolds cc w.bits (elemAt w.bits (vs.getD 0 0) e).toNat (elemAt w.bits (vs.getD 1 0) e).toNat) (s.rdK kd), 0)

/-- VSEL (R294). -/
def execVsel (neg : Bool) (kn : KReg) (vd va vb : VReg) (k : KReg) (s : State) : Out :=
  s.vop [va, vb] vd (readsOld k false) 2 fun vs old =>
    (s.merge k 32 (fun i =>
      elemAt 32 (if (s.rdK kn).getLsbD i != neg then vs.getD 0 0 else vs.getD 1 0) i) old, 0)

/-- VBCST (R294). -/
def execVbcst (w : EW) (vd va : VReg) (idx : BitVec 7) (k : KReg) (s : State) : Out :=
  s.vop [va] vd (readsOld k false) 2 fun vs old =>
    (s.merge k w.bits (fun _ => elemAt w.bits (vs.getD 0 0) idx.toNat) old, 0)

/-- VPERM (R294). -/
def execVperm (w : EW) (vd va vb : VReg) (k : KReg) (s : State) : Out :=
  s.vop [va, vb] vd (readsOld k false) 2 fun vs old =>
    (s.merge k w.bits (fun e =>
      let i := (elemAt w.bits (vs.getD 1 0) e).toNat
      if bitAt i (w.bits - 1) then 0 else elemAt w.bits (vs.getD 0 0) (i % (1024 / w.bits))) old, 0)

/-- VROTL (R294). -/
def execVrotl (w : EW) (vd va : VReg) (r : BitVec 7) (k : KReg) (s : State) : Out :=
  s.vop [va] vd (readsOld k false) 2 fun vs old =>
    (s.merge k w.bits (fun e => elemAt w.bits (vs.getD 0 0) ((e + r.toNat) % (1024 / w.bits))) old, 0)

/-- VMOV (R294). -/
def execVmov (vd va : VReg) (k : KReg) (s : State) : Out :=
  s.vop [va] vd (readsOld k false) 2 fun vs old =>
    (s.merge k 32 (fun e => elemAt 32 (vs.getD 0 0) e) old, 0)

/-- VIOTA (R294). -/
def execViota (src : IotaSrc) (vd : VReg) (k : KReg) (s : State) : Out :=
  match src with
  | .index w => s.vop [] vd (readsOld k false) 2 fun _ old => (s.merge k w.bits (fun e => .ofNat w.bits e) old, 0)
  | .pfx kn => s.vop [] vd (readsOld k false) 2 fun _ old =>
    (s.merge k 32 (fun e => .ofNat 32 (popCount (s.rdK kn).toNat e)) old, 0)

/-- VKOP (R295). -/
def execVkop (f : KopForm) (s : State) : Out :=
  match f with
  | .table kd ka kb tt =>
    .next (s.putK kd (.ofNat 32 (joinElems 1 (fun i =>
      (tt.getLsbD (2 * ((s.rdK ka).getLsbD i).toNat + ((s.rdK kb).getLsbD i).toNat)).toNat) 32)) 2)
  | .toMask kd va => s.vopK [va] kd 2 fun vs => (elemAt 32 (vs.getD 0 0) 0, 0)
  | .fromMask vd ka => s.vop [] vd false 2 fun _ _ => ((s.rdK ka).setWidth 1024, 0)

/-- The checks of VTEST: galleys among its sources. The summary has the bound 3 (R247, R250, R297). -/
def State.putSummary (s : State) (zd : ZReg) (psn : Bool) (z : BitVec 9) : State :=
  if psn then { s with free := s.free + 1 }.putZ zd (Config.freeBits 9 s.free) 3 else s.putZ zd z 3

/-- VTEST (R297). -/
def execVtest (zd : ZReg) (src : TestSrc) (k : KReg) (s : State) : Out :=
  match src with
  | .k kb => .next (s.putSummary zd false (summaryOf (s.lane k) fun i => (s.rdK kb).getLsbD i))
  | .v va =>
    match s.vCheckSrc [va] with
    | some t => .next (s.trap t)
    | none =>
      if s.vStall [va] none then .next (s.stall .retry)
      else
        let x := s.srcV va
        .next ((s.popV [va]).putSummary zd x.psn (summaryOf (s.lane k) fun i => elemAt 32 x.val i != 0))

/-- VPACK: elements of va, then of vb, at half the width (R306). -/
def execVpack (sw : PackW) (n dn sat : Bool) (vd va vb : VReg) (k : KReg) (s : State) : Out :=
  let ws := match sw with | .w16 => 16 | .w32 => 32
  let wd := ws / 2
  let cnt := 1024 / ws
  s.vop [va, vb] vd (readsOld k false) 4 fun vs old =>
    let r (e : Nat) : BitVec wd × Flags :=
      let x := (elemAt ws (if e < cnt then vs.getD 0 0 else vs.getD 1 0) (e % cnt)).toNat
      if sat then
        let c := saturate wd dn (intVal ws n x)
        (wrap wd c.1, flagIf c.2 flagSI)
      else (.ofNat wd x, 0)
    (s.merge k wd (fun e => (r e).1) old, s.flagsOf k wd (1024 / wd) fun e => (r e).2)

/-- VUNPK: elements of part P extended to twice the width (R306). -/
def execVunpk (dw : PackW) (n : Bool) (vd va : VReg) (p : BitVec 1) (k : KReg) (s : State) : Out :=
  let wd := match dw with | .w16 => 16 | .w32 => 32
  let ws := wd / 2
  s.vop [va] vd (readsOld k false) 4 fun vs old =>
    (s.merge k wd (fun e => wrap wd (intVal ws n (elemAt ws (vs.getD 0 0) (p.toNat * (1024 / wd) + e)).toNat)) old, 0)

end Sys2Proof.Machine
end

