-- ==== Sys2Proof/Machine/VectorFp.lean ====
section
/-!
DEFINITION. Reductions (R47 to R50, R296) and floating-point arithmetic (R298 to R301) of the V slots, and their
conversions (R302 to R305).
-/
namespace Sys2Proof.Machine

/-- The format of a floating type (R298). -/
def fmtOf : FT → Fmt
  | .f32 => .f32 | .f16 => .f16 | .bf16 => .bf16

/-- The format of a VCVT type (R303). -/
def cvtFmt : CvtT → Fmt
  | .f32 => .f32 | .f16 => .f16 | .bf16 => .bf16 | .e4m3 => .e4m3 | .e5m2 => .e5m2 | .e2m1 => .e2m1

/-! ## Reductions -/

/-- One level of the pairwise tree over present and absent inputs (R47, R48). -/
def treeLevel {α : Type} (f : α → α → α × Flags) : List (Option α) → List (Option α) × Flags
  | [] => ([], 0)
  | [x] => ([x], 0)
  | x :: y :: xs =>
    let r := treeLevel f xs
    match x, y with
    | some a, some b => (some (f a b).1 :: r.1, (f a b).2 ||| r.2)
    | some a, none => (some a :: r.1, r.2)
    | none, y => (y :: r.1, r.2)

/-- The tree, level by level. -/
def tree {α : Type} (f : α → α → α × Flags) : Nat → List (Option α) → Option α × Flags
  | 0, xs => (xs.head?.join, 0)
  | n + 1, xs =>
    let r := treeLevel f xs
    let q := tree f n r.1
    (q.1, r.2 ||| q.2)

/-- The elements of a register under an input mask (R48). -/
def State.inputs (s : State) (k : KReg) (w : Nat) (x : VWord) : List (Option Nat) :=
  (List.range (1024 / w)).map fun e => if s.lane k (e * w / 32) then some (elemAt w x e).toNat else none

/-- VREDA (R296): floating sums round in the tree; an integer sum is formed exactly and narrowed once to 32 bits. -/
def execVreda (f : RedaForm) (vd va : VReg) (k : KReg) (s : State) : Out :=
  s.vop [va] vd false 8 fun vs _ =>
    match f with
    | .fp t =>
      let fm := fmtOf t
      let r := tree (fun a b => fm.add .rne (fm.decode a) (fm.decode b)) 6 (s.inputs k t.bits (vs.getD 0 0))
      (.ofNat 1024 (r.1.getD 0), r.2)
    | .int g =>
      let sum := (s.inputs k g.w.bits (vs.getD 0 0)).foldl (fun t x => match x with
        | some a => t + intVal g.w.bits g.n a
        | none => t) (0 : Int)
      let r := narrow 32 g.n g.sat sum
      (r.1.setWidth 1024, r.2)

/-- VREDM (R50, R296). -/
def execVredm (max : Bool) (f : RedmForm) (vd va : VReg) (k : KReg) (s : State) : Out :=
  s.vop [va] vd false 8 fun vs _ =>
    match f with
    | .fp t =>
      let r := tree (fun a b => (fmtOf t).minMax max a b) 6 (s.inputs k t.bits (vs.getD 0 0))
      (.ofNat 1024 (r.1.getD 0), r.2)
    | .int w n =>
      let pick (a b : Nat) : Nat × Flags :=
        let lt := decide (intVal w.bits n a < intVal w.bits n b)
        (if lt != max then a else b, 0)
      let r := tree pick 7 (s.inputs k w.bits (vs.getD 0 0))
      (match r.1 with
        | some x => (wrap 32 (intVal w.bits n x)).setWidth 1024
        | none => 0, 0)

/-! ## Arithmetic -/

/-- A one-source floating operation. -/
def State.vfp1 (s : State) (t : FT) (vd va : VReg) (k : KReg) (bound : Nat) (f : Fmt → FVal → Nat × Flags) : Out :=
  s.vop [va] vd (readsOld k false) bound fun vs old =>
    let r (e : Nat) := f (fmtOf t) ((fmtOf t).decode (elemAt t.bits (vs.getD 0 0) e).toNat)
    (s.merge k t.bits (fun e => .ofNat t.bits (r e).1) old, s.flagsOf k t.bits (1024 / t.bits) fun e => (r e).2)

/-- A two-source floating operation on patterns. -/
def State.vfp2 (s : State) (t : FT) (vd va vb : VReg) (k : KReg) (f : Fmt → Nat → Nat → Nat × Flags) : Out :=
  s.vop [va, vb] vd (readsOld k false) 4 fun vs old =>
    let r (e : Nat) := f (fmtOf t) (elemAt t.bits (vs.getD 0 0) e).toNat (elemAt t.bits (vs.getD 1 0) e).toNat
    (s.merge k t.bits (fun e => .ofNat t.bits (r e).1) old, s.flagsOf k t.bits (1024 / t.bits) fun e => (r e).2)

/-- VFADD (R298). -/
def execVfadd (t : FT) (rm : Rm) (vd va vb : VReg) (k : KReg) (s : State) : Out :=
  s.vfp2 t vd va vb k fun f a b => f.add rm (f.decode a) (f.decode b)

/-- VFSUB (R298). -/
def execVfsub (t : FT) (rm : Rm) (vd va vb : VReg) (k : KReg) (s : State) : Out :=
  s.vfp2 t vd va vb k fun f a b => f.add rm (f.decode a) (f.decode b).neg

/-- VFMUL (R298). -/
def execVfmul (t : FT) (rm : Rm) (vd va vb : VReg) (k : KReg) (s : State) : Out :=
  s.vfp2 t vd va vb k fun f a b => f.mul rm (f.decode a) (f.decode b)

/-- Does a sub-op negate the product, or c (R299)? -/
def FmaNeg (f : FmaForm) : Bool × Bool :=
  match f with
  | .pp => (false, false) | .ms => (false, true) | .nm => (true, false) | .nms => (true, true)

/-- VFMA (R299). -/
def execVfma (f : FmaForm) (t : FT) (rm : Rm) (vd va vb vc : VReg) (k : KReg) (s : State) : Out :=
  s.vop [va, vb, vc] vd (readsOld k false) 5 fun vs old =>
    let fm := fmtOf t
    let x (i e : Nat) := fm.decode (elemAt t.bits (vs.getD i 0) e).toNat
    let r (e : Nat) := fm.fma rm (FmaNeg f).1 (FmaNeg f).2 (x 0 e) (x 1 e) (x 2 e)
    (s.merge k t.bits (fun e => .ofNat t.bits (r e).1) old, s.flagsOf k t.bits (1024 / t.bits) fun e => (r e).2)

/-- VFMIN (R50). -/
def execVfmin (t : FT) (vd va vb : VReg) (k : KReg) (s : State) : Out :=
  s.vfp2 t vd va vb k fun f a b => f.minMax false a b

/-- VFMAX (R50). -/
def execVfmax (t : FT) (vd va vb : VReg) (k : KReg) (s : State) : Out :=
  s.vfp2 t vd va vb k fun f a b => f.minMax true a b

/-- VFRCP (R300). -/
def execVfrcp (t : FT) (rm : Rm) (vd va : VReg) (k : KReg) (s : State) : Out :=
  s.vfp1 t vd va k 4 fun f a => f.rcp rm a

/-- VFRSQ (R300). -/
def execVfrsq (t : FT) (rm : Rm) (vd va : VReg) (k : KReg) (s : State) : Out :=
  s.vfp1 t vd va k 4 fun f a => f.rsq rm a

/-- VFEXP2 (R300). -/
def execVfexp2 (t : FT) (rm : Rm) (vd va : VReg) (k : KReg) (s : State) : Out :=
  s.vfp1 t vd va k 4 fun f a => f.exp2 rm a

/-- VFLOG2 (R300). -/
def execVflog2 (t : FT) (rm : Rm) (vd va : VReg) (k : KReg) (s : State) : Out :=
  s.vfp1 t vd va k 4 fun f a => f.log2 rm a

/-- VFCMP (R301). -/
def execVfcmp (cc : FCond) (t : FT) (agg : Bool) (kd : KReg) (va vb : VReg) (k : KReg) (s : State) : Out :=
  s.vopK [va, vb] kd 4 fun vs =>
    let fm := fmtOf t
    let r (e : Nat) := fcmp cc (fm.decode (elemAt t.bits (vs.getD 0 0) e).toNat)
      (fm.decode (elemAt t.bits (vs.getD 1 0) e).toNat)
    (s.laneBits k t.bits agg (fun e => (r e).1) (s.rdK kd), s.flagsOf k t.bits (1024 / t.bits) fun e => (r e).2)

/-! ## Conversions -/

/-- A conversion between widths (R302): source element of destination element e in part P, none where the destination
keeps its value. -/
def partSrc (ws wd p e : Nat) : Option Nat :=
  let n := 1024 / max ws wd
  if wd < ws then (if p * n ≤ e ∧ e < p * n + n then some (e - p * n) else none)
  else if ws < wd then some (p * n + e)
  else some e

/-- Convert elements of width ws into elements of width wd under a mask (R286, R302). A narrowing into a register keeps
the other elements; a push has them zero (R287). -/
def State.vconv (s : State) (ws wd p : Nat) (vd va : VReg) (k : KReg) (f : Nat → BitVec wd × Flags) : Out :=
  s.vop [va] vd (readsOld k (decide (wd < ws))) 4 fun vs old =>
    let r (e : Nat) : Option (BitVec wd × Flags) :=
      (partSrc ws wd p e).map fun i => f (elemAt ws (vs.getD 0 0) i).toNat
    (s.merge k wd (fun e => match r e with
        | some x => x.1
        | none => elemAt wd old e) old,
      s.flagsOf k wd (1024 / wd) fun e => match r e with
        | some x => x.2
        | none => 0)

/-- VCVT (R303). -/
def execVcvt (dt st : CvtT) (rm : Rm) (vd va : VReg) (p : BitVec 3) (k : KReg) (s : State) : Out :=
  s.vconv st.bits dt.bits p.toNat vd va k fun x =>
    (.ofNat dt.bits (convert (cvtFmt st) (cvtFmt dt) rm x).1, (convert (cvtFmt st) (cvtFmt dt) rm x).2)

/-- VCVTI (R304). -/
def execVcvti (toFloat : Bool) (t : FT) (n : Bool) (w : EW) (rm : Rm) (vd va : VReg) (p : BitVec 3) (k : KReg)
    (s : State) : Out :=
  if toFloat then s.vconv w.bits t.bits p.toNat vd va k fun x =>
    let r := intToFloat (fmtOf t) rm (intVal w.bits n x)
    (.ofNat t.bits r.1, r.2)
  else s.vconv t.bits w.bits p.toNat vd va k fun x => floatToInt (fmtOf t) w.bits n rm x

/-- The checks of VCVTX to block: the galley traps of va and vd, reason 6 for a galley as vb, and a push of poison
(R305, R450). -/
def vcvtxCheck (vd va vb : VReg) (s : State) : Option Trap :=
  firstTrap [s.popCheck va, s.pushCheck vd,
    if (s.galley? vb).isSome then some (s.galleyTrap 6 vb) else none,
    if (s.galley? vd).isSome then
      (s.poisoned? [va, vb]).map fun v => s.poisonTrap true v.toNat else none]

/-- VCVTX to block: elements and scale bytes of part P; both destinations are sources (R43, R305). -/
def State.toBlk (s : State) (t : FT) (bt : BlkT) (rm : Rm) (vd va vb : VReg) (p : Nat) : Out :=
  match vcvtxCheck vd va vb s with
  | some x => .next (s.trap x)
  | none =>
    if s.vStall [va] (some vd) then .next (s.stall .retry)
    else
      let fm := fmtOf t
      let n := 1024 / t.bits
      let a := s.srcV va
      let od := s.oldV vd
      let ob := s.rdV vb
      let blk (j : Nat) := toBlock bt rm ((List.range 4).map fun i => fm.decode (elemAt t.bits a.val (4 * j + i)).toNat)
      let blks := (List.range (n / 4)).map blk
      let d := ofElems bt.bits fun e =>
        if p * n ≤ e ∧ e < p * n + n then
          .ofNat bt.bits (((blks[(e - p * n) / 4]?.map (·.2.1)).getD []).getD ((e - p * n) % 4) 0)
        else elemAt bt.bits od.val e
      let b := ofElems 8 fun e =>
        if p * n / 4 ≤ e ∧ e < p * n / 4 + n / 4 then .ofNat 8 ((blks[e - p * n / 4]?.map (·.1)).getD 0)
        else elemAt 8 ob.val e
      let fl := blks.foldl (fun f x => f ||| x.2.2) 0
      let psn := a.psn || od.psn || ob.psn
      .next ((((s.popV [va]).putV vd d psn 4).put (.v vb) b psn 4).putFlags fl 4)

/-- VCVTX from block (R45, R305). -/
def State.fromBlk (s : State) (t : FT) (bt : BlkT) (rm : Rm) (vd va vb : VReg) (p : Nat) : Out :=
  s.vop [va, vb] vd false 4 fun vs _ =>
    let n := 1024 / t.bits
    let r (e : Nat) := fromBlock bt (fmtOf t) rm (elemAt 8 (vs.getD 1 0) ((p * n + e) / 4)).toNat
      (elemAt bt.bits (vs.getD 0 0) (p * n + e)).toNat
    (ofElems t.bits fun e => .ofNat t.bits (r e).1, (List.range n).foldl (fun f e => f ||| (r e).2) 0)

/-- VCVTX (R305). -/
def execVcvtx (fromB : Bool) (t : FT) (bt : BlkT) (rm : Rm) (vd va vb : VReg) (p : BitVec 3) (s : State) : Out :=
  if fromB then s.fromBlk t bt rm vd va vb p.toNat else s.toBlk t bt rm vd va vb p.toNat

end Sys2Proof.Machine
end

