-- ==== Sys2Proof/Machine/TileMove.lean ====
section
/-!
DEFINITION. Tile shapes and elements (R166, R167), and the tile moves VTRD, VTCD and VTWR (R307 to R309).
-/
namespace Sys2Proof.Machine

/-- A tile shape with its fields (R167); NROWS and NCOLS are the fields plus one (R166). -/
structure Shape where
  bax : Bool
  bs : Bool
  w : Nat
  rows : Nat
  cols : Nat
deriving DecidableEq, Repr

def shapeOf (x : BitVec 32) : Shape :=
  ⟨x.getLsbD 31, x.getLsbD 30, 4 * 2 ^ bitsAt x.toNat 28 2, bitsAt x.toNat 11 11 + 1, bitsAt x.toNat 0 11 + 1⟩

/-- Does a shape meet R166? -/
def Shape.ok (h : Shape) : Bool :=
  h.cols * h.w % 128 == 0 && h.rows * h.cols * h.w / 8 ≤ 32768 &&
    (!h.bs || ((if h.bax then h.rows % 4 == 0 else h.cols % 4 == 0) && h.rows * h.cols ≤ 32768))

/-- The shape trap: tile and reason (R441). -/
def State.shapeTrap (s : State) (tile reason : Nat) : Trap := s.trapOf 0x0009 (tile * 2 ^ 32 + reason)
def State.indexTrap (s : State) (tile idx : Nat) : Trap := s.trapOf 0x000A (tile * 2 ^ 32 + idx)

/-- Element (r, c), row-major (R166). -/
def Shape.elem (h : Shape) (t : Store) (r c : Nat) : Nat :=
  let i := r * h.cols + c
  if h.w = 4 then (t.get (i / 2)).toNat / 16 ^ (i % 2) % 16 else ofBytes (t.read (i * (h.w / 8)) (h.w / 8))

def Shape.setElem (h : Shape) (t : Store) (r c v : Nat) : Store :=
  let i := r * h.cols + c
  if h.w = 4 then t.set (i / 2) (setField (t.get (i / 2)) (4 * (i % 2)) 4 v)
  else t.write (i * (h.w / 8)) (toBytes (h.w / 8) v)

/-- First byte of element (r, c). -/
def Shape.byteOf (h : Shape) (r c : Nat) : Nat := (r * h.cols + c) * h.w / 8

/-- Place of the scale of the block at block index j along the block axis, at the given other index (R166); the band
begins at 0x8000 (R335). -/
def Shape.bandRow (h : Shape) (r j : Nat) : Nat := 0x8000 + r * h.cols / 4 + j
def Shape.bandCol (h : Shape) (c j : Nat) : Nat := 0x8000 + j * h.cols + c

/-- Elements of a segment (R307, R308). -/
def TileCv.count (cv : TileCv) (h : Shape) : Nat :=
  match cv with
  | .bf16 => 32
  | _ => 1024 / h.w

/-- Does the shape meet the requirement of a CV code (R307)? -/
def cvOk (cv : TileCv) (h : Shape) (byCol : Bool) : Bool :=
  match cv with
  | .plain => true
  | .band => h.bs && h.bax == byCol
  | .bf16 => h.w == 16

/-- The checks of a tile move before its register's (R307, R308, R458). -/
def State.moveCheck (s : State) (cv : TileCv) (tile : TileNo) (idx : BitVec 11) (seg : BitVec 5) (byCol : Bool) :
    Option Trap :=
  let h := shapeOf (s.rdShape tile.toNat)
  match s.tileCheck tile.toNat with
  | some t => some t
  | none =>
    if !h.ok then some (s.shapeTrap tile.toNat 0)
    else if !cvOk cv h byCol then some (s.shapeTrap tile.toNat 5)
    else if (if byCol then h.cols ≤ idx.toNat else h.rows ≤ idx.toNat) ∨
        (if byCol then h.rows else h.cols) ≤ seg.toNat * TileCv.count cv h then some (s.indexTrap tile.toNat idx.toNat)
    else none

/-- The bytes of a segment that lie in the tile, as ranges of the tile space (R309). -/
def Shape.segRanges (h : Shape) (cv : TileCv) (byCol : Bool) (idx seg : Nat) : List (Nat × Nat) :=
  let n := TileCv.count cv h
  match cv with
  | .band =>
    if byCol then ((List.range (n / 4)).filter fun j => seg * n / 4 + j < h.rows / 4).map fun j =>
      (h.bandCol idx (seg * n / 4 + j), h.bandCol idx (seg * n / 4 + j) + 1)
    else [(h.bandRow idx (seg * n / 4), h.bandRow idx (min (seg * n / 4 + n / 4) (h.cols / 4)))]
  | _ =>
    if byCol then ((List.range n).filter fun e => seg * n + e < h.rows).map fun e =>
      (h.byteOf (seg * n + e) idx, h.byteOf (seg * n + e) idx + (h.w + 7) / 8)
    else [(h.byteOf idx (seg * n), h.byteOf idx (min (seg * n + n) h.cols))]

/-- Does a segment overlap range-scoreboard entries of another instruction? -/
def State.segBusy (s : State) (tile : TileNo) (rs : List (Nat × Nat)) (onlyWrites : Bool) : Bool :=
  let b := s.physTile tile.toNat * 0xA000
  rs.any fun r => s.cc.rangeBusy 2 (b + r.1) (b + r.2) s.nextId onlyWrites

/-- The register content of a segment (R307, R308): element e of width w. -/
def Shape.segElem (h : Shape) (t : Store) (byCol : Bool) (idx seg n e : Nat) : Nat :=
  let i := seg * n + e
  if byCol then (if i < h.rows then h.elem t i idx else 0) else (if i < h.cols then h.elem t idx i else 0)

/-- Band byte j of a segment, 0 beyond the end. -/
def Shape.segBand (h : Shape) (t : Store) (byCol : Bool) (idx seg n j : Nat) : Nat :=
  let i := seg * n / 4 + j
  if n / 4 ≤ j then 0
  else if byCol then (if i < h.rows / 4 then (t.get (h.bandCol idx i)).toNat else 0)
  else (if i < h.cols / 4 then (t.get (h.bandRow idx i)).toNat else 0)

/-- VTRD and VTCD: read a segment of a row or column (R308) (DEDUCED, log 74). -/
def State.tileToReg (s : State) (byCol : Bool) (cv : TileCv) (vd : VReg) (tile : TileNo) (idx : BitVec 11)
    (seg : BitVec 5) (k : KReg) : Out :=
  match firstTrap [s.moveCheck cv tile idx seg byCol, s.pushCheck vd] with
  | some t => .next (s.trap t)
  | none =>
    let h := shapeOf (s.rdShape tile.toNat)
    let st := s.cc.tile (s.physTile tile.toNat)
    let n := TileCv.count cv h
    if s.segBusy tile (h.segRanges cv byCol idx.toNat seg.toNat) true then .next (s.stall .retry)
    else s.vop [] vd (readsOld k false) 4 fun _ old =>
      (match cv with
        | .plain => s.merge k h.w (fun e => .ofNat h.w (h.segElem st byCol idx.toNat seg.toNat n e)) old
        | .band => s.merge k 8 (fun j => .ofNat 8 (h.segBand st byCol idx.toNat seg.toNat n j)) old
        | .bf16 => s.merge k 32 (fun e => .ofNat 32 (h.segElem st byCol idx.toNat seg.toNat n e * 2 ^ 16)) old, 0)

/-- VTRD. -/
def execVtrd (cv : TileCv) (vd : VReg) (tile : TileNo) (idx : BitVec 11) (seg : BitVec 5) (k : KReg) (s : State) : Out :=
  s.tileToReg false cv vd tile idx seg k

/-- VTCD. -/
def execVtcd (cv : TileCv) (vd : VReg) (tile : TileNo) (idx : BitVec 11) (seg : BitVec 5) (k : KReg) (s : State) : Out :=
  s.tileToReg true cv vd tile idx seg k

/-- The checks of VTWR's register: the poison trap, then the galley trap (R458). -/
def vtwrCheck (vs : VReg) (s : State) : Option Trap :=
  firstTrap [if (s.srcV vs).psn then some (s.poisonTrap true vs.toNat) else none, s.popCheck vs]

/-- VTWR's effect on the tile, with its flags (R308) (DEDUCED, log 74). -/
def State.regToTile (s : State) (h : Shape) (st : Store) (cv : TileCv) (x : VWord) (idx seg : Nat) (k : KReg) :
    Store × Flags :=
  let n := TileCv.count cv h
  match cv with
  | .plain =>
    ((List.range n).foldl (fun t e =>
      if seg * n + e < h.cols && s.lane k (e * h.w / 32) then
        h.setElem t idx (seg * n + e) (elemAt h.w x e).toNat else t) st, 0)
  | .band =>
    ((List.range (n / 4)).foldl (fun t j =>
      if seg * n / 4 + j < h.cols / 4 && s.lane k (j / 4) then
        t.set (h.bandRow idx (seg * n / 4 + j)) (elemAt 8 x j) else t) st, 0)
  | .bf16 =>
    (List.range n).foldl (fun (p : Store × Flags) e =>
      if seg * n + e < h.cols && s.lane k e then
        let r := convert .f32 .bf16 .rne (elemAt 32 x e).toNat
        (h.setElem p.1 idx (seg * n + e) r.1, p.2 ||| r.2)
      else p) (st, 0)

/-- The poison marks of the tile units that a segment's active lanes write whole are cleared (R480). -/
def State.clearSeg (s : State) (h : Shape) (cv : TileCv) (pt idx seg : Nat) (k : KReg) : State :=
  let lane (b : Nat) : Bool := s.lane k (match cv with
    | .bf16 => b / 2
    | _ => b / 4)
  let whole (u : Nat) : Bool := (h.segRanges cv false idx seg).any fun r =>
    let lo := pt * 0xA000 + r.1
    lo ≤ 32 * u && 32 * u + 32 ≤ pt * 0xA000 + r.2 && (List.range 32).all fun i => lane (32 * u + i - lo)
  { s with locPoison := s.locPoison.filter fun e => !(e.1 == s.cur.cl.toNat && e.2.1 == 2 && whole e.2.2) }

/-- VTWR (R307 to R309). -/
def execVtwr (cv : TileCv) (vs : VReg) (tile : TileNo) (idx : BitVec 11) (seg : BitVec 5) (k : KReg) (s : State) : Out :=
  match firstTrap [s.moveCheck cv tile idx seg false, vtwrCheck vs s] with
  | some t => .next (s.trap t)
  | none =>
    let h := shapeOf (s.rdShape tile.toNat)
    let pt := s.physTile tile.toNat
    if s.segBusy tile (h.segRanges cv false idx.toNat seg.toNat) false || s.vStall [vs] none then
      .next (s.stall .retry)
    else
      let r := s.regToTile h (s.cc.tile pt) cv (s.srcV vs).val idx.toNat seg.toNat k
      .next ((((s.popV [vs]).clearSeg h cv pt idx.toNat seg.toNat k).modCc fun c => c.modTile pt fun _ => r.1).putFlags r.2 4)

end Sys2Proof.Machine
end

