-- ==== Sys2Proof/Machine/Load.lean ====
section
/-!
DEFINITION. The L slot (R311 to R326): loads from local store, stash granules and CACHE regions, whose bound is 6, and
far loads, which are entered as accesses and deliver when they have performed (R315).
-/
namespace Sys2Proof.Machine

/-! ## What serves an access (R160, R162, R312) -/

/-- How an access is served: from a physical local address, after a wait for a granule, at its home, or not at all. -/
inductive Serve where
  | here (phys : Nat)
  | granule (region idx : Nat)
  | far
  | fault (cause : Nat)
  /-- A RESHAPE blocks the region (R161). -/
  | wait
deriving DecidableEq, Repr

/-- A granule of a region, present and, for a write, writable (R162, R163). -/
def Region.hasGran (r : Region) (idx : Nat) (write : Bool) : Bool :=
  r.gran.any fun g => g.idx == idx && (g.st == .exclusive || !write)

/-- A stash access: present, or to be filled; a failed fill ends the wait (R162, R500) (DESIGN CHOICE, log 21). -/
def State.serveStash (s : State) (k r off : Nat) (write eng : Bool) : Serve :=
  let c := s.cluster k
  if (c.region r).hasGran (off / 4096) write then .here (r * 2 ^ 17 + off)
  else match (c.stashReqs.find? fun q => q.region == r && q.idx == off / 4096 && q.eng == eng).bind (·.failed) with
    | some f => .fault f
    | none => .granule r (off / 4096)

/-- The context's CACHE regions in ascending order, as physical numbers (R160). -/
def State.cacheRegions (s : State) (k c : Nat) : List Nat :=
  let b := (s.ctx k c).bnd
  ((List.range b.creg).map fun r => b.reg0 + r).filter fun r => ((s.cluster k).region r).mode == .cache

/-- The CACHE region that a line belongs to (R160). -/
def State.cacheOf (s : State) (k c va : Nat) : Option Nat :=
  let rs := s.cacheRegions k c
  if rs.isEmpty then none else rs[va / 2 ^ 14 % rs.length]?

/-- The CACHE line that holds an address. -/
def State.cacheHit (s : State) (k c asid va : Nat) : Option (Nat × CLine) :=
  (s.cacheOf k c va).bind fun r =>
    (((s.cluster k).region r).lines.find? fun l => l.vline == va / 256 && l.asid == asid).map fun l => (r, l)

/-- Does a hint use the CACHE region (R158)? -/
def Hint.inCache (n : Hint) : Bool := n = .none || n = .nas

/-- The CACHE region of the context serves an access that hits it: a plain one under NORMAL or NAS (R158, R160). -/
def Access.cacheable (a : Access) : Bool :=
  a.eng == 0 && !a.isLdx && a.acq.isNone && a.rel.isNone && Hint.inCache a.hint && match a.op, a.dst with
    | .load, .watch .. => false
    | .load, _ => true
    | .store, _ => true
    | .pref, _ => true
    | .rfetch, _ => true
    | _, _ => false

/-- Does a RESHAPE of an earlier number block a region (R161)? -/
def Cluster.reshaping (c : Cluster) (r id : Nat) : Bool :=
  c.copies.any fun y => y.id < id && match y.op with
    | .reshape q _ => q == r || y.gaddrs.contains r
    | _ => false

/-- Does a RESHAPE block the CACHE region of an address (R161)? -/
def State.reshapes (s : State) (k c va id : Nat) : Bool := (s.cacheOf k c va).any fun r => (s.cluster k).reshaping r id

/-- The location that a physical local address stands for: that of the stash granule or CACHE line which holds it, or its
own (R162, R184). -/
def State.localSpot (s : State) (k p : Nat) : Nat × Nat :=
  let r := (s.cluster k).region (p / 2 ^ 17)
  match r.lines.find? fun l => l.place == p % 2 ^ 17 / 256 * 256 with
  | some l => (0, l.pline * 256 + p % 256)
  | none => s.granSpot k p

/-- Is there an earlier access of the group that a load of these bytes must wait for: not performed, and not a held
plain store, whose bytes the load sees (R92, R184, R204)? One that is not translated yet may reach any bytes but plain local
ones. -/
def State.loadWaits (s : State) (at' : Nat × Nat) (len : Nat) : Bool :=
  s.accs.any fun b => b.ofGroup s.me.bnd && b.eng == 0 && b.isData && !b.isLdx && !b.over &&
    !(b.isPlainStore && b.st == .held && b.tr != .pending) && match s.spot b with
      | some q => q.1 == at'.1 && at'.2 < q.2 + b.len && q.2 < at'.2 + len && (s.elementShadow b).1
      | none => at'.1 != 3

/-- Does an earlier local access of the group still have to perform, sent on but not done (R187)? -/
def State.localBehind (s : State) : Bool :=
  s.accs.any fun b => b.ofGroup s.me.bnd && b.loc && b.st != .held && !b.over

/-- Does an earlier LDA or FENCE of the context hold back a later access of the class (R188, R190)? -/
def State.classHeld (s : State) (cls : Nat) : Bool :=
  s.accs.any fun b => b.ofGroup s.me.bnd && b.eng == 0 && !b.isLdx &&
    (if b.op = .fence then s.fenceHolds b cls
     else !b.over && ((b.isLoad && !b.loc && b.cls == cls) || (match b.acq with
       | some (_, m) => inMask m cls
       | none => false)))

/-- How a far access is served (R160, R162). One that hits, but that an ordering rule holds back, is entered as an access: it
delivers like a load from beyond the cluster, with no bound (DESIGN CHOICE, log 102). -/
def State.serveFar (s : State) (va len : Nat) (write : Bool) (hint : Hint) (cls : Nat) : Serve :=
  let k := s.cur.cl.toNat
  if 2 ^ 52 ≤ va then .far
  else match s.cc.stashAt s.me.bnd.asid va with
    | some (r, off) =>
      if s.cc.reshaping r s.nextId then .wait
      else match s.serveStash k r off write false with
      | .here p => if write || s.loadWaits (s.localSpot k p) len || s.classHeld cls then .far else .here p
      | x => x
    | none =>
      if write ∨ hint = .nal ∨ hint = .byp ∨ s.classHeld cls then .far
      else if s.reshapes k s.cur.ctx.toNat va s.nextId then .wait
      else match s.cacheHit k s.cur.ctx.toNat s.me.bnd.asid va with
        | some (r, l) => if s.loadWaits (0, l.pline * 256 + va % 256) len then .far else .here (r * 2 ^ 17 + l.place + va % 256)
        | none => .far

/-- How a local access is served: a STASH region by its granules, any other region directly (R160, log 21). A load that
must wait for an earlier access to its bytes, or for a local access that is under way, is entered as an access (R184,
R187). -/
def State.serveLocal (s : State) (a len : Nat) (write : Bool) : Serve :=
  let k := s.cur.cl.toNat
  let p := s.physLocal a
  let r := s.cc.region (p / 2 ^ 17)
  let go : Serve := if !write && (s.loadWaits (s.localSpot k p) len || s.localBehind) then .far else .here p
  if r.mode = .stash ∧ r.map.isSome then
    match s.serveStash k (p / 2 ^ 17) (p % 2 ^ 17) write false with
    | .here _ => go
    | x => x
  else go

/-- Request a granule: the context waits (R162); for an engine's access a page that is not resident is asked of the pager
(R175, R448). -/
def State.wantGranule (s : State) (r idx : Nat) (write eng : Bool) : State :=
  let k := s.cur.cl.toNat
  if s.cc.stashReqs.any fun q => q.region == r && q.idx == idx && q.eng == eng && (q.write || !write) then
    (s.stall .retry).ends (.granule r idx write eng)
  else
    let base := ((s.cc.region r).map.map (·.1)).getD 0
    let q : StashReq := ⟨s.nextId, r, idx, base + idx * 4096, s.me.bnd.asid, s.me.bnd.tenant, write, [], [], none, eng⟩
    ((({ s.modCc fun c => { c with stashReqs := c.stashReqs ++ [q] } with nextId := s.nextId + 1 }).soon
      [.stashGranuleFill (.ofNat 9 k) s.nextId]).stall .retry).ends (.granule r idx write eng)

/-- The virtual address of the byte that an access of the slot in issue names: of a granule's byte when it is local. -/
def State.eaVa (s : State) (loc : Bool) (ea : Nat) : Nat :=
  if loc then (s.granVa s.cur.cl.toNat (s.physLocal ea)).getD ea else ea

/-- A failed fill of a virtual address has ended the request of a context's access (R500). -/
def Cluster.dropReq (c : Cluster) (asid va : Nat) : Cluster :=
  match c.stashAt asid va with
  | some (r, off) => { c with stashReqs := c.stashReqs.filter fun q => !(q.region == r && q.idx == off / 4096 && !q.eng) }
  | none => c
def State.dropReq (s : State) (va : Nat) : State := s.modCc fun c => c.dropReq s.me.bnd.asid va

/-! ## Forwarding from held writes (R92) -/

/-- The last held byte of the context for a location (R92). -/
def State.heldByte (s : State) (k c : Nat) (before : Nat) (at' : Nat × Nat) : Option Byte :=
  s.accs.foldl (fun r x =>
    if x.heldBy k c && x.isPlainStore && x.ord < before then
      match s.spot x with
      | some q => if q.1 = at'.1 ∧ q.2 ≤ at'.2 ∧ at'.2 < q.2 + x.len then x.data[at'.2 - q.2]? else r
      | none => r
    else r) none

/-- Bytes from a location with the context's held writes over them. -/
def State.withHeld (s : State) (k c : Nat) (before : Nat) (at' : Nat × Nat) (bs : List Byte) : List Byte :=
  (bs.zip (List.range bs.length)).map fun e => (s.heldByte k c before (at'.1, at'.2 + e.2)).getD e.1

/-- What a launch reads at a place of memory: undefined where it has broken R156 (R6, log 92). -/
def State.asRead (s : State) (launch : Nat) (at' : Nat × Nat) (bs : List Byte) : List Byte × State :=
  if at'.1 = 0 ∧ (List.range bs.length).any (fun i => s.forme.broken.contains (launch, (at'.2 + i) / 256)) then
    (bs.zip (List.range bs.length)).foldl (fun t e =>
      if s.forme.broken.contains (launch, (at'.2 + e.2) / 256) then let r := t.2.freshBits 8; (t.1 ++ [r.1], r.2)
      else (t.1 ++ [e.1], t.2)) ([], s)
  else (bs, s)

/-- Bytes read at a physical local address for a far (stash, CACHE) or a local load. -/
def State.readHere (s : State) (phys len : Nat) : List Byte :=
  let k := s.cur.cl.toNat
  s.withHeld k s.cur.ctx.toNat s.me.ord (s.localSpot k phys) (s.cc.locRead phys len)

/-- What the context in issue reads there (R92, R156). -/
def State.loadBytes (s : State) (phys len : Nat) : List Byte × State :=
  s.asRead s.me.bnd.launch (s.localSpot s.cur.cl.toNat phys) (s.readHere phys len)

/-! ## Delivery -/

/-- The register value of loaded bytes (R317). -/
def loadValue (d : AccDst) (bs : List Byte) : VWord :=
  let x := ofBytes bs
  match d with
  | .s _ sx => if sx then (wrap 64 (toSigned (8 * bs.length) x)).setWidth 1024 else .ofNat 1024 x
  | .a _ sx => if sx then (wrap 64 (toSigned (8 * bs.length) x)).setWidth 1024 else .ofNat 1024 x
  | _ => .ofNat 1024 x

/-- The register of a destination. -/
def AccDst.reg : AccDst → Option Dst
  | .s n _ => some (.s n)
  | .a n _ => some (.a n)
  | .v n => some (.v n)
  | .elem n _ => some (.v n)
  | _ => Option.none

/-- A far load's destination: undefined until its completion, the old value or the new one (R6, R315). -/
def State.owe (s : State) (d : Dst) (cls : Nat) : State :=
  let p : Pend := ⟨s.nextId, d, 0, false, none, false, cls, none⟩
  { s.modMe fun x => { x with pend := x.pend ++ [p] } with nextId := s.nextId + 1 }

/-- Outstanding far requests of a cluster (R315). -/
def State.outstanding (s : State) (k : Nat) : Nat :=
  (s.accs.filter fun a => a.cl == k && a.st != .done && a.eng == 0 && (a.op == .load || a.op == .rfetch || a.op == .cbtake)).length

def State.requestsFree (s : State) (n : Nat) : Bool := s.outstanding s.cur.cl.toNat + n ≤ 1024

/-- Enter a far load with its destination. -/
def State.farLoad (s : State) (a : Access) (d : AccDst) : State :=
  match d.reg with
  | some r =>
    let s1 := s.owe r a.cls
    s1.issueFar { a with id := s1.nextId, dst := d, tag := s1.nextId - 1 }
  | none => s.issueFar { a with dst := d }

/-- DLOAD of a load of the slot in issue that has met a poison mark: its virtual address, zero for a local one (R441,
R480). -/
def State.dload (s : State) (loc : Bool) (cls ea : Nat) : State :=
  s.defer s.cur.cl.toNat s.cur.ctx.toNat
    ⟨tcauseOf (some s.cur.slot) false 0x0027, tinfoOf s.cur.bpc (if loc then 0 else farDetail cls ea), true, s.nextId, none,
      false⟩

/-- Is a destination an a register? -/
def AccDst.isA : AccDst → Bool
  | .a .. => true
  | _ => false

/-- A load served here: bound 6, poisoned by a poison mark (R250, R480). -/
def State.loadHere (s : State) (d : AccDst) (phys ea len : Nat) (loc : Bool) (cls : Nat) : State :=
  match d.reg with
  | some r =>
    let bad := s.locPoisoned s.cur.cl.toNat 1 phys len
    let bs := s.loadBytes phys len
    let s1 := bs.2.put r (loadValue d bs.1) bad 6
    if bad && d.isA then s1.dload loc cls ea else s1
  | none => s

/-- Poison, at once (R318). -/
def State.poisonNow (s : State) (d : AccDst) : State :=
  match d.reg with
  | some r => s.put r 0 true 6
  | none => s

/-- An undefined destination, not poisoned (R6, R500). -/
def State.undefNow (s : State) (d : AccDst) : State :=
  match d.reg with
  | some r => let f := s.freshBits 1024; f.2.put r f.1 false 6
  | none => s

/-- An L-slot destination that names a bound galley (R459). -/
def State.dstCheck (s : State) (d : AccDst) : Option Trap :=
  match d with
  | .v n => if (s.galley? n).isSome then some (s.galleyTrap 1 n) else none
  | .elem n _ => if (s.galley? n).isSome then some (s.galleyTrap 1 n) else none
  | _ => none

/-- The checks of LD and LDV (R313, R459). -/
def State.loadCheck (s : State) (d : AccDst) (len : Nat) (a : MAddr) : Option Trap :=
  let ea := s.ea a.ab a.off.toInt
  firstTrap [s.alignCheck ea len, if a.loc then s.localCheck ea len else none, s.dstCheck d]

/-- A load at a checked address. -/
def State.loadAt (s : State) (d : AccDst) (len ea : Nat) (loc : Bool) (cls : Cls) (hint : Hint) (spec : Bool) : Out :=
  match (if loc then s.serveLocal ea len false else s.serveFar ea len false hint cls.toNat) with
  | .here p =>
    if s.cc.rangeBusy 1 p (p + len) s.nextId true then .next (s.stall .retry)
    else .next (s.loadHere d p ea len loc cls.toNat)
  | .granule r i => .next (s.wantGranule r i false false)
  | .wait => .next (s.stall .retry)
  | .far =>
    let a := { s.newAcc .load ea len cls hint with spec := spec }
    if loc then .next (s.farLoad (s.localAcc a) d)
    else if s.requestsFree 1 then .next (s.farLoad a d)
    else .next (s.stall .retry)
  | .fault c =>
    let va := s.eaVa loc ea
    let s1 := s.dropReq va
    if spec then .next (s1.poisonNow d)
    else .next ((s1.undefNow d).issueFault c cls.toNat va)

/-- Destination of an s or a register. -/
def saDst (d : SAReg) (sx : Bool) : AccDst :=
  match d with
  | .s n => .s n sx
  | .a n => .a n sx

/-- A load of R317. -/
def State.load (s : State) (d : AccDst) (len : Nat) (a : MAddr) : Out :=
  match s.loadCheck d len a with
  | some t => .next (s.trap t)
  | none => s.loadAt d len (s.ea a.ab a.off.toInt) a.loc a.cls a.hint false

/-- LD (R317). -/
def execLd (d : SAReg) (w : SW) (sx : Bool) (a : MAddr) (s : State) : Out := s.load (saDst d sx) w.bytes a
/-- LDV (R317). -/
def execLdv (vd : VReg) (w : VW) (a : MAddr) (s : State) : Out := s.load (.v vd) w.bytes a

/-- LDS: a trap of R313 becomes poison; the galley trap stays (R318, R459). -/
def execLds (d : LdsDst) (a : MAddr) (s : State) : Out :=
  let (dst, len) : AccDst × Nat := match d with
    | .s n w sx => (.s n sx, w.bytes)
    | .v n w => (.v n, w.bytes)
  let ea := s.ea a.ab a.off.toInt
  match s.dstCheck dst with
  | some t => .next (s.trap t)
  | none =>
    if (firstTrap [s.alignCheck ea len, if a.loc then s.localCheck ea len else none]).isSome then
      .next (s.poisonNow dst)
    else s.loadAt dst len ea a.loc a.cls a.hint true

/-! ## LDG (R319) -/

/-- Address of element e of LDG and STX. -/
def State.elemEa (s : State) (a : GAddr) (e : Nat) : Nat := ((s.rdA a.ab).toNat + e * (s.rdA a.sr).toNat) % 2 ^ 64

/-- The checks of the elements, in order (R319, R459). -/
def State.elemCheck (s : State) (a : GAddr) (w : Nat) : Option Trap :=
  firstTrap ((List.range (128 / w)).map (fun e => s.alignCheck (s.elemEa a e) w) ++
    (if a.loc then (List.range (128 / w)).map fun e => s.localCheck (s.elemEa a e) w else []))

/-- How each element is served. -/
def State.elemServe (s : State) (a : GAddr) (w e : Nat) : Serve :=
  if a.loc then s.serveLocal (s.elemEa a e) w false else s.serveFar (s.elemEa a e) w false a.hint a.cls.toNat

/-- Element e of a v value replaced. -/
def setElem (w e v : Nat) (x : VWord) : VWord := setField x (w * e) w v

/-- An element of a gather takes its bytes. -/
def State.putElem (s : State) (tag w e v : Nat) (psn : Bool) : State :=
  s.modMe fun x => { x with
    pend := mapIf (fun q => q.tag == tag) (fun q => { q with val := setElem (8 * w) e v q.val, psn := q.psn || psn }) x.pend }

/-- Enter one element of LDG: read here, undefined with its fault, or as an access of its own (R319, R500). -/
def State.gatherOne (s : State) (a : GAddr) (w : Nat) (vd : VReg) (tag : Nat) (s1 : State) (e : Nat) : State :=
  let ea := s.elemEa a e
  match s.elemServe a w e with
  | .here p =>
    let bs := s1.asRead s.me.bnd.launch (s.localSpot s.cur.cl.toNat p) (s.readHere p w)
    bs.2.putElem tag w e (ofBytes bs.1) (s.locPoisoned s.cur.cl.toNat 1 p w)
  | .fault c =>
    let va := s.eaVa a.loc ea
    let f := (s1.dropReq va).freshBits 1024
    (f.2.putElem tag w e f.1.toNat false).issueFault c a.cls.toNat va
  | _ =>
    let acc := { s1.newAcc .load ea w a.cls a.hint with dst := .elem vd e, tag := tag, sub := e != 0 }
    s1.issueFar (if a.loc then s1.localAcc acc else acc)

/-- LDG (R319): one destination, which is ready when every element is. -/
def execLdg (vd : VReg) (w : SW) (a : GAddr) (s : State) : Out :=
  let n := 128 / w.bytes
  match firstTrap [s.elemCheck a w.bytes, s.dstCheck (.v vd)] with
  | some t => .next (s.trap t)
  | none =>
    let serves := (List.range n).map fun e => s.elemServe a w.bytes e
    let busy := serves.any fun x => match x with
      | .here p => s.cc.rangeBusy 1 p (p + w.bytes) s.nextId true
      | .wait => true
      | _ => false
    match serves.findSome? (fun x => match x with | .granule r i => some (r, i) | _ => none) with
    | some (r, i) => .next (s.wantGranule r i false false)
    | none =>
      let far := serves.filter fun x => x == .far
      if busy || !a.loc && !s.requestsFree far.length then .next (s.stall .retry)
      else if far.isEmpty then
        let s1 := s.put (.v vd) 0 false 6
        .next ((List.range n).foldl (s.gatherOne a w.bytes vd s.nextId) s1)
      else
        let s1 := s.owe (.v vd) a.cls.toNat
        .next ((List.range n).foldl (s.gatherOne a w.bytes vd (s1.nextId - 1)) s1)

/-- The granule that an access to a mapped range needs and the stash does not hold (R162); an engine's is held until the
pager has answered (R448). -/
def State.stashMiss (s : State) (ea : Nat) (eng : Bool) : Option (Nat × Nat) :=
  match s.cc.stashAt s.me.bnd.asid ea with
  | some (r, off) =>
    match s.serveStash s.cur.cl.toNat r off false eng with
    | .granule r i => some (r, i)
    | _ => none
  | none => none

/-! ## LDX, LDA, PREF, WAITADDR, RFETCH (R320 to R323, R326) -/

/-- The v register of a galley. -/
def galleyReg (g : GalleyNo) : VReg := .ofNat 9 (496 + g.toNat)

/-- The checks of LDX: alignment, then the galley's binding (R320, R450). -/
def ldxCheck (g : GalleyNo) (a : FAddr) (s : State) : Option Trap :=
  firstTrap [s.alignCheck (s.ea a.ab a.off.toInt) 128,
    match s.galley? (galleyReg g) with
    | none => some (s.galleyTrap 3 (galleyReg g))
    | some (_, x) => if x.kind = .ldx then none else some (s.galleyTrap 4 (galleyReg g))]

/-- LDX: one entry, owed until the access returns (R320). -/
def execLdx (g : GalleyNo) (hint : Hint) (a : FAddr) (s : State) : Out :=
  match ldxCheck g a s with
  | some t => .next (s.trap t)
  | none =>
    match s.galley? (galleyReg g) with
    | none => .next s
    | some (p, x) =>
      let ea := s.ea a.ab a.off.toInt
      if 8 ≤ x.q.length ∨ s.requestsFree 1 = false then .next (s.stall .retry)
      else match s.stashMiss ea true with
      | some (r, i) => .next (s.wantGranule r i false true)
      | none =>
        let tag := s.nextId
        let s1 := { s.modGalley p fun y => { y with q := y.q ++ [(tag, none)] } with nextId := tag + 1 }
        .next ((s1.issueFar { s1.newAcc .load ea 128 (.ofNat 4 x.cls) hint with
          dst := .galley p tag, tag := tag }).setNr)

/-- LDA: a load-acquire, performed at the home (R190, R321). -/
def execLda (d : SAReg) (w : SW) (scope : Scope) (ab : AReg) (cls : Cls) (mask : BitVec 16) (s : State) : Out :=
  let ea := s.ea ab 0
  match s.alignCheck ea w.bytes with
  | some t => .next (s.trap t)
  | none =>
    if s.requestsFree 1 then
      .next (s.farLoad { s.newAcc .load ea w.bytes cls .none with acq := some (scope.code, mask) } (saDst d false))
    else .next (s.stall .retry)

/-- PREF: the line is allocated as by a load miss; a fault drops it (R322). -/
def execPref (cls : Cls) (hint : Hint) (a : FAddr) (s : State) : Out :=
  .next (s.issueFar (s.newAcc .pref (s.ea a.ab a.off.toInt) 1 cls hint))

/-- WAITADDR: the context waits until the bytes differ from ad or the time is over (R323). -/
def execWaitaddr (ad : AReg) (w : AW) (ab : AReg) (tout : BitVec 7) (cls : Cls) (s : State) : Out :=
  let ea := s.ea ab 0
  match s.alignCheck ea w.bytes with
  | some t => .next (s.trap t)
  | none =>
    match s.stashMiss ea false with
    | some (r, i) => .next (s.wantGranule r i false false)
    | none =>
    if s.requestsFree 1 then
      let a := { s.newAcc .load ea w.bytes cls .none with
        dst := .watch ad (s.timer + 1024 * tout.toNat), data := toBytes w.bytes (s.rdA ad).toNat }
      s.afterWait (.next ((s.modMe fun x => { x with wait := .watch a.id }).issueFar a))
    else .next (s.stall .retry)

/-- May an RFETCH name an element of a window: is its address not known to lie outside every one (R326)? -/
def State.mayFetchShadow (s : State) (ea : Nat) : Bool :=
  match s.tlbLookup s.cur.cl.toNat s.me.bnd.asid ea .read with
    | .ok pa 0 => (s.windowAt pa).isSome
    | .ok .. => false
    | _ => true

/-- RFETCH: outside every window it is LD.4 (R326). -/
def execRfetch (sd : SReg) (cls : Cls) (a : FAddr) (s : State) : Out :=
  let ea := s.ea a.ab a.off.toInt
  match s.alignCheck ea 4 with
  | some t => .next (s.trap t)
  | none =>
    if !s.mayFetchShadow ea then s.loadAt (.s sd false) 4 ea false cls .none false
    else if s.requestsFree 1 then .next (s.farLoad (s.newAcc .rfetch ea 4 cls .none) (.s sd false))
    else .next (s.stall .retry)

/-- A launch with no bound unit takes the batching trap (R325). -/
def State.batchCheck (s : State) : Option Trap := if s.me.bnd.cbu.isSome then none else some (s.trapOf 0x000F 0)

/-- CBTAKE: a request to the bound unit, an acquire of every class (R141, R192, R325). -/
def execCbtake (vd : VReg) (cls : Cls) (s : State) : Out :=
  match firstTrap [s.batchCheck, s.dstCheck (.v vd)] with
  | some t => .next (s.trap t)
  | none =>
    if s.requestsFree 1 then
      let u := s.me.bnd.cbu.getD 0
      let s1 := s.owe (.v vd) cls.toNat
      let id := s1.nextId
      let s2 := s1.addAcc { s1.newAcc .cbtake 0 0 cls .none with
        dst := .v vd, tag := id - 1, tr := .ok 0 0, acq := some (3, 0xFFFF) }
      .next ((s2.modUnit u fun x => { x with takes := x.takes ++ [⟨id, none, none⟩] }).soon [.homeAccess id]).setNr
    else .next (s.stall .retry)

/-! ## Tile segments (R324) -/

/-- Offset in the tile, and length, of the bytes that a segment moves (R324). -/
def segBytes (h : Shape) (g : TileSeg) : Nat × Nat :=
  match g with
  | .band i => (0x8000 + i.toNat * 128, 128)
  | .data row seg =>
    let rowBytes := h.cols * h.w / 8
    (row.toNat * rowBytes + seg.toNat * 128, min 128 (rowBytes - seg.toNat * 128))

/-- The checks of LDT and STT: alignment, claim, shape, index (R324, R459). -/
def State.tsegCheck (s : State) (a : TAddr) : Option Trap :=
  let ea := s.ea a.ab 0
  let h := shapeOf (s.rdShape a.tile.toNat)
  firstTrap [s.alignCheck ea 128, if a.loc then s.localCheck ea 128 else none, s.tileCheck a.tile.toNat,
    if !h.ok then some (s.shapeTrap a.tile.toNat 0) else none,
    match a.seg with
    | .band _ => if h.bs then none else some (s.shapeTrap a.tile.toNat 5)
    | .data row seg =>
      if h.rows ≤ row.toNat ∨ h.cols * h.w / 8 ≤ seg.toNat * 128 then some (s.indexTrap a.tile.toNat row.toNat)
      else none]

/-- Tile bytes of a load that has failed are undefined (R6, R466, R500). -/
def State.undefTile (s : State) (lo len : Nat) : State :=
  let r := s.freshBits 1024
  (r.2.modCc fun c => c.tileWrite lo (toBytes len r.1.toNat)).clearLoc s.cur.cl.toNat 2 lo len

/-- LDT (R324): a far one holds a write entry for its tile bytes. -/
def execLdt (a : TAddr) (s : State) : Out :=
  match s.tsegCheck a with
  | some t => .next (s.trap t)
  | none =>
    let k := s.cur.cl.toNat
    let ea := s.ea a.ab 0
    let (off, len) := segBytes (shapeOf (s.rdShape a.tile.toNat)) a.seg
    let pt := s.physTile a.tile.toNat
    let lo := pt * 0xA000 + off
    if s.cc.rangeBusy 2 lo (lo + len) s.nextId false then .next (s.stall .retry)
    else match (if a.loc then s.serveLocal ea 128 false else s.serveFar ea 128 false a.hint a.cls.toNat) with
      | .wait => .next (s.stall .retry)
      | .here p =>
        if s.cc.rangeBusy 1 p (p + 128) s.nextId true then .next (s.stall .retry)
        else if s.locPoisoned k 1 p 128 then .next ((s.undefTile lo len).dload a.loc a.cls.toNat ea)
        else
          let bs := s.loadBytes p 128
          .next ((bs.2.modCc fun c => c.tileWrite lo (bs.1.take len)).clearLoc k 2 lo len)
      | .granule r i => .next (s.wantGranule r i false false)
      | .fault c =>
        let va := s.eaVa a.loc ea
        .next (((s.dropReq va).undefTile lo len).issueFault c a.cls.toNat va)
      | .far =>
        if (a.loc || s.requestsFree 1) && s.cc.rsbFree 1 then
          let acc := { s.newAcc .load ea 128 a.cls a.hint with dst := .tile pt off len }
          .next ((s.modCc fun c => { c with rsb := c.rsb ++ [RsEntry.of s.key acc.id true 2 lo (lo + len)] }).issueFar
            (if a.loc then s.localAcc acc else acc))
        else .next (s.stall .retry)

end Sys2Proof.Machine
end

