-- ==== Sys2Proof/Machine/Store.lean ====
section
/-!
DEFINITION. The T slot (R327 to R334): writes held in the gated store buffer (R92), atomics, fences, line operations and
reports.
-/
namespace Sys2Proof.Machine

/-- The checks of a v register as store data: poison, then a write galley (R327, R459). -/
def State.dataCheckV (s : State) (vs : VReg) : List (Option Trap) :=
  [if (s.srcV vs).psn then some (s.poisonTrap true vs.toNat) else none, s.popCheck vs]

/-- The check of an s or a register as store data. -/
def State.dataCheck (s : State) (d : SAReg) : Option Trap :=
  match d with
  | .s n => s.poisonS n
  | .a _ => none

/-- The bytes of an s or a register. -/
def State.dataOf (s : State) (d : SAReg) (n : Nat) : List Byte :=
  match d with
  | .s r => toBytes n (s.rdS r).val.toNat
  | .a r => toBytes n (s.rdA r).toNat

/-- Does a store of n bytes wait: for a granule, or for the range scoreboard (R162, R171)? -/
inductive StoreWait where
  | go
  | busy
  | granule (region idx : Nat)
  | fault (cause : Nat)
deriving DecidableEq, Repr

def State.storeWait (s : State) (ea n : Nat) (loc : Bool) : StoreWait :=
  match (if loc then s.serveLocal ea n true else s.serveFar ea n true .none 0) with
  | .granule r i => .granule r i
  | .fault c => .fault c
  | .here p => if loc && s.cc.rangeBusy 1 p (p + n) s.nextId false then .busy else .go
  | .wait => .busy
  | .far => .go

/-- Enter one held store. -/
def State.holdStore (s : State) (a : Access) (loc : Bool) : State :=
  let h := { a with st := .held }
  if loc then s.addAcc (s.localAcc h) else s.issueFar h

/-- A store at a checked address: it waits, faults on a failed granule, or is held (R92, R162). -/
def State.storeAt (s : State) (ea : Nat) (bs : List Byte) (loc : Bool) (cls : Cls) (hint : Hint) (then' : State → State) :
    Out :=
  match s.storeWait ea bs.length loc with
  | .granule r i => .next (s.wantGranule r i true false)
  | .busy => .next (s.stall .retry)
  | .fault c =>
    let va := s.eaVa loc ea
    .next (then' ((s.dropReq va).issueFault c cls.toNat va))
  | .go => .next (then' (s.holdStore { s.newAcc .store ea bs.length cls hint with data := bs } loc))

/-- ST (R328). -/
def execSt (d : SAReg) (w : SW) (a : MAddr) (s : State) : Out :=
  let ea := s.ea a.ab a.off.toInt
  match firstTrap [s.alignCheck ea w.bytes, if a.loc then s.localCheck ea w.bytes else none, s.dataCheck d, s.sbCheck] with
  | some t => .next (s.trap t)
  | none => s.storeAt ea (s.dataOf d w.bytes) a.loc a.cls a.hint id

/-- A store of a v register's bytes: a read galley is popped (R327). -/
def State.storeV (s : State) (vs : VReg) (bs : List Byte) (ea : Nat) (loc : Bool) (cls : Cls) (hint : Hint) : Out :=
  match firstTrap ([s.alignCheck ea bs.length, if loc then s.localCheck ea bs.length else none] ++ s.dataCheckV vs ++
      [s.sbCheck]) with
  | some t => .next (s.trap t)
  | none =>
    if s.vStall [vs] none then .next (s.stall .retry) else s.storeAt ea bs loc cls hint fun s => s.popV [vs]

/-- STV (R328). -/
def execStv (vs : VReg) (w : VW) (a : MAddr) (s : State) : Out :=
  s.storeV vs (toBytes w.bytes (s.srcV vs).val.toNat) (s.ea a.ab a.off.toInt) a.loc a.cls a.hint

/-- STS: element IDX (R328). -/
def execSts (vs : VReg) (w : SW) (idx : BitVec 7) (loc : Bool) (ab : AReg) (off : BitVec 15) (cls : Cls) (hint : Hint)
    (s : State) : Out :=
  s.storeV vs (toBytes w.bytes (elemAt (8 * w.bytes) (s.srcV vs).val idx.toNat).toNat) (s.ea ab off.toInt) loc cls hint

/-- Enter one element of STX: held, or its fault charged to the interval (R445, R500). The first held element takes the
instruction's place in the buffer (R92). -/
def State.scatterOne (s : State) (vs : VReg) (w : Nat) (a : GAddr) (t : State × Bool) (e : Nat) : State × Bool :=
  let ea := s.elemEa a e
  match s.storeWait ea w a.loc with
  | .fault c =>
    let va := s.eaVa a.loc ea
    ((t.1.dropReq va).issueFault c a.cls.toNat va, t.2)
  | _ =>
    (t.1.holdStore { t.1.newAcc .store ea w a.cls a.hint with
      data := toBytes w (elemAt (8 * w) (s.srcV vs).val e).toNat, sub := t.2 } a.loc, true)

/-- STX: one element of R319 per access; the buffer counts one write (R92). -/
def execStx (vs : VReg) (w : SW) (a : GAddr) (s : State) : Out :=
  let n := 128 / w.bytes
  match firstTrap ([s.elemCheck a w.bytes] ++ s.dataCheckV vs ++ [s.sbCheck]) with
  | some t => .next (s.trap t)
  | none =>
    let waits := (List.range n).map fun e => s.storeWait (s.elemEa a e) w.bytes a.loc
    match waits.findSome? (fun x => match x with | .granule r i => some (r, i) | _ => none) with
    | some (r, i) => .next (s.wantGranule r i true false)
    | none =>
      if waits.any (fun x => x == .busy) || s.vStall [vs] none then .next (s.stall .retry)
      else
        .next (((List.range n).foldl (s.scatterOne vs w.bytes a) (s, false)).1.popV [vs])

/-- STRL: a store-release, held like any write (R189, R321). -/
def execStrl (d : SAReg) (w : SW) (scope : Scope) (ab : AReg) (cls : Cls) (mask : BitVec 16) (s : State) : Out :=
  let ea := s.ea ab 0
  match firstTrap [s.alignCheck ea w.bytes, s.dataCheck d, s.sbCheck] with
  | some t => .next (s.trap t)
  | none =>
    .next (s.issueFar { s.newAcc .store ea w.bytes cls .none with
      data := s.dataOf d w.bytes, st := .held, rel := some (scope.code, mask), copies := true })

/-- STT: the segment is read at issue, zero beyond the row's end (R324). -/
def execStt (a : TAddr) (s : State) : Out :=
  match firstTrap [s.tsegCheck a, s.sbCheck] with
  | some t => .next (s.trap t)
  | none =>
    let ea := s.ea a.ab 0
    let (off, len) := segBytes (shapeOf (s.rdShape a.tile.toNat)) a.seg
    let lo := s.physTile a.tile.toNat * 0xA000 + off
    if s.cc.rangeBusy 2 lo (lo + len) s.nextId true then .next (s.stall .retry)
    else s.storeAt ea (s.cc.tileRead lo len ++ List.replicate (128 - len) 0) a.loc a.cls a.hint id

/-- The returned bytes of ATOM lie in a claimed PLAIN region (R329). -/
def State.retCheck (s : State) (ret : Option (BitVec 18)) (w : Nat) : Option Trap :=
  match ret with
  | none => none
  | some r => if s.plainOk (8 * r.toNat) w then none else some (s.claimTrap 4 (8 * r.toNat))

/-- The expected value's register of CAS (R329). -/
def casReg (ss : SReg) : SReg := ss + 1

/-- ATOM: the bytes of RET, undefined until a FENCE of its class completes, hold the old value or the new one (R6, R92,
R329). -/
def execAtom (op : AtomOp) (w : AW) (ab : AReg) (ss : SReg) (cls : Cls) (hint : Hint) (ret : Option (BitVec 18))
    (s : State) : Out :=
  let ea := s.ea ab 0
  match firstTrap [s.alignCheck ea w.bytes, s.retCheck ret w.bytes, s.poisonS ss,
      if op = .cas then s.poisonS (casReg ss) else none, s.sbCheck] with
  | some t => .next (s.trap t)
  | none =>
    let a := { s.newAcc (.atom op (s.rdS ss).val (s.rdS (casReg ss)).val) ea w.bytes cls hint with st := .held }
    match ret with
    | some r => .next (s.issueFar { a with dst := .loc (s.physLocal (8 * r.toNat)) })
    | none => .next (s.issueFar a)

/-- RED (R330). -/
def execRed (op : AtomOp) (w : AW) (ab : AReg) (ss : SReg) (cls : Cls) (hint : Hint) (s : State) : Out :=
  let ea := s.ea ab 0
  match firstTrap [s.alignCheck ea w.bytes, s.poisonS ss, s.sbCheck] with
  | some t => .next (s.trap t)
  | none => .next (s.issueFar { s.newAcc (.red op (s.rdS ss).val) ea w.bytes cls hint with st := .held })

/-- RFLUSH (R326). -/
def execRflush (cls : Cls) (a : FAddr) (s : State) : Out :=
  let ea := s.ea a.ab a.off.toInt
  match firstTrap [s.alignCheck ea 4, s.sbCheck] with
  | some t => .next (s.trap t)
  | none => .next (s.issueFar { s.newAcc .rflush ea 4 cls .none with st := .held })

/-- FENCE: a release point, then the order of R188; the blocking form waits (R331). -/
def execFence (b : Bool) (scope : Scope) (mask : BitVec 16) (s : State) : Out :=
  let s1 := s.release s.cur.cl.toNat s.cur.ctx.toNat
  let id := s1.nextId
  let s2 := (s1.orderPoint scope.code mask true).setNr
  if b then s.afterWait (s.releasePoint false (s2.modMe fun x => { x with wait := .fence id })) else s.releasePoint false s2

/-- CLINE (R332) (DEDUCED, log 38). -/
def execCline (op : ClineOp) (cls : Cls) (a : FAddr) (s : State) : Out :=
  let ea := s.ea a.ab a.off.toInt
  match firstTrap [s.alignCheck ea 256, s.sbCheck] with
  | some t => .next (s.trap t)
  | none =>
    match op with
    | .zero => s.storeAt ea (List.replicate 256 0) false cls .none id
    | .clean => .next (s.issueFar { s.newAcc .clean ea 256 cls .none with st := .held })
    | .flush => .next (s.issueFar { s.newAcc .flush ea 256 cls .none with st := .held })

/-- CBDONE: a held report, a release of every class (R143, R192, R325). -/
def execCbdone (ss : SReg) (s : State) : Out :=
  match firstTrap [s.batchCheck, s.poisonS ss, s.sbCheck] with
  | some t => .next (s.trap t)
  | none =>
    .next ((s.addAcc { s.newAcc (.cbdone ((s.rdS ss).val.setWidth 32)) 0 0 0 .none with
      st := .held, tr := .ok 0 0, rel := some (3, 0xFFFF) }).setNr)

/-- The reply token of R221. -/
def State.token (s : State) (rpl : Option (FReg × BitVec 16)) : BitVec 64 :=
  match rpl with
  | none => 0
  | some (f, l) =>
    .ofNat 64 (2 ^ 63 + s.cur.cl.toNat * 2 ^ 54 + s.cur.ctx.toNat * 2 ^ 52 + s.me.bnd.gen.toNat * 2 ^ 36 +
      f.toNat * 2 ^ 30 + l.toNat * 64)

/-- The reply area of HMSG lies in a claimed PLAIN region (R333). -/
def State.replyCheck (s : State) (rpl : Option (FReg × BitVec 16)) : Option Trap :=
  match rpl with
  | none => none
  | some (_, l) => if s.plainOk (64 * l.toNat) 64 then none else some (s.claimTrap 4 (64 * l.toNat))

/-- HMSG: 64 bytes to the home of the line of EA (R221, R333). -/
def execHmsg (vs : VReg) (ab : AReg) (cls : Cls) (rpl : Option (FReg × BitVec 16)) (s : State) : Out :=
  match firstTrap ([s.replyCheck rpl] ++ s.dataCheckV vs ++ [s.sbCheck]) with
  | some t => .next (s.trap t)
  | none =>
    if s.vStall [vs] none then .next (s.stall .retry)
    else
      .next ((s.issueFar { s.newAcc (.hmsg (s.token rpl)) (s.ea ab 0) 1 cls .none with
        st := .held, data := (vbytes (s.srcV vs).val).take 64 }).popV [vs])

end Sys2Proof.Machine
end

