-- ==== Sys2Proof/Machine/Reclaim.lean ====
section
/-!
DEFINITION. Copies of memory that clusters hold, taken back: writebacks by virtual address (R162, R163), recalls that may have to
wait (R163, R164, R220), the reads and writes of agents outside the clusters (R157, R181), fetch (R255, R440).
-/
namespace Sys2Proof.Machine

/-! ## Writebacks by virtual address (R162, R163) -/

/-- Merge bytes into a bounce line; none when the buffer is full. -/
def bounceMerge (bb : List Bounce) (asid va : Nat) (bs : List Byte) : Option (List Bounce) :=
  let v := va / 256
  let put (b : Bounce) : Bounce :=
    { b with
      mask := (List.range bs.length).foldl (fun m i => setBit m ((va + i) % 256) true) b.mask,
      data := setField b.data (8 * (va % 256)) (8 * bs.length) (ofBytes bs) }
  if bb.any fun b => b.asid == asid && b.vline == v then some (mapIf (fun b => b.asid == asid && b.vline == v) put bb)
  else if bb.length < 2 ^ 20 then some (bb ++ [put ⟨asid, v, 0, 0⟩])
  else none

/-- A writeback's outcome. -/
inductive Wb where
  | ok (s : State)
  /-- It waits: for the pager's merge, a bounce line, or a locked line. -/
  | wait
  | fault (s : State)

/-- Can a line at a physical address be written back now? The locks of slice `own`, if any, do not count (R181, R220). -/
def State.wbFree (s : State) (pa : Nat) (own : Option Nat) : Bool :=
  ((s.linesOf pa 256).all fun l => own == some (s.home (l * 256)) || !s.lineLocked l) && s.hostFree pa 256

/-- Write back bytes of one line by its virtual address: translated now (R162). The whole line is written, which clears its
poison mark (R480). -/
def State.wbVirtual (s : State) (k asid va : Nat) (bs : List Byte) (own : Option Nat := none) : Wb :=
  match s.xlate k asid va .write with
  | (.ok pa mt, s1) =>
    if !s1.wbFree pa own then .wait
    else
      let s2 := s1.physWrite pa bs
      .ok (if mt = 0 then s2.clearPoison (s2.linear pa / 256) else s2)
  | (.nonres, s1) =>
    match bounceMerge s1.forme.bounce asid va bs with
    | some bb => .ok (s1.modForme fun m => { m with bounce := bb })
    | none => .wait
  | (.pending, _) => .wait
  | (.fault _, s1) => .fault s1

/-- A writeback that faults gives ENGINE to the context that owns the region (R446, R468) (DEDUCED, log 8). -/
def State.wbFault (s : State) (k c va : Nat) : State :=
  s.defer k c ⟨tcauseOf (some .c) false 0x0025, tinfoOf (s.ctx k c).rpc (farDetail 0 va), true, s.nextId, none, false⟩

/-- The lines of a granule that g marks dirty are written back by their virtual addresses, and are clean (R162, R163). None
while one must wait; the locks of slice `own` do not hold it back. -/
def State.flushGran (s : State) (k r : Nat) (g : Granule) (own : Option Nat := none) : Option State :=
  let reg := (s.cluster k).region r
  match reg.map with
  | none => some s
  | some (base, asid) =>
    let one (t : Option State) (i : Nat) : Option State := t.bind fun s =>
      let off := g.idx * 4096 + 256 * i
      match s.wbVirtual k asid (base + off) (reg.store.read off 256) own with
      | .ok s1 => some s1
      | .wait => none
      | .fault s1 => some ((s1.regionOwner k r).elim s1 fun c => s1.wbFault k c (base + off))
    (((List.range 16).filter fun i => g.dirty.getLsbD i).foldl one (some s)).map fun s =>
      s.modCluster k fun c => c.modRegion r fun x =>
        { x with gran := mapIf (fun y => y.idx == g.idx) (fun y => { y with dirty := y.dirty &&& ~~~g.dirty }) x.gran }

/-- The granules of a region that the recall of a line writes back. -/
def State.flushRegion (s : State) (k r line : Nat) (onlyExcl : Bool) (own : Option Nat := none) : Option State :=
  ((s.namedBy ((s.cluster k).region r) line onlyExcl).1.filter fun g => g.dirty != 0).foldl
    (fun t g => t.bind fun s => s.flushGran k r g own) (some s)

/-- The granules of every region but one that the recall of a line writes back. -/
def State.flushLine (s : State) (line : Nat) (but : Option (Nat × Nat)) (onlyExcl : Bool) (own : Option Nat := none) :
    Option State :=
  (s.otherRegions but).foldl (fun t e => t.bind fun s => s.flushRegion e.1 e.2 line onlyExcl own) (some s)

/-- The home takes back the copies of a line before it performs an access to it: the granules are written back by their virtual
addresses, as by R162. None while a line that is written back is locked, or a writeback must wait (R163, R164, R220). -/
def State.reclaim (s : State) (line : Nat) (but : Option (Nat × Nat)) (onlyExcl : Bool) : Option State :=
  if s.recallFree line but onlyExcl then (s.flushLine line but onlyExcl).map fun s => s.recall line but onlyExcl else none

/-- The same for several lines. -/
def State.reclaimAll (s : State) (lines : List Nat) (but : Option (Nat × Nat)) (onlyExcl : Bool) : Option State :=
  lines.foldl (fun t l => t.bind fun s => s.reclaim l but onlyExcl) (some s)

/-- A cluster can drop a granule, and what it holds of it by lines, now: its dirty granules are written back (R162 to R164,
R220). -/
def State.dropReady (s : State) (k gran : Nat) : Option State :=
  let lines := (List.range 16).map fun i => s.granLine (gran * 4096) i / 256
  let regs := (s.cluster k).regions.map (·.1)
  if regs.all fun r => lines.all fun l => (s.dirtyOf (s.namedBy ((s.cluster k).region r) l false)).all fun e => !s.lineLocked e.2 then
    regs.foldl (fun t r => lines.foldl (fun t l => t.bind fun s => s.flushRegion k r l false) t) (some s)
  else none

/-- A home's directory can record a granule now: the sharers of the entry that a full one gives up can drop it (R164). -/
def State.dirReady (s : State) (h gran : Nat) : Option State :=
  match (s.slice h).dirVictim gran with
  | none => some s
  | some d => d.clusters.foldl (fun t k => t.bind fun s => s.dropReady k d.gran) (some s)

/-! ## Agents outside the clusters -/

/-- An agent reads n bytes: copies are taken back first, and the lines that it hits move in their sets (R157, R163). None while
it must wait: for a locked line, an access of a host line, a writeback (R181, R220). -/
def State.agentRead (s : State) (pa n : Nat) : Option (List Byte × State) :=
  if s.agentFree pa n then (s.reclaimAll (s.linesOf pa n) none true).map fun t => (t.physRead pa n, t.touched pa n) else none

/-- An agent writes bytes, likewise. -/
def State.agentStore (s : State) (pa : Nat) (bs : List Byte) : Option State :=
  if s.agentFree pa bs.length then (s.reclaimAll (s.linesOf pa bs.length) none false).map fun t => t.agentWrite pa bs else none

/-! ## Fetch (R255, R440) -/

/-- The bytes of the text for a fetch: each page translated with X. -/
inductive Fetched where
  | ok (x : Nat)
  | fault (va : Nat) (tr : Tr)
  /-- The line is poison-marked: the group ends with FAULT (R480). -/
  | poison
deriving DecidableEq, Repr

/-- Fetch n bytes of one aligned unit at a virtual address. -/
def State.fetch (s : State) (k asid va n : Nat) : Fetched × State :=
  match s.xlate k asid va .fetch with
  | (.ok pa mt, s1) =>
    match s1.agentRead pa n with
    | none => (.fault va .pending, s1)
    | some r => if mt = 0 && r.2.linePoison (r.2.linear pa) then (.poison, r.2) else (.ok (ofBytes r.1), r.2)
  | (t, s1) => (.fault va t, s1)

/-- The 512-bit word of a bundle in memory: R237 numbers the first byte's bits lowest. -/
def State.mslotAt (s : State) (k asid va : Nat) : Nat :=
  match (s.fetch k asid va 64).1 with
  | .ok w => if slotWord w .m / 2 ^ 53 = 0 then 0 else 1
  | _ => 0

end Sys2Proof.Machine
end

