-- ==== Sys2Proof/Machine/Scalar.lean ====
section
/-!
DEFINITION. The S slot (R260 to R266, R377, R378): integer arithmetic, immediates, transfers between banks, control
registers.
-/
namespace Sys2Proof.Machine

/-- One source: the destination is poisoned when the source is (R260). -/
def State.sop1 (s : State) (sd sa : SReg) (bound : Nat) (f : Word → Word) : Out :=
  .next (s.putS sd (f (s.rdS sa).val) (s.rdS sa).psn bound)

/-- Two sources. -/
def State.sop2 (s : State) (sd sa sb : SReg) (bound : Nat) (f : Word → Word → Word) : Out :=
  .next (s.putS sd (f (s.rdS sa).val (s.rdS sb).val) ((s.rdS sa).psn || (s.rdS sb).psn) bound)

/-- A predicate from a condition; undefined when a source is poisoned (R260). -/
def State.pop2 (s : State) (pd : PReg) (psn c : Bool) : Out := .next (if psn then s.putPoisonP pd else s.putP pd c)

/-- Bits [127:64] of a product. -/
def mulHigh (signed : Bool) (a b : Word) : Word :=
  if signed then .ofInt 64 (a.toInt * b.toInt / 2 ^ 64) else .ofNat 64 (a.toNat * b.toNat / 2 ^ 64)

/-- Quotient and remainder of R261. -/
def divide (signed : Bool) (a b : Word) : Word × Word :=
  if b = 0 then (BitVec.allOnes 64, a)
  else if signed then (.ofInt 64 (a.toInt.tdiv b.toInt), .ofInt 64 (a.toInt.tmod b.toInt))
  else (.ofNat 64 (a.toNat / b.toNat), .ofNat 64 (a.toNat % b.toNat))

/-- A left rotation. -/
def rotl (a : Word) (n : Nat) : Word := a <<< (n % 64) ||| a >>> ((64 - n % 64) % 64)

/-- A shift by an immediate or by bits [5:0] of a register (R260). -/
def State.shift (s : State) (sd sa : SReg) (amt : ShAmt) (f : Word → Nat → Word) : Out :=
  match amt with
  | .imm n => s.sop1 sd sa 1 fun a => f a n.toNat
  | .reg sb => s.sop2 sd sa sb 1 fun a b => f a (b.toNat % 64)

/-- ADD (R260). -/
def execAdd (sd sa sb : SReg) (sh : BitVec 6) (s : State) : Out :=
  s.sop2 sd sa sb 1 fun a b => a + (b <<< sh.toNat)

/-- SUB (R260). -/
def execSub (sd sa sb : SReg) (sh : BitVec 6) (s : State) : Out :=
  s.sop2 sd sa sb 1 fun a b => a - (b <<< sh.toNat)

/-- ADDI (R263). -/
def execAddi (sd sa : SReg) (imm : BitVec 36) (s : State) : Out :=
  s.sop1 sd sa 1 fun a => a + imm.signExtend 64

/-- MUL, and MUL.A with an addend (R260). -/
def execMul (sd sa sb : SReg) (acc : Option SReg) (s : State) : Out :=
  match acc with
  | none => s.sop2 sd sa sb 3 fun a b => a * b
  | some sc =>
    .next (s.putS sd ((s.rdS sa).val * (s.rdS sb).val + (s.rdS sc).val)
      ((s.rdS sa).psn || (s.rdS sb).psn || (s.rdS sc).psn) 3)

/-- MULH (R260). -/
def execMulh (sd sa sb : SReg) (s : State) : Out :=
  s.sop2 sd sa sb 3 (mulHigh true)

/-- MULHN (R260). -/
def execMulhn (sd sa sb : SReg) (s : State) : Out :=
  s.sop2 sd sa sb 3 (mulHigh false)

/-- DIV (R261). -/
def execDiv (sd sa sb : SReg) (s : State) : Out :=
  s.sop2 sd sa sb 18 fun a b => (divide true a b).1

/-- DIVN (R261). -/
def execDivn (sd sa sb : SReg) (s : State) : Out :=
  s.sop2 sd sa sb 18 fun a b => (divide false a b).1

/-- REM (R261). -/
def execRem (sd sa sb : SReg) (s : State) : Out :=
  s.sop2 sd sa sb 18 fun a b => (divide true a b).2

/-- REMN (R261). -/
def execRemn (sd sa sb : SReg) (s : State) : Out :=
  s.sop2 sd sa sb 18 fun a b => (divide false a b).2

/-- AND (R260). -/
def execAnd (sd sa sb : SReg) (s : State) : Out :=
  s.sop2 sd sa sb 1 fun a b => a &&& b

/-- OR (R260). -/
def execOr (sd sa sb : SReg) (s : State) : Out :=
  s.sop2 sd sa sb 1 fun a b => a ||| b

/-- XOR (R260). -/
def execXor (sd sa sb : SReg) (s : State) : Out :=
  s.sop2 sd sa sb 1 fun a b => a ^^^ b

/-- ANDN (R260). -/
def execAndn (sd sa sb : SReg) (s : State) : Out :=
  s.sop2 sd sa sb 1 fun a b => a &&& ~~~b

/-- SHL (R260). -/
def execShl (sd sa : SReg) (amt : ShAmt) (s : State) : Out :=
  s.shift sd sa amt fun a n => a <<< n

/-- SHR (R260). -/
def execShr (sd sa : SReg) (amt : ShAmt) (s : State) : Out :=
  s.shift sd sa amt fun a n => a >>> n

/-- SAR (R260). -/
def execSar (sd sa : SReg) (amt : ShAmt) (s : State) : Out :=
  s.shift sd sa amt fun a n => a.sshiftRight n

/-- ROT (R260). -/
def execRot (sd sa : SReg) (amt : ShAmt) (s : State) : Out :=
  s.shift sd sa amt rotl

/-- CLZ (R260). -/
def execClz (sd sa : SReg) (s : State) : Out :=
  s.sop1 sd sa 1 fun a => .ofNat 64 (leadZeros a.toNat 64)

/-- CTZ (R260). -/
def execCtz (sd sa : SReg) (s : State) : Out :=
  s.sop1 sd sa 1 fun a => .ofNat 64 (trailZeros a.toNat 64 0)

/-- POPC (R260). -/
def execPopc (sd sa : SReg) (s : State) : Out :=
  s.sop1 sd sa 1 fun a => .ofNat 64 (popCount a.toNat 64)

/-- MIN (R260). -/
def execMin (sd sa sb : SReg) (s : State) : Out :=
  s.sop2 sd sa sb 1 fun a b => if a.slt b then a else b

/-- MAX (R260). -/
def execMax (sd sa sb : SReg) (s : State) : Out :=
  s.sop2 sd sa sb 1 fun a b => if a.slt b then b else a

/-- MINN (R260). -/
def execMinn (sd sa sb : SReg) (s : State) : Out :=
  s.sop2 sd sa sb 1 fun a b => if a.ult b then a else b

/-- MAXN (R260). -/
def execMaxn (sd sa sb : SReg) (s : State) : Out :=
  s.sop2 sd sa sb 1 fun a b => if a.ult b then b else a

/-- CMP (R260, R262). -/
def execCmp (cc : Cond) (pd : PReg) (sa sb : SReg) (s : State) : Out :=
  s.pop2 pd ((s.rdS sa).psn || (s.rdS sb).psn)
    (condHolds cc 64 (s.rdS sa).val.toNat (s.rdS sb).val.toNat)

/-- CMPI (R263). -/
def execCmpi (cc : Cond) (pd : PReg) (sa : SReg) (imm : BitVec 32) (s : State) : Out :=
  s.pop2 pd (s.rdS sa).psn (condHolds cc 64 (s.rdS sa).val.toNat (imm.signExtend 64).toNat)

/-- SEL (R260). -/
def execSel (sd : SReg) (neg : Bool) (p : PReg) (sa sb : SReg) (s : State) : Out :=
  s.sop2 sd sa sb 1 fun a b => if s.rdP p != neg then a else b

/-- LI (R263). -/
def execLi (sd : SReg) (imm : BitVec 42) (s : State) : Out :=
  .next (s.putS sd (imm.signExtend 64) false 1)

/-- LIH: sd is a source (R263). -/
def execLih (sd : SReg) (imm : BitVec 22) (s : State) : Out :=
  s.sop1 sd sd 1 fun a => imm.setWidth 64 <<< 42 ||| a &&& 0x3FFFFFFFFFF

/-- MOV (R260). -/
def execMov (sd sa : SReg) (s : State) : Out :=
  s.sop1 sd sa 1 fun a => a

/-- Lane n of a v register replaced. -/
def setLane (x : VWord) (n : Nat) (v : BitVec 32) : VWord := ofElems 32 fun e => if e = n then v else elemAt 32 x e

/-- The checks of XSV: the galley trap, and the poison trap on a push of poison (R265, R457). -/
def xsvCheck (vd : VReg) (ss : SReg) (s : State) : Option Trap :=
  firstTrap [s.pushCheck vd, if (s.galley? vd).isSome then s.poisonS ss else none]

/-- XSV: one lane of vd, whose poison becomes that of ss; a push holds zero in the other lanes (R264, R265). -/
def execXsv (vd : VReg) (lane : BitVec 5) (ss : SReg) (s : State) : Out :=
  match xsvCheck vd ss s with
  | some t => .next (s.trap t)
  | none =>
    if s.pushStall vd then .next (s.stall .retry)
    else .next (s.putV vd (setLane (s.oldV vd).val lane.toNat ((s.rdS ss).val.setWidth 32)) (s.rdS ss).psn 2)

/-- XVS: a lane of vs, popped from a read galley (R264, R265). -/
def execXvs (sd : SReg) (vs : VReg) (lane : BitVec 5) (s : State) : Out :=
  match s.popCheck vs with
  | some t => .next (s.trap t)
  | none =>
    if s.popStall vs then .next (s.stall .retry)
    else .next ((s.popV [vs]).putS sd ((elemAt 32 (s.srcV vs).val lane.toNat).setWidth 64) (s.srcV vs).psn 2)

/-- XSA: poison traps (R246). -/
def execXsa (ad : AReg) (ss : SReg) (s : State) : Out := s.checked (s.poisonS ss) (s.putA ad (s.rdS ss).val 2)

/-- XAS: poison of sd is cleared (R264). -/
def execXas (sd : SReg) (sa : AReg) (s : State) : Out := .next (s.putS sd (s.rdA sa) false 2)

/-- XSL: bound 2, so the l register is written by its landing (R245). -/
def execXsl (ld : LReg) (ss : SReg) (s : State) : Out :=
  s.checked (s.poisonS ss) (s.put (.l ld) ((s.rdS ss).val.setWidth 1024) false 2)

/-- XLS (R264). -/
def execXls (sd : SReg) (ls : LReg) (s : State) : Out := .next (s.putS sd (s.rdL ls) false 2)

/-- The value of a control register at issue (R376, R378). -/
def State.creg (s : State) (r : Nat) : Nat :=
  let x := s.view
  if r = 0x000 then s.cur.ctx.toNat * 512 + s.cur.cl.toNat
  else if r = 0x001 then x.bnd.group
  else if r = 0x002 then s.nclus
  else if r = 0x003 then x.bnd.gen.toNat
  else if r = 0x004 then s.forme.modid.toNat
  else if r = 0x005 then s.forme.nmod.toNat
  else if r = 0x006 then s.cycle % 2 ^ 64
  else if r = 0x010 then x.regs.fstat.toNat
  else if r = 0x011 then x.regs.cstat.toNat
  else if r = 0x012 then x.regs.sflg.toNat
  else if r = 0x020 then x.regs.dom.toNat
  else if r = 0x021 then x.regs.lead.toNat
  else if r = 0x022 then x.regs.leadpos.toNat
  else if r = 0x030 then s.cc.egrant.toNat
  else if r = 0x031 then x.egstall.toNat
  else if r = 0x032 then s.cc.rplcnt.toNat
  else if r = 0x040 then s.snapSys.trapm.toNat
  else if r = 0x041 then x.tvec.toNat
  else if r = 0x042 then x.erpc.toNat
  else if r = 0x043 then x.ermpc.toNat
  else if r = 0x044 then x.tcause.toNat
  else if r = 0x045 then x.tinfo.toNat
  else if r = 0x080 then x.regs.slen.toNat
  else if r = 0x081 then x.regs.seedb.toNat
  else if r = 0x082 then x.regs.smode.toNat
  else if r = 0x083 then x.regs.eref.toNat
  else if r = 0x084 then x.regs.smarg.toNat
  else if r = 0x085 then x.regs.svmrg.toNat
  else if r = 0x086 then x.regs.sqry.toNat
  else if r ≤ 0x08B then (sget 0 x.regs.hm (r - 0x088)).toNat
  else if r ≤ 0x095 then (sget 0 x.regs.n (r - 0x090)).toNat
  else if r ≤ 0x0BF then (sget 0 x.regs.hc (r - 0x0A0)).toNat
  else if r ≤ 0x0DF then (sget 0 x.regs.tshape (r - 0x0C0)).toNat
  else if r = 0x100 then s.snapSys.spout % 16
  else if r ≤ 0x11F then s.snapSys.spocc.getD (r - 0x110) 0 % 2 ^ 13
  else 0

/-- TSHAPEt at or beyond CTILE (R377). -/
def State.tshapeCheck (s : State) (r : Nat) : Option Trap :=
  if 0x0C0 ≤ r ∧ r ≤ 0x0DF then s.tileCheck (r - 0x0C0) else none

/-- MFC (R266, R378). -/
def execMfc (sd : SReg) (creg : BitVec 12) (s : State) : Out :=
  s.checked (s.tshapeCheck creg.toNat) (s.putS sd (.ofNat 64 (s.creg creg.toNat)) false 2)

/-- May MTC write a register: not a firmware register, and ERPC and ERMPC only in the trap handler (R376, R377)? -/
def cregWritable (r : Nat) (trapm : Bool) : Bool :=
  !(r ≤ 0x006 || r = 0x020 || r = 0x022 || (0x030 ≤ r && r ≤ 0x032) || r = 0x040 || r = 0x044 || r = 0x045 ||
    r = 0x086 || 0x100 ≤ r) && (trapm || !(r = 0x042 || r = 0x043))

/-- The checks of MTC in their order (R457). -/
def mtcCheck (creg : BitVec 12) (ss : SReg) (s : State) : Option Trap :=
  firstTrap [s.poisonS ss, if cregWritable creg.toNat s.snapSys.trapm then none else some (s.trapOf 0x0014 creg.toNat),
    s.tshapeCheck creg.toNat]

/-- MTC: the write lands under its bound of 2 (R377). -/
def execMtc (creg : BitVec 12) (ss : SReg) (s : State) : Out :=
  s.checked (mtcCheck creg ss s) (s.put (.creg creg) ((s.rdS ss).val.setWidth 1024) false 2)

end Sys2Proof.Machine
end

