-- ==== Sys2Proof/Machine/Flow.lean ====
section
/-!
DEFINITION. The Y slot (R82, R84 to R101, R267 to R283, R380 to R384): branches, waits, flags, barriers, span messages,
marks, and the end of a group.
-/
namespace Sys2Proof.Machine

/-- NOP: no effect; a block descriptor is read at selection (R83, R284). -/
def execNop (_desc : BitVec 48) (s : State) : Out := .next s

/-! ## Branches (R251 to R254, R267 to R271) -/

/-- A YT or YC branch that is taken under a condition; the target is checked only then (R451). -/
def State.branchIf (s : State) (c : Bool) (t : BrTarget) : Out :=
  if c then s.checked (s.targetCheck t) (s.take (s.target t).1.toNat (s.target t).2.toNat) else .next s.notTaken

/-- A YR branch (DEDUCED, log 39). -/
def State.branchLink (s : State) (l : Word) : Out :=
  s.checked (s.linkCheck l) (s.take (linkPc l) (linkMpc s.me.bnd.metaoff l))

/-- The number of bundles among the branch and its two delay slots whose M slot is not a NOP (R254, R255)
(DEDUCED, log 39). -/
def State.linkSlots (s : State) : Nat :=
  let b := s.me.bnd
  s.cur.mslot.toNat + s.mslotAt s.cur.cl.toNat b.asid (b.image + s.cur.bpc + 64) +
    s.mslotAt s.cur.cl.toNat b.asid (b.image + s.cur.bpc + 128)

/-- BR. -/
def execBr (t : BrTarget) (s : State) : Out := s.branchIf true t
/-- BRA. -/
def execBra (l : LReg) (s : State) : Out := s.branchLink (s.rdL l)
/-- BRS (R268). -/
def execBrs (cc : SumTest) (z : ZReg) (t : BrTarget) (s : State) : Out := s.branchIf (sumHolds cc (s.rdZ z)) t

/-- The trap of a mask that is not uniform (R269, R441). -/
def brvCheck (k : KReg) (s : State) : Option Trap :=
  if s.rdK k = 0 ∨ s.rdK k = 0xFFFFFFFF then none
  else some (s.trapOf 0x0004 (k.toNat * 2 ^ 32 + (s.rdK k).toNat))

/-- BRV (R269). -/
def execBrv (cc : MaskTest) (k : KReg) (t : BrTarget) (s : State) : Out :=
  match brvCheck k s with
  | some x => .next (s.trap x)
  | none => s.branchIf (match cc with | .all => s.rdK k == 0xFFFFFFFF | .none => s.rdK k == 0) t

/-- CALL: the link is written with bound 1 (R250, R254). -/
def execCall (l : LReg) (t : BrTarget) (s : State) : Out :=
  s.checked (s.targetCheck t)
    ((s.putL l (s.link s.linkSlots)).take (s.target t).1.toNat (s.target t).2.toNat)

/-- RET. -/
def execRet (l : LReg) (s : State) : Out := s.branchLink (s.rdL l)

/-- JMPL: the target is read before the link is written (R267). -/
def execJmpl (ld l : LReg) (s : State) : Out :=
  s.checked (s.linkCheck (s.rdL l))
    ((s.putL ld (s.link s.linkSlots)).take (linkPc (s.rdL l)) (linkMpc s.me.bnd.metaoff (s.rdL l)))

/-- LOOPI (R270). -/
def execLoopi (l : LReg) (count : BitVec 16) (s : State) : Out := .next (s.putL l (count.setWidth 64))

/-- LOOPE (R270). -/
def execLoope (l : LReg) (t : BrTarget) (s : State) : Out :=
  let n := s.rdL l
  if n = 0 then .next s.notTaken
  else if n = 1 then .next ((s.putL l 0).notTaken)
  else s.checked (s.targetCheck t) ((s.putL l (n - 1)).take (s.target t).1.toNat (s.target t).2.toNat)

/-- Is the poison bit set that CHK tests? A bound galley is not poisoned (R271). -/
def State.chkBit (s : State) (r : PoisonReg) : Bool :=
  match r with
  | .s n => (s.rdS n).psn
  | .v n => !(s.galley? n).isSome && (s.rdV n).psn

/-- CHK (R271). -/
def execChk (r : PoisonReg) (t : BrTarget) (s : State) : Out := s.branchIf (s.chkBit r) t

/-! ## Flags, waits and predicates (R84 to R88, R273 to R276) -/

def WaitFlags.list (w : WaitFlags) : List FReg := [w.f0, w.f1, w.f2, w.f3, w.f4, w.f5, w.f6, w.f7]

/-- Are all named flags 1? -/
def State.flagsUp (s : State) (w : WaitFlags) : Bool := (WaitFlags.list w).all s.rdF

/-- WAIT: the bundle holds until every named flag is 1 (R87, R275). -/
def execWait (w : WaitFlags) (s : State) : Out := if s.flagsUp w then .next s else .next (s.stall .flags)

/-- The entry of a WAITP for a slot (DEDUCED, log 75). -/
def waitEntry (es : WaitEntries) : SlotNo → WaitEntry
  | .y => ⟨false, 0⟩ | .s => es.s | .v0 => es.v0 | .v1 => es.v1 | .m => es.m | .l => es.l | .t => es.t | .c => es.c

/-- Does a WAITP hold a slot, its flag being 0 (R88)? -/
def waitpHolds (es : WaitEntries) (f : BitVec 64) (n : SlotNo) : Bool :=
  (waitEntry es n).valid && !f.getLsbD (waitEntry es n).flag.toNat

/-- WAITP: the slots whose flag is 0 are held; the others issue with it (R88, R276). -/
def execWaitp (es : WaitEntries) (s : State) : Out :=
  let hold (n : SlotNo) : Bool := waitpHolds es s.me.regs.f n
  .next { s.modMe fun x => { x with held := x.held ++ s.slotNos.filter hold } with
          slots := ((s.slots.zip s.slotNos).filter fun e => !hold e.2).map (·.1),
          slotNos := s.slotNos.filter fun n => !hold n }

/-- SETF (R273). -/
def execSetf (f : FReg) (s : State) : Out := .next (s.setFlag s.cur.cl.toNat s.cur.ctx.toNat f.toNat true)
/-- CLRF (R273). -/
def execClrf (f : FReg) (s : State) : Out := .next (s.setFlag s.cur.cl.toNat s.cur.ctx.toNat f.toNat false)

/-- SETP (R274). -/
def execSetp (pd : PReg) (src : SetpSrc) (s : State) : Out :=
  .next (s.putP pd (match src with
    | .flag f => s.rdF f
    | .sum cc z => sumHolds cc (s.rdZ z)
    | .value b => b))

/-! ## POST (R277) -/

def State.postTarget (s : State) (t : PostTarget) : Nat :=
  match t with
  | .group g => g.toNat
  | .link l => bitsAt (s.rdL l).toNat 0 24

/-- A target at or beyond GCOUNT (R277). -/
def postCheck (t : PostTarget) (s : State) : Option Trap :=
  if s.postTarget t < s.me.bnd.gcount then none else some (s.trapOf 0x0013 (s.postTarget t))

/-- What follows a POST without the context: the flag is set once every earlier access is performed at MOD. -/
def State.addPost (s : State) (target : Nat) (f : FReg) : State :=
  let x := s.me
  let r : PostReq := ⟨s.nextId, s.cur.cl.toNat, s.cur.ctx.toNat, x.ord, x.bnd.gen, x.bnd.launch, x.bnd.group, target, f⟩
  ({ s.modForme fun m => { m with posts := m.posts ++ [r] } with nextId := s.nextId + 1 }).soon
    [.postFlagDelivery s.nextId]

/-- POST (R277). -/
def execPost (t : PostTarget) (f : FReg) (s : State) : Out :=
  match postCheck t s with
  | some x => .next (s.trap x)
  | none =>
    s.releasePoint false
      (((s.addPost (s.postTarget t) f).release s.cur.cl.toNat s.cur.ctx.toNat).setNr)

/-! ## DBAR (R97, R278) -/

/-- A level above DOM (R97). -/
def dbarCheck (lvl : BitVec 3) (s : State) : Option Trap :=
  if lvl.toNat ≤ s.me.regs.dom.toNat then none
  else some (s.trapOf 0x0010 (lvl.toNat + s.me.regs.dom.toNat * 8))

/-- Scope of a barrier level (R97). -/
def levelScope (lvl : Nat) : Nat := lvl - 1

/-- An arrival is raised once every earlier access is performed: the context then waits for the release (R97). -/
def State.raiseArrival (s : State) (k c lvl : Nat) (lead : Bool) : State :=
  let b := (s.ctx k c).bnd
  let mine (r : Barrier) : Bool := r.launch + 1 == b.launch && r.lvl == lvl && r.members.contains b.group
  let s1 := s.modForme fun m => { m with
    bars := mapIf mine (fun r => { r with arrived := r.arrived ++ [b.group], since := if r.arrived.isEmpty then s.timer else r.since }) m.bars }
  (s1.modCtx k c fun x => { x with wait := .dbarArrived lvl lead }).soon
    ((s.forme.bars.zipIdx.filter fun e => mine e.1).map fun e => .barrierRelease e.2)

/-- The arrival of the context in issue, which then waits for the release; later accesses, those of the later slots of its
bundle too, are ordered after it (R97, log 19). -/
def State.arrive (s : State) (lvl : Nat) (lead : Bool) : State :=
  (s.addAcc { s.newAcc .fence 0 0 0 .none with acq := some (levelScope lvl, 0xFFFF), tr := .ok 0 0 }).raiseArrival
    s.cur.cl.toNat s.cur.ctx.toNat lvl lead

/-- DBAR: the release, and from level 1 the wait for every earlier access and copy; the other slots of its bundle issue
with it at its arrival (R97, R278). -/
def execDbar (lvl : BitVec 3) (lead : Bool) (s : State) : Out :=
  match dbarCheck lvl s with
  | some x => .next (s.trap x)
  | none =>
    let s1 := s.release s.cur.cl.toNat s.cur.ctx.toNat
    s.releasePoint false
      (if lvl = 0 then s1.setNr
       else if s1.allPerformed s.cur.cl.toNat s.cur.ctx.toNat s1.nextId s1.me.bnd (levelScope lvl.toNat) then
         s1.arrive lvl.toNat lead
       else s1.holdRest (.dbarPerform lvl.toNat lead s1.nextId))

/-! ## SEND and RECV (R381 to R384) -/

/-- The checks of R382 in their order. -/
def spanCheck (mod' : BitVec 12) (l : LReg) (nfl : BitVec 4) (s : State) : Option Trap :=
  let a := (s.rdL l).toNat
  let n := 128 * (nfl.toNat + 1)
  if s.me.regs.dom.toNat < 5 then some (s.trapOf 0x0010 (5 + s.me.regs.dom.toNat * 8))
  else if s.forme.nmod.toNat ≤ mod'.toNat then some (s.trapOf 0x0011 (mod'.toNat * 16))
  else if 2 ^ 23 ≤ a ∨ a % 128 ≠ 0 then some (s.trapOf 0x0011 (1 + mod'.toNat * 16))
  else if s.plainOk a n then none else some (s.claimTrap 4 a)

/-- SEND blocks while SPOUT is 8 or no scoreboard entry is free (R170, R383). -/
def sendStall (s : State) : Bool := decide (8 ≤ s.me.spout) || !s.cc.rsbFree 1

/-- What follows a SEND without the context (R383). -/
def State.addSend (s : State) (dmod : BitVec 12) (ch : BitVec 4) (a n : Nat) : State :=
  let x := s.me
  let id := s.nextId
  let r : SendReq := ⟨id, s.cur.cl.toNat, s.cur.ctx.toNat, x.ord, x.bnd.gen, x.bnd.launch, x.bnd.group, x.bnd.handle, dmod.toNat, ch.toNat, n / 128,
    s.physLocal a, none⟩
  let e := RsEntry.of s.key id false 1 (s.physLocal a) (s.physLocal a + n)
  ((({ s.modForme fun m => { m with sends := m.sends ++ [r] } with nextId := id + 1 }).modCc fun c =>
      { c with rsb := c.rsb ++ [e] }).modMe fun x => { x with spout := x.spout + 1 }).soon [.spanMessageArrival id]

/-- SEND (R383). -/
def execSend (dmod : BitVec 12) (ch : BitVec 4) (l : LReg) (nfl : BitVec 4) (s : State) : Out :=
  match spanCheck dmod l nfl s with
  | some x => .next (s.trap x)
  | none =>
    if sendStall s then .next (s.stall .retry)
    else s.releasePoint false
      (((s.addSend dmod ch (s.rdL l).toNat (128 * (nfl.toNat + 1))).release s.cur.cl.toNat s.cur.ctx.toNat).setNr)

/-- The oldest message from a module on a channel (R384, R385). -/
def State.oldest (s : State) (smod ch : Nat) : Option SpanMsg := (sget [] s.forme.chans ch).find? fun m => m.src == smod

/-- RECV: a wait until the message is there, the span trap on a length mismatch, else the delivery (R384). -/
def execRecv (smod : BitVec 12) (ch : BitVec 4) (l : LReg) (nfl : BitVec 4) (s : State) : Out :=
  match spanCheck smod l nfl s with
  | some x => .next (s.trap x)
  | none =>
    match s.oldest smod.toNat ch.toNat with
    | none => .next (s.stall .recv)
    | some m =>
      let n := 128 * (nfl.toNat + 1)
      let a := s.physLocal (s.rdL l).toNat
      if m.bytes.length ≠ n then .next (s.trap (s.trapOf 0x0011 (2 + smod.toNat * 16)))
      else if !s.cc.rsbFree 1 || s.cc.rangeBusy 1 a (a + n) s.nextId false then .next (s.stall .retry)
      else
        let left := eraseFirst (fun y => y.src == smod.toNat) (sget [] s.forme.chans ch.toNat)
        .next (((s.writeLocal s.cur.cl.toNat a m.bytes).modForme fun f =>
          { f with chans := sset [] f.chans ch.toNat left }).setNr)

/-! ## MARK, YIELD, EXIT, TRAP, TRET (R279 to R283) -/

/-- The checks of MARK (R279). -/
def markCheck (lm : BitVec 16) (s : State) : Option Trap :=
  if s.me.trapm then some (s.trapOf 0x0015 1)
  else if s.me.bnd.lmcount ≤ lm.toNat then some (s.trapOf 0x0012 lm.toNat)
  else none

/-- The context that a queued plane operation belongs to. -/
def PlaneOp.ctx : PlaneOp → Nat
  | .sgo n => n.ctx
  | .sclr c _ => c
  | .sacc c .. => c

/-- The nests of a context, queued ones too, are told to stop at the end of their k-step (R102); at EXIT its queued
operations go (R82). -/
def Plane.stopFor (p : Plane) (c : Nat) (discard : Bool) : Plane :=
  let tell (n : Nest) : Nest := if n.ctx = c then { n with pstop := true } else n
  { p with
    nest := p.nest.map tell,
    queue := if discard then p.queue.filter fun o => o.ctx != c
      else p.queue.map fun o => match o with
        | .sgo n => .sgo (tell n)
        | o => o }

/-- The range-scoreboard id of a plane operation. -/
def PlaneOp.who : PlaneOp → Option Nat
  | .sgo n => some n.id
  | .sclr .. => none
  | .sacc _ _ id .. => some id

/-- Ids of a context's queued plane operations. -/
def Cluster.queuedIds (x : Cluster) (c : Nat) : List Nat :=
  (x.planes.map fun e => (e.2.queue.filter fun o => o.ctx == c).filterMap PlaneOp.who).flatten

def Cluster.stopNests (x : Cluster) (c : Nat) (discard : Bool) : Cluster :=
  let gone := if discard then x.queuedIds c else []
  { x with planes := x.planes.map fun e => (e.1, e.2.stopFor c discard),
           rsb := x.rsb.filter fun e => !gone.contains e.who }

/-- A context leaves READY: those that stand aside for it wait for it no longer (R280). -/
def State.leftReady (s : State) (k c : Nat) : State :=
  ([0, 1, 2, 3] : List Nat).foldl (fun s d =>
    s.modCtx k d fun x => { x with aside := x.aside.filter fun e => e.toNat != c }) s

/-- Context c of cluster k stops for a save: reason 1 pre-emption, 3 debug (R101, R104). -/
def State.stopFor (s : State) (k c : Nat) (rsn : Nat) (atWait : Bool) : State :=
  ((((s.landPushes k c).leftReady k c).modCtx k c fun x =>
      { x.landIf (fun p => p.dst == .leadpos) with
        st := .saving, wait := .none, pend := [], preempt := false, stopWait := atWait, stopNr0 := !x.nr, srsn := rsn }).modCluster k
    fun x => x.stopNests c false).soon [.saveRecordWritten (.ofNat 9 k) (.ofNat 2 c)]

/-- The effect of MARK: release, shadow, NR, restart point; a result in flight lands in the working copy alone (R91, R279).
A pre-emption that a TRET held back may stop the context from here on (R444) (DEDUCED, log 11). -/
def State.mark (s : State) (lm : BitVec 16) : State :=
  (s.release s.cur.cl.toNat s.cur.ctx.toNat).modMe fun x =>
    { x with shadow := x.regs, nr := false, tret := false, markId := s.nextId,
             rpc := s.cur.bpc + 64, rmpc := s.cur.bmpc, lmidx := lm, blkNew := false }

/-- MARK (R279); a pre-emption that is requested stops the context here (R101). -/
def execMark (lm : BitVec 16) (s : State) : Out :=
  match markCheck lm s with
  | some x => .next (s.trap x)
  | none =>
    s.releasePoint true
      (if s.me.preempt then (s.mark lm).stopFor s.cur.cl.toNat s.cur.ctx.toNat 1 false else s.mark lm)

/-- YIELD: the context stands aside until every other READY context has been selected (R280). -/
def execYield (s : State) : Out :=
  let others := ([0, 1, 2, 3] : List CtxNo).filter fun c =>
    c != s.cur.ctx && (s.ctx s.cur.cl.toNat c.toNat).st == .ready
  .next (s.modMe fun x => { x with aside := others })

/-- EXIT: the release; the context then waits for its nests and copies, and is freed (R82, R281). Faults that are
recorded and were not due end the launch (R447, log 20). -/
def State.exit (s : State) : State :=
  let k := s.cur.cl.toNat
  let c := s.cur.ctx.toNat
  let s1 := ((s.release k c).landPushes k c).modCluster k fun x => x.stopNests c true
  let s2 := (s1.me.defer.filter fun d => bitsAt d.tcause.toNat 0 16 != 0x18).foldl (fun s d => s.lateFault k c (bitsAt d.tcause.toNat 0 16)) s1
  s2.modMe fun x => { x with wait := .exit, pend := [], defer := [], blk := Block.off }

/-- EXIT (DEDUCED, log 20). -/
def execExit (s : State) : Out := s.afterWait (s.releasePoint false s.exit)

/-- TRAP: the software trap with {zero, IMM16, ARG} (R282, R376). -/
def execTrap (code : BitVec 16) (val : BitVec 32) (s : State) : Out :=
  .next (s.trap ⟨0x0017, some s.cur.slot, 0, some (.ofNat 64 (code.toNat * 2 ^ 32 + val.toNat))⟩)

/-- The checks of TRET (R283, R444). -/
def tretCheck (s : State) : Option Trap :=
  let e := s.view.erpc.toNat
  if !s.me.trapm then some (s.trapOf 0x0015 0)
  else if e % 64 ≠ 0 ∨ !s.me.bnd.inText e then some (s.btgt (e / 64))
  else none

/-- TRET (R283). -/
def execTret (s : State) : Out := s.checked (tretCheck s) s.trapReturn

end Sys2Proof.Machine
end

