-- ==== Sys2Proof/Machine/Nest.lean ====
section
/-!
DEFINITION. Stream arithmetic (R52 to R78) and the walk of a nest (R363 to R374): the generator, the site, k-steps, ends
of passes, stops, and the plane-operation queue.
-/
namespace Sys2Proof.Machine

/-! ## Accumulators (R58) -/

/-- An accumulator that nothing has written since the plane was zeroed or made undefined. -/
def accDefault (tag i : Nat) : BitVec 48 :=
  match tag with
  | 0 => 0
  | n + 1 => .ofNat 48 (ofBytes ((List.range 6).map fun b => Config.freeByte n (6 * i + b)))

def Plane.at (p : Plane) (row col : Nat) : BitVec 48 := sget (accDefault p.tag (512 * row + col)) p.acc (512 * row + col)
def Plane.put (p : Plane) (row col : Nat) (v : BitVec 48) : Plane :=
  { p with acc := sset (accDefault p.tag (512 * row + col)) p.acc (512 * row + col) v }

def Cluster.plane (c : Cluster) (n : Nat) : Plane := sget Plane.reset c.planes n
def Cluster.modPlane (c : Cluster) (n : Nat) (f : Plane → Plane) : Cluster :=
  { c with planes := sset Plane.reset c.planes n (f (c.plane n)) }

/-- SCLR zeroes a plane and its readout values: EREF 0 and MXN8 on both edges (R58, R363, R368). A queued SGO keeps RUN. -/
def Plane.cleared (p : Plane) : Plane :=
  { p with tag := 0, acc := [], pstat := 0, seb := 0, eb := 0, leref := 0, lsmode := 0x140, lpass := 0, lq := 0, li := [],
           last := none, stopped := false }

/-! ## The generator (R54 to R56) -/

/-- Bits of a 16-bit number reversed. -/
def reverse16 (i : Nat) : Nat := (List.range 16).foldl (fun x b => x + (bitAt i b).toNat * 2 ^ (15 - b)) 0

/-- The direction numbers V(1) to V(16). -/
def dirNumbers : List Nat :=
  [0x8000, 0xC000, 0xA000, 0xF000, 0x8800, 0xCC00, 0xAA00, 0xFF00] ++
  [0x8080, 0xC0C0, 0xA0A0, 0xF0F0, 0x8888, 0xCCCC, 0xAAAA, 0xFFFF]

/-- d1 and d2 (R54). -/
def gen1 (i : Nat) : Nat := reverse16 i
def gen2 (i : Nat) : Nat :=
  (dirNumbers.zip (List.range 16)).foldl (fun x v => if bitAt i v.2 then x ^^^ v.1 else x) 0

/-- The digital shift of k-step q (R55). -/
def shiftOf (seed : BitVec 32) (noshift : Bool) (q : Nat) : Nat × Nat :=
  if noshift then (0, 0)
  else
    let x : BitVec 32 := seed ^^^ (BitVec.ofNat 32 q * 0x9E3779B9)
    let y := (x ^^^ (x >>> 16)) * 0x7FEB352D
    let z := y ^^^ (y >>> 15)
    (bitsAt z.toNat 0 16, bitsAt z.toNat 16 16)

/-- The count of one site over indices from i0, n of them (R56, R57). -/
def siteCount (bp : Bool) (sh : Nat × Nat) (ma mb i0 n : Nat) : Nat :=
  (List.range n).foldl (fun c i =>
    let a := decide ((gen1 (i0 + i) ^^^ sh.1) < ma * 256)
    let b := decide ((gen2 (i0 + i) ^^^ sh.2) < mb * 256)
    c + (if bp then a == b else a && b).toNat) 0

/-! ## Edges (R52, R53) -/

/-- An element at the edge: sign, magnitude, scale exponent. -/
structure Edge where
  neg : Bool
  m : Nat
  s : Int
deriving DecidableEq, Repr

/-- The magnitude 16·|v| of an E2M1 code (R52). -/
def e2m1Times16 (c : Nat) : Nat := [0, 8, 16, 24, 32, 48, 64, 96].getD (c % 8) 0

/-- The signed value x of an element of format code 0 MXI8 or 2 MXFP4. -/
def edgeInt (fmt code : Nat) : Int :=
  if fmt = 2 then (if code / 8 = 1 then -(e2m1Times16 code : Int) else e2m1Times16 code) else toSigned 8 code

/-- An element with its scale byte; none when the scale is 0xFF (R52, R53). -/
def edgeOf (fmt : Nat) (bp : Bool) (code e : Nat) : Option Edge :=
  if e = 0xFF then none
  else
    let s : Int := (e : Int) - 127 + if fmt = 2 then 2 else 0
    if fmt = 1 then some ⟨false, code, s⟩
    else
      let x := edgeInt fmt code
      if bp then some ⟨false, (x + 128).toNat, s⟩ else some ⟨decide (x < 0), 2 * x.natAbs, s⟩

/-- The constant c of a format (R52). -/
def edgeConst (fmt : Nat) : Int := if fmt = 1 then 0 else 1

/-! ## The walk (R353, R364) -/

def lvlOn (n : Word) : Bool := n.getLsbD 0
def lvlTrip (n : Word) : Nat := if lvlOn n then bitsAt n.toNat 48 16 + 1 else 1
def lvlField (n : Word) (lo w : Nat) : Nat := if lvlOn n then bitsAt n.toNat lo w else 0

/-- A sum of R364: the field of hm, and each enabled level's advance times its counter. -/
def walkSum (hm : Word) (nv : List Word) (i : List Nat) (h0 hw lo w : Nat) : Nat :=
  bitsAt hm.toNat h0 hw + (nv.zip i).foldl (fun t e => t + e.2 * lvlField e.1 lo w) 0

def walkA (hm : Word) (nv : List Word) (i : List Nat) : Nat := walkSum hm nv i 30 12 36 12
def walkB (hm : Word) (nv : List Word) (i : List Nat) : Nat := walkSum hm nv i 18 12 24 12
def walkRow (hm : Word) (nv : List Word) (i : List Nat) : Nat := 8 * walkSum hm nv i 48 6 18 6
def walkCol (hm : Word) (nv : List Word) (i : List Nat) : Nat := 8 * walkSum hm nv i 42 6 12 6

/-- The counters of the last iteration. -/
def lastIter (nv : List Word) : List Nat := nv.map fun n => lvlTrip n - 1

/-- The next iteration, level 0 fastest; none after the last. -/
def nextIter : List Word → List Nat → Option (List Nat)
  | n :: nv, i :: is => if i + 1 < lvlTrip n then some ((i + 1) :: is) else (nextIter nv is).map fun r => 0 :: r
  | _, _ => none

def atileOf (hm : Word) : Nat := bitsAt hm.toNat 59 5
def btileOf (hm : Word) : Nat := bitsAt hm.toNat 54 5

/-- The tiles that a walk reaches, A and B, with the columns and rows per tile (R362). -/
def reachA (hm : Word) (nv : List Word) (ka : Nat) : List Nat :=
  (List.range (walkA hm nv (lastIter nv) / ka + 1)).map fun t => atileOf hm + t
def reachB (hm : Word) (nv : List Word) (kb : Nat) : List Nat :=
  (List.range (walkB hm nv (lastIter nv) / kb + 1)).map fun t => btileOf hm + t

/-- An element of the A column at row r (R364, R166). -/
def Nest.aEdge (n : Nest) (c : Cluster) (r : Nat) : Option Edge :=
  let h := shapeOf n.ashape
  let p := walkA n.hmv n.nv n.i
  let t := c.tile (n.tile0 + atileOf n.hmv + p / h.cols)
  let col := p % h.cols
  edgeOf (bitsAt n.smode.toNat 8 2) (n.smode.getLsbD 5) (h.elem t r col) (t.get (h.bandRow r (col / 4))).toNat

/-- An element of the B row at column c. -/
def Nest.bEdge (n : Nest) (c : Cluster) (col : Nat) : Option Edge :=
  let h := shapeOf n.bshape
  let p := walkB n.hmv n.nv n.i
  let t := c.tile (n.tile0 + btileOf n.hmv + p / h.rows)
  let row := p % h.rows
  edgeOf (bitsAt n.smode.toNat 6 2) (n.smode.getLsbD 5) (h.elem t row col) (t.get (h.bandCol col (row / 4))).toNat

/-- The index range of the current pass: first index and length (R67, R68). -/
def Nest.range (n : Nest) : Nat × Nat :=
  if n.smode.getLsbD 3 then (if n.pass = 6 then (0, 64) else (2 ^ (n.pass - 1), 2 ^ (n.pass - 1))) else (0, 2 ^ n.j)

def satAcc : Int := 2 ^ 47 - 1

/-- One product term into one accumulator: its new value and the flags NSC, CLIP, SAT of PSTAT (R57). -/
def siteTerm (n : Nest) (sh : Nat × Nat) (a b : Option Edge) (acc : BitVec 48) : BitVec 48 × BitVec 32 :=
  match a, b with
  | some a, some b =>
    let bp := n.smode.getLsbD 5
    let len := n.range.2
    let cnt := siteCount bp sh a.m b.m n.range.1 len
    let t := if bp then (2 * (cnt : Int) - len).natAbs else cnt
    let neg := if bp then decide (2 * cnt < len) else a.neg != b.neg
    let s0 := a.s + b.s - n.eref.toInt
    let s := min 16 s0
    let mag : Int := if 0 ≤ s then t * 2 ^ s.toNat else t / 2 ^ (-s).toNat
    let v := acc.toInt + if neg then -mag else mag
    let w := max (-satAcc) (min satAcc v)
    (.ofInt 48 w, flagIf (decide (16 < s0)) 0x10 ||| flagIf (v != w) 0x8)
  | _, _ => (acc, 0x20)

/-- Every placed site of a k-step (R57, R364). -/
def Nest.sites (n : Nest) (c : Cluster) (p : Plane) : Plane :=
  let sh := shiftOf n.seed (n.smode.getLsbD 4) n.q
  let row := walkRow n.hmv n.nv n.i
  let col := walkCol n.hmv n.nv n.i
  (List.range (shapeOf n.ashape).rows).foldl (fun p r =>
    let a := n.aEdge c r
    (List.range (shapeOf n.bshape).cols).foldl (fun p k =>
      let x := siteTerm n sh a (n.bEdge c k) (p.at (row + r) (col + k))
      { p.put (row + r) (col + k) x.1 with pstat := p.pstat ||| x.2 }) p) p

/-- The greatest scale exponent of an edge, leaving out NaN scales (R70). -/
def maxScale (es : List (Option Edge)) : Option Int :=
  es.foldl (fun m e => match m, e with
    | some x, some y => some (max x y.s)
    | none, some y => some y.s
    | m, none => m) none

/-- S_EB after a k-step (R70). -/
def Nest.sebAfter (n : Nest) (c : Cluster) : Nat :=
  match maxScale ((List.range (shapeOf n.ashape).rows).map (n.aEdge c)),
        maxScale ((List.range (shapeOf n.bshape).cols).map (n.bEdge c)) with
  | some a, some b =>
    let smax := min 16 (a + b - n.eref.toInt)
    let first := n.pass = (if n.smode.getLsbD 3 then 6 else n.j)
    min (2 ^ 48 - 1) (n.seb + (if first then 2 ^ (max 0 smax).toNat else 0) + if smax < 0 then 1 else 0)
  | _, _ => n.seb

/-- Is the iteration skipped (R74)? -/
def Nest.skipped (n : Nest) : Bool := n.skip.getLsbD (n.i.headD 0 % 64)

/-- Cycles of the k-step at the nest's position: the indices of its pass over 64, none when skipped (R67, R68, R74)
(DEDUCED, log 46). -/
def Nest.cycles (n : Nest) : Nat := if n.skipped then 0 else n.range.2 / 64

/-- The nest whose next k-step begins now (DEDUCED, log 46). -/
def Nest.timed (n : Nest) (now : Nat) : Nest := { n with due := now + n.cycles }

/-- The k-step at the nest's position, and the next position (R365). -/
def Plane.kstep (p : Plane) (c : Cluster) (n : Nest) : Plane :=
  let p0 := if n.skipped then { p with pstat := 0 } else n.sites c { p with pstat := 0 }
  let p1 := { p0 with pstat := p.pstat ||| p0.pstat }
  let bad := p0.pstat != 0 || n.dirty
  let n1 := { n with seb := if n.skipped then n.seb else n.sebAfter c, q := n.q + 1, dirty := bad, retries := 0 }
  match nextIter n.nv n.i with
  | some i => { p1 with nest := some { n1 with i := i } }
  | none => { p1 with nest := some { n1 with i := n.i.map fun _ => 0, endPass := true } }

/-! ## Ends (R58, R69 to R73, R102, R372, R374) -/

/-- E(j), and 4 · E(j) in BP mode (R64, R71). -/
def boundOf (bp : Bool) (j : Nat) : Nat := ((j + 2) / 3 + 3) * if bp then 4 else 1

/-- The margin of the decision row: top less second; none for a range of fewer than two columns (R72). -/
def Plane.margin (p : Plane) (smarg : BitVec 28) : Option Int :=
  let row := bitsAt smarg.toNat 19 9
  let col := bitsAt smarg.toNat 10 9
  let vals := (List.range (bitsAt smarg.toNat 0 10)).map fun i => (p.at row (col + i)).toInt
  match vals with
  | a :: b :: rest =>
    let step (t : Int × Int) (v : Int) : Int × Int := if t.1 < v then (v, t.1) else (t.1, max t.2 v)
    let r := rest.foldl step (max a b, min a b)
    some (r.1 - r.2)
  | _ => none

/-- Does the margin test stop the nest after its pass (R72, R73)? -/
def Plane.marginStops (p : Plane) (n : Nest) : Bool :=
  n.smode.getLsbD 3 && n.pass < n.j && !n.dirty &&
    match p.margin n.smarg with
    | some m => decide (2 * (p.eb.toNat : Int) < m)
    | none => false

/-- How a nest ends: PSTAT bits set. -/
inductive NestEnd where
  | done | margin | sstop | preempt
deriving DecidableEq, Repr

/-- PSTAT after the end: RUN cleared; DONE, STOP, MSTOP and JSTOP (R58, R72, R102, R372). -/
def NestEnd.pstat (e : NestEnd) (x : BitVec 32) (pass : Nat) : BitVec 32 :=
  let y := x &&& ~~~2
  match e with
  | .done => y ||| 1
  | .margin => setField (y ||| 0x81) 11 5 pass
  | .sstop => y ||| 4
  | .preempt => y ||| 4

/-- The plane after its nest has ended; SPOS reads its last pass (R373). -/
def Plane.ended (p : Plane) (n : Nest) (e : NestEnd) : Plane :=
  let whole := e == NestEnd.done || e == NestEnd.margin
  { p with nest := none, pstat := e.pstat p.pstat n.pass, lpass := n.pass, lq := n.q,
           li := if whole then [] else n.i, last := some n, stopped := e == NestEnd.preempt }

/-- The end of a nest: ownership ends, its entries go, its flag is set unless it stopped for pre-emption (R58, R78,
R374) (DEDUCED, log 42). -/
def State.endNest (s : State) (k pl : Nat) (n : Nest) (e : NestEnd) : State :=
  let s1 := s.modCluster k fun c => (c.modPlane pl fun p => p.ended n e).rsbDrop n.id
  let s2 := match n.flag with
    | some f => if e = NestEnd.preempt then s1 else s1.setFlag k n.ctx f.toNat true
    | none => s1
  s2.soon [.planeOpComplete (.ofNat 9 k) (.ofNat 2 pl)]

/-- The plane number of an event, for a cluster that the form has and whose chiplet runs. -/
def State.runs (s : State) (k : Nat) : Bool := k < s.nclus && (s.chip (chipOf k) == .on || s.chip (chipOf k) == .draining) &&
  !s.forme.haltedChips.contains (chipOf k)

/-- Does a k-step read a poison-marked unit (R480)? (DEDUCED, log 42) -/
def State.nestPoison (s : State) (k : Nat) (n : Nest) : Bool :=
  !s.locPoison.isEmpty && !n.skipped &&
    (let a := shapeOf n.ashape
     let b := shapeOf n.bshape
     let pa := walkA n.hmv n.nv n.i
     let pb := walkB n.hmv n.nv n.i
     let ta := (n.tile0 + atileOf n.hmv + pa / a.cols) * 0xA000
     let tb := (n.tile0 + btileOf n.hmv + pb / b.rows) * 0xA000
     let ca := pa % a.cols
     let rb := pb % b.rows
     ((List.range a.rows).any fun r =>
       s.locPoisoned k 2 (ta + a.byteOf r ca) 1 || s.locPoisoned k 2 (ta + a.bandRow r (ca / 4)) 1) ||
     (List.range b.cols).any fun c =>
       s.locPoisoned k 2 (tb + b.byteOf rb c) 1 || s.locPoisoned k 2 (tb + b.bandCol c (rb / 4)) 1)

/-- The next k-step of a nest begins now; a skipped one takes no time (R74). -/
def State.nextStep (s : State) (k pl : Nat) (m : Nest) : State :=
  let s1 := s.modCluster k fun x => x.modPlane pl fun p => { p with nest := some (m.timed s.cycle) }
  if m.skipped then s1.soon [.nestKstep (.ofNat 9 k) (.ofNat 2 pl)] else s1

/-- An accumulator parity error has ended a nest, at a k-step boundary: as by SSTOP, the accumulators are undefined, and ENGINE
is charged to its SGO (R481). -/
def State.nestError (s : State) (k pl : Nat) (n : Nest) : State :=
  let r := (s.endNest k pl n .sstop).freshStore
  (r.2.modCluster k fun c => c.modPlane pl fun p => { p with tag := r.1.tag, acc := [] }).defer k n.ctx
    ⟨tcauseOf (some .m) false 0x0025, tinfoOf n.bpc 0, true, n.ord, none, false⟩

/-- A nest in flight meets such an error: it goes on to the next k-step boundary (R481). -/
def State.markError (s : State) (k pl : Nat) : State :=
  s.modCluster k fun c => c.modPlane pl fun p => { p with nest := p.nest.map fun n => { n with apar := true } }

/-- NEST_KSTEP: once the k-step in progress has run its cycles its sums are made; at the boundary the nest stops when
asked to or an accumulator error was met, ends its pass, or begins the next k-step (R57, R67, R102, R365, R372, R481). -/
def execNestKstep (k : ClusterNo) (pl : PlaneNo) (s : State) : Out :=
  if s.nclus ≤ k.toNat then noUnit else
  let c := s.cluster k.toNat
  let p := c.plane pl.toNat
  match p.nest with
  | none => .next s
  | some n =>
    if n.endPass || !s.runs k.toNat || s.cycle < n.due then .next s
    else if s.nestPoison k.toNat n then
      .next ((s.endNest k.toNat pl.toNat n .sstop).engineFault k.toNat n.ctx .m n.bpc n.ord 0 0)
    else
      let q := p.kstep c n
      let s1 := s.modCluster k.toNat fun x => x.modPlane pl.toNat fun _ => q
      match q.nest with
      | none => .next s1
      | some m =>
        if m.apar then .next (s1.nestError k.toNat pl.toNat m)
        else if m.endPass then .next (s1.soon [.nestPassEnd k pl])
        else if m.sstop then .next (s1.endNest k.toNat pl.toNat m .sstop)
        else if m.pstop then .next (s1.endNest k.toNat pl.toNat m .preempt)
        else .next (s1.nextStep k.toNat pl.toNat m)

/-- The end-of-pass step on the plane: JDONE, SEB, EB (R69, R71). -/
def Plane.passEnd (p : Plane) (n : Nest) : Plane :=
  { p with pstat := setField p.pstat 16 5 n.pass, seb := .ofNat 48 n.seb,
           eb := .ofNat 56 (boundOf (n.smode.getLsbD 5) n.pass * n.seb) }

/-- NEST_PASS_END: the end-of-pass step, the margin test, and the nest's end or its next pass. An SSTOP that falls here
stops it after the test, at the last pass too; a pre-emption stops a nest that has a further pass (R69, R72, R102, R365,
R372) (DEDUCED, log 43). -/
def execNestPassEnd (k : ClusterNo) (pl : PlaneNo) (s : State) : Out :=
  if s.nclus ≤ k.toNat then noUnit else
  match ((s.cluster k.toNat).plane pl.toNat).nest with
  | none => .next s
  | some n =>
    if !n.endPass || !s.runs k.toNat then .next s
    else if n.apar then .next (s.nestError k.toNat pl.toNat n)
    else
      let s1 := s.modCluster k.toNat fun x => x.modPlane pl.toNat fun p => p.passEnd n
      let p := (s1.cluster k.toNat).plane pl.toNat
      if p.marginStops n then .next (s1.endNest k.toNat pl.toNat n .margin)
      else if n.j ≤ n.pass then .next (s1.endNest k.toNat pl.toNat n (if n.sstop then .sstop else .done))
      else
        let m : Nest := { n with pass := n.pass + 1, q := 0, endPass := false }
        if n.sstop then .next (s1.endNest k.toNat pl.toNat m .sstop)
        else if n.pstop then .next (s1.endNest k.toNat pl.toNat m .preempt)
        else .next (s1.nextStep k.toNat pl.toNat m)

/-! ## Replay and parity (R75, R481, R482) -/

/-- Voltage column of an array (R76), numbered over the module. -/
def columnOf (k pl : Nat) : Nat := 8 * chipOf k + 4 * (k % 4 / 2) + pl

/-- The trimmed voltage of a column, in mV (R431). -/
def State.trimMv (s : State) (col : Nat) : Nat := bitsAt s.forme.volts.toNat (16 * col) 16

/-- The two arrays of a column: their clusters, and the plane (R76). -/
def columnArrays (col : Nat) : List (Nat × Nat) :=
  let k := 4 * (col / 8) + 2 * (col % 8 / 4)
  [(k, col % 4), (k + 1, col % 4)]

/-- The nests in flight on a column (R76). -/
def State.columnNests (s : State) (col : Nat) : List Nest := (columnArrays col).filterMap fun e => ((s.cluster e.1).plane e.2).nest

/-- The voltage of a column, in mV. It is lowered by the smaller margin step of the nests on its arrays, 10 mV a step; while
a failed segment runs again it is raised for both: to the trimmed voltage, then by 20 mV for each failure there (R75, R76,
R482). -/
def State.columnMv (s : State) (col : Nat) : Int :=
  let ns := s.columnNests col
  let again := ns.foldl (fun r n => max r n.retries) 0
  if again = 0 then
    s.trimMv col - 10 * (match ns with
      | [] => 0
      | n :: rest => (rest.foldl (fun g m => min g m.g) n.g : Nat))
  else s.trimMv col + 20 * (again - 1 : Nat)

/-- SEGMENT_REPLAY: the segment in progress is discarded and run again, with its column raised; a failure at the trimmed
voltage plus 40 mV is handled as a parity error (R75, R482). A nest of g = 0 has its first failure at the trimmed voltage
already; the model reruns it there all the same before it raises the column (DESIGN CHOICE, log 94). A k-step commits whole,
so a replay changes no accumulator. -/
def execSegmentReplay (k : ClusterNo) (pl : PlaneNo) (s : State) : Out :=
  if s.nclus ≤ k.toNat then noUnit else
  match ((s.cluster k.toNat).plane pl.toNat).nest with
  | none => .next s
  | some n =>
    if n.endPass || !s.runs k.toNat then .next s
    else if n.retries = 3 then
      .next (((s.logErr ⟨0x0051, 2, columnOf k.toNat pl.toNat, (s.ctx k.toNat n.ctx).bnd.handle,
          (s.ctx k.toNat n.ctx).bnd.group, 1, 0, 0⟩).modForme fun m => { m with coldNext := true }).markError
        k.toNat pl.toNat)
    else
      .next (s.modCluster k.toNat fun c =>
        { c.modPlane pl.toNat fun p =>
            { p with pstat := p.pstat ||| 0x40, nest := some (({ n with retries := n.retries + 1 } : Nest).timed s.cycle) } with
          rplcnt := c.rplcnt + 1 })

/-- An error in a row of a plane's accumulators, met while a nest owns it: APAR, and the nest's end at the next k-step
boundary (R481). -/
def State.rowParity (s : State) (k pl : Nat) : State :=
  let row := s.freshBits 9
  match ((s.cluster k).plane pl).nest with
  | none => s
  | some n => (row.2.logCtx 0x0050 2 k k n.ctx 0 (pl + row.1.toNat * 65536)).markError k pl

/-- ACCUMULATOR_PARITY_ERROR (R481). -/
def execAccumulatorParityError (k : ClusterNo) (pl : PlaneNo) (s : State) : Out :=
  if s.nclus ≤ k.toNat then noUnit else .next (s.rowParity k.toNat pl.toNat)

/-! ## The plane-operation queue (R367 to R370) -/

/-- The scale exponent of a readout: EREF + ca + cb − j (R60, R370). -/
def Plane.readExp (p : Plane) : Int :=
  let j := bitsAt p.pstat.toNat 16 5
  p.leref.toInt + edgeConst (bitsAt p.lsmode.toNat 8 2) + edgeConst (bitsAt p.lsmode.toNat 6 2) -
    (if j = 0 then 6 else j : Nat)

/-- One value read out: rounded once, RNE; 0 gives +0 (R61, R370). -/
def Plane.readOne (p : Plane) (f : Fmt) (row col : Nat) : Nat × Flags :=
  let v := (p.at row col).toInt
  f.roundFin .rne (decide (v < 0)) v.natAbs p.readExp false

/-- SACC performed: n values to the tile, SFLG (R370, R358). -/
def State.saccDone (s : State) (k pl ctx : Nat) (gen : BitVec 16) (id lo prow pcol n : Nat) (bf : Bool) : State :=
  let p := (s.cluster k).plane pl
  let f : Fmt := if bf then .bf16 else .f32
  let vals := (List.range n).map fun c => p.readOne f prow (pcol + c)
  let bytes := (vals.map fun v => toBytes (f.width / 8) v.1).flatten
  let fl := vals.foldl (fun f v => f ||| v.2) 0 &&& 0x1C
  let s1 := (s.modCluster k fun c => (c.tileWrite lo bytes).rsbDrop id).clearLoc k 2 lo bytes.length
  if (s1.ctx k ctx).bnd.gen = gen then
    s1.modCtx k ctx fun x => { x with regs := { x.regs with sflg := x.regs.sflg ||| fl } }
  else s1

/-- Do range-scoreboard entries made before an instruction's own hold back its range (R171)? -/
def Cluster.rangeBefore (c : Cluster) (space lo hi who : Nat) (onlyWrites : Bool) : Bool :=
  (c.rsb.takeWhile fun e => e.who != who).any fun e =>
    e.space == space && (e.write || !onlyWrites) && e.lo < hi && lo < e.hi

/-- Does a nest's start wait for earlier writes of its operand tiles (R198)? -/
def Cluster.nestWaits (c : Cluster) (n : Nest) : Bool :=
  (c.rsb.filter fun e => e.who == n.id).any fun e => c.rangeBefore e.space e.lo e.hi n.id true

/-- A nest starts: its latched values govern readouts from here on (R58, R363). -/
def Plane.start (p : Plane) (n : Nest) : Plane :=
  { p with pstat := p.pstat &&& 0x78 ||| 2, seb := 0, eb := 0, leref := n.eref, lsmode := n.smode, lpass := 0,
           lq := 0, li := [], nest := some n, stopped := false }

/-- PLANE_OP_COMPLETE: the first queued operation of a plane: an SCLR or SACC is performed, a nest starts (R367). -/
def execPlaneOpComplete (k : ClusterNo) (pl : PlaneNo) (s : State) : Out :=
  if s.nclus ≤ k.toNat then noUnit else
  let c := s.cluster k.toNat
  let p := c.plane pl.toNat
  let pop (f : Plane → Plane) (s : State) : State :=
    (s.modCluster k.toNat fun c => c.modPlane pl.toNat fun p => f { p with queue := p.queue.tail })
  if p.nest.isSome || !s.runs k.toNat then .next s
  else match p.queue with
    | [] => .next s
    | .sclr _ _ :: _ => .next (pop Plane.cleared s)
    | .sgo n :: _ => if c.nestWaits n then .next s else
      .next (((pop (fun p => p.start n) s).chargeNest k.toNat n.new).nextStep k.toNat pl.toNat n)
    | .sacc ctx gen id lo prow pcol n bf :: _ =>
      if c.rangeBefore 2 lo (lo + n * if bf then 2 else 4) id false then .next s
      else .next (pop (fun p => p) (s.saccDone k.toNat pl.toNat ctx gen id lo prow pcol n bf))

/-- The plane as an instruction that issues now sees its status: a queued SGO counts as started (R58, R59). -/
def Plane.seen (p : Plane) : Plane :=
  match p.nest, p.owner with
  | none, some n => p.start n
  | _, _ => p

end Sys2Proof.Machine
end

