-- ==== Sys2Proof/Machine/Stream.lean ====
section
/-!
DEFINITION. The M slot (R351 to R375): stream control and nest registers, SGO with its checks, plane operations, waits,
stops and status.
-/
namespace Sys2Proof.Machine

/-! ## Configuration (R354, R361) -/

/-- A configuration write, bound 1: an MTC of the register in flight is overtaken (R249, R250). -/
def State.putM (s : State) (creg : Nat) (f : Banks → Banks) : State :=
  let d : Dst := .creg (.ofNat 12 creg)
  let s1 := if s.inFlight d then s.scramble d (s.cur.bno + 1) else s
  s1.modMe fun x => { x with regs := f x.regs }

/-- SLEN. -/
def execSlen (j : BitVec 5) (s : State) : Out := .next (s.putM 0x080 fun b => { b with slen := j })
/-- SSEED: the seed is the literal's low half. -/
def execSseed (s : State) : Out := .next (s.putM 0x081 fun b => { b with seedb := s.cur.lit.setWidth 32 })

/-- SMODE as R355 lays it out. -/
def smodeBits (afmt bfmt : EdgeFmt) (bp noshift prog : Bool) : BitVec 10 :=
  .ofNat 10 (EdgeFmt.code afmt * 256 + EdgeFmt.code bfmt * 64 + bp.toNat * 32 + noshift.toNat * 16 + prog.toNat * 8)

/-- SMODE. -/
def execSmode (afmt bfmt : EdgeFmt) (bp noshift prog : Bool) (s : State) : Out :=
  .next (s.putM 0x082 fun b => { b with smode := smodeBits afmt bfmt bp noshift prog })
/-- SREF. -/
def execSref (e : BitVec 10) (s : State) : Out := .next (s.putM 0x083 fun b => { b with eref := e })
/-- SMARG. -/
def execSmarg (drow col0 : BitVec 9) (ncol : BitVec 10) (s : State) : Out :=
  .next (s.putM 0x084 fun b =>
    { b with smarg := .ofNat 28 (drow.toNat * 2 ^ 19 + col0.toNat * 2 ^ 10 + ncol.toNat) })
/-- SVMRG. -/
def execSvmrg (g : BitVec 3) (new : BitVec 8) (s : State) : Out :=
  .next (s.putM 0x085 fun b => { b with svmrg := .ofNat 11 (new.toNat * 8 + g.toNat) })

/-- SLIT: the literal goes to a configuration shadow, reserved bits too (R354, R361). -/
def execSlit (tgt : SlitTgt) (s : State) : Out :=
  .next (match tgt with
    | .hm n => s.putM (0x088 + n.toNat) fun b => { b with hmSh := sset 0 b.hmSh n.toNat s.cur.lit }
    | .n l => s.putM (0x090 + l.toNat) fun b => { b with nSh := sset 0 b.nSh l.toNat s.cur.lit })

/-! ## Planes (R59, R367, R452) -/

/-- The planes of a set, relative, in rising order. -/
def planeList (pls : PlaneSet) : List Nat := (List.range 4).filter fun n => pls.getLsbD n

def State.planeOf (s : State) (n : Nat) : Plane := s.cc.plane (s.physPlane n)

/-- The first plane of a list at or beyond CARR (R460). -/
def State.planesCheck (s : State) (ns : List Nat) : Option Trap := firstTrap (ns.map s.planeCheck)

/-- The context's nests in flight, owned or queued, with the relative plane, oldest first by issue (R452). -/
def State.ownNests (s : State) : List (Nat × Nest) :=
  (List.range 4).filterMap fun n =>
    if n < s.me.bnd.carr then ((s.planeOf n).owner.bind fun x => if x.ctx = s.cur.ctx.toNat then some (n, x) else none)
    else none

def oldestNest (xs : List (Nat × Nest)) : Option (Nat × Nest) :=
  xs.foldl (fun o x => match o with
    | some y => if x.2.ord < y.2.ord then some x else o
    | none => some x) none

/-- The accumulator-busy trap of a plane that is owned (R59, R452). -/
def State.busyCheck (s : State) (n : Nat) : Option Trap :=
  if (s.planeOf n).owner.isSome then
    some (s.trapOf 0x000B (n * 2 ^ 38 + match oldestNest s.ownNests with
      | some (m, x) => m * 2 ^ 36 + x.bpc / 64 % 2 ^ 34
      | none => 0))
  else none

/-- Plane operations queued for the context (R367). -/
def State.queuedOps (s : State) : Nat :=
  s.cc.planes.foldl (fun n e => n + (e.2.queue.filter fun o => o.ctx == s.cur.ctx.toNat).length) 0

/-- Append a plane operation; it is taken up when those before it have completed. -/
def State.queueOp (s : State) (n : Nat) (o : PlaneOp) : State :=
  (s.modCc fun c => c.modPlane (s.physPlane n) fun p => { p with queue := p.queue ++ [o] }).soon
    [.planeOpComplete s.cur.cl (.ofNat 2 (s.physPlane n))]

/-! ## SGO (R354, R362, R363) -/

/-- hm[HM] and n0 to n5 as SGO would make them live (R362). -/
def State.sgoHm (s : State) (sw : Bool) (hm : BitVec 2) : Word :=
  sget 0 (if sw then s.view.regs.hmSh else s.view.regs.hm) hm.toNat
def State.sgoN (s : State) (sw : Bool) : List Word :=
  (List.range 6).map fun l => sget 0 (if sw then s.view.regs.nSh else s.view.regs.n) l

/-- An enabled level above a disabled one, or n0 disabled (R362). -/
def levelsBad (nv : List Word) : Bool :=
  !(nv.headD 0).getLsbD 0 || (nv.zip nv.tail).any fun e => !lvlOn e.1 && lvlOn e.2

/-- The items of R362 step 3 in their order. -/
def ncfgItems (x : Banks) (hm : Word) (nv : List Word) (ha hb : Shape) : List Bool :=
  let af := bitsAt x.smode.toNat 8 2
  let bf := bitsAt x.smode.toNat 6 2
  let ncol := bitsAt x.smarg.toNat 0 10
  [x.slen == 0, af == 3 || bf == 3, x.smode.getLsbD 5 && (af == 1 || bf == 1), levelsBad nv,
   bitsAt hm.toNat 0 18 != 0 || nv.any fun n => bitsAt n.toNat 1 11 != 0,
   decide (512 < bitsAt x.smarg.toNat 10 9 * (if ncol = 0 then 0 else 1) + ncol),
   decide (512 < walkRow hm nv (lastIter nv) + ha.rows) || decide (512 < walkCol hm nv (lastIter nv) + hb.cols)]

/-- The shape trap's reason for a tile of a nest, in R362's order; none when it is fit. -/
def nestShapeBad (x first : BitVec 32) (isB : Bool) (fmt : Nat) : Option Nat :=
  let h := shapeOf x
  if !h.ok then some 0
  else if !h.bs then some 1
  else if h.bax != isB then some 2
  else if h.w != (if fmt = 2 then 4 else 8) then some 3
  else if x != first then some 4
  else none

/-- The checks of R362. -/
def sgoCheck (sw : Bool) (hm : BitVec 2) (pl : PlaneNo) (s : State) : Option Trap :=
  let x := s.view.regs
  let h := s.sgoHm sw hm
  let nv := s.sgoN sw
  let ha := shapeOf (s.rdShape (atileOf h))
  let hb := shapeOf (s.rdShape (btileOf h))
  let ta := reachA h nv ha.cols
  let tb := reachB h nv hb.rows
  let shape (isB : Bool) (first t : Nat) : Option Trap :=
    (nestShapeBad (s.rdShape t) (s.rdShape first) isB (bitsAt x.smode.toNat (if isB then 6 else 8) 2)).map fun r =>
      s.shapeTrap t r
  firstTrap ([s.planeCheck pl.toNat] ++ (ta ++ tb).map s.tileCheck ++ [s.busyCheck pl.toNat,
      ((ncfgItems x h nv ha hb).findIdx? id).map fun i => s.trapOf 0x000C i] ++
    ta.map (shape false (atileOf h)) ++ tb.map (shape true (btileOf h)))

/-- The wait of an SGO with SWAP = 1, which comes before the checks (R354, R440) (DEDUCED, log 52). -/
def sgoSwapWait (sw : Bool) (s : State) : Bool := sw && !s.ownNests.isEmpty

/-- Physical operand tiles of a nest, each once. -/
def State.nestTiles (s : State) (sw : Bool) (hm : BitVec 2) : List Nat :=
  let h := s.sgoHm sw hm
  let nv := s.sgoN sw
  ((reachA h nv (shapeOf (s.rdShape (atileOf h))).cols ++ reachB h nv (shapeOf (s.rdShape (btileOf h))).rows).eraseDups).map
    s.physTile

/-- The waits of SGO after its checks: a full queue, no free scoreboard entries (R170, R367). -/
def sgoStall (sw : Bool) (hm : BitVec 2) (s : State) : Bool :=
  decide (8 ≤ s.queuedOps) || !s.cc.rsbFree (s.nestTiles sw hm).length

/-- The energy wait of SGO (R435). -/
def sgoEnergy (s : State) : Bool := s.sgoHeld s.cc (bitsAt s.view.regs.svmrg.toNat 3 8)

/-- The exchange of the shadow and live copies (R354). -/
def Banks.swapNest (x v : Banks) (hm : Nat) : Banks :=
  { x with
    hm := sset 0 x.hm hm (sget 0 v.hmSh hm), hmSh := sset 0 x.hmSh hm (sget 0 v.hm hm), n := v.nSh, nSh := v.n }

/-- The shadows that the exchange writes, as MTC names them (R376). -/
def nestShadows (hm : BitVec 2) : List Dst :=
  .creg (.ofNat 12 (0x088 + hm.toNat)) :: (List.range 6).map fun i => .creg (.ofNat 12 (0x090 + i))

/-- The nest state that SGO latches (R363). -/
def State.newNest (s : State) (sw : Bool) (hm : BitVec 2) (flag : Option FReg) : Nest :=
  let x := s.view.regs
  let h := s.sgoHm sw hm
  { id := s.nextId, ctx := s.cur.ctx.toNat, hm := hm, hmv := h, nv := s.sgoN sw, ashape := s.rdShape (atileOf h),
    bshape := s.rdShape (btileOf h), tile0 := s.me.bnd.tile0, skip := s.cur.lit, seed := x.seedb, j := x.slen.toNat,
    eref := x.eref, smode := x.smode, g := bitsAt x.svmrg.toNat 0 3, smarg := x.smarg, new := bitsAt x.svmrg.toNat 3 8,
    flag := flag, i := [0, 0, 0, 0, 0, 0], q := 0, pass := if x.smode.getLsbD 3 then 6 else x.slen.toNat, seb := 0,
    endPass := false, sstop := false, pstop := false, dirty := false, bpc := s.cur.bpc, ord := s.nextId, retries := 0, due := 0,
    apar := false }

/-- SGO (R362, R363). -/
def execSgo (sw : Bool) (hm : BitVec 2) (pl : PlaneNo) (flag : Option FReg) (s : State) : Out :=
  if sgoSwapWait sw s then .next (s.stall .retry)
  else match sgoCheck sw hm pl s with
  | some t => .next (s.trap t)
  | none =>
    if sgoStall sw hm s then .next (s.stall .retry)
    else if sgoEnergy s then .next (((s.modCc fun c => { c with eheld := true }).stall .retry).ends .energy)
    else
      let n := s.newNest sw hm flag
      let tiles := s.nestTiles sw hm
      let s1 := { s.modCc fun c =>
          { c with rsb := c.rsb ++ tiles.map fun t => RsEntry.of s.key n.id false 2 (t * 0xA000) ((t + 1) * 0xA000) } with
        nextId := s.nextId + 1 }
      let s2 := s1.modMe fun x =>
        { x with ord := x.ord + 1, regs := if sw then x.regs.swapNest s.view.regs hm.toNat else x.regs }
      let s3 := if sw then s2.scrambleAll (nestShadows hm) else s2
      .next ((s3.queueOp pl.toNat (.sgo n)).setNr)

/-! ## SCLR, SACC (R368 to R370) -/

/-- The checks of SCLR (R368, R460). -/
def sclrCheck (pls : PlaneSet) (s : State) : Option Trap :=
  firstTrap ([s.planesCheck (planeList pls)] ++ (planeList pls).map s.busyCheck)

/-- No place in the queue for n more operations (R367): an SCLR counts once for each of its planes, a nest that has started not at
all (DESIGN CHOICE, log 108). -/
def opsStall (n : Nat) (s : State) : Bool := decide (8 < s.queuedOps + n)

/-- SCLR. -/
def execSclr (pls : PlaneSet) (s : State) : Out :=
  match sclrCheck pls s with
  | some t => .next (s.trap t)
  | none =>
    if opsStall (planeList pls).length s then .next (s.stall .retry)
    else
      .next ((planeList pls).foldl (fun s n => s.queueOp n (.sclr s.cur.ctx.toNat s.cur.bpc)) s).setNr

/-- The checks of SACC (R369). -/
def saccCheck (bf : Bool) (tile : TileNo) (trow : BitVec 11) (pl : PlaneNo) (s : State) : Option Trap :=
  let h := shapeOf (s.rdShape tile.toNat)
  firstTrap [s.planeCheck pl.toNat, s.tileCheck tile.toNat, s.busyCheck pl.toNat,
    if !h.ok then some (s.shapeTrap tile.toNat 0)
    else if h.w != (if bf then 16 else 32) then some (s.shapeTrap tile.toNat 3) else none,
    if h.rows ≤ trow.toNat then some (s.indexTrap tile.toNat trow.toNat) else none]

/-- First tile byte and number of values of SACC (R369). -/
def State.saccRow (s : State) (tile : TileNo) (trow : BitVec 11) (pcol : BitVec 9) : Nat × Nat :=
  let h := shapeOf (s.rdShape tile.toNat)
  (s.physTile tile.toNat * 0xA000 + h.byteOf trow.toNat 0, min h.cols (512 - pcol.toNat))

/-- The waits of SACC: the queue, the scoreboard, entries over its row (R78, R170, R370). -/
def saccStall (bf : Bool) (tile : TileNo) (trow : BitVec 11) (pcol : BitVec 9) (s : State) : Bool :=
  let r := s.saccRow tile trow pcol
  opsStall 1 s || !s.cc.rsbFree 1 || s.cc.rangeBusy 2 r.1 (r.1 + r.2 * if bf then 2 else 4) s.nextId false

/-- SACC. -/
def execSacc (bf : Bool) (tile : TileNo) (trow : BitVec 11) (pl : PlaneNo) (prow pcol : BitVec 9) (s : State) : Out :=
  match saccCheck bf tile trow pl s with
  | some t => .next (s.trap t)
  | none =>
    if saccStall bf tile trow pcol s then .next (s.stall .retry)
    else
      let r := s.saccRow tile trow pcol
      let id := s.nextId
      let e := RsEntry.of s.key id true 2 r.1 (r.1 + r.2 * if bf then 2 else 4)
      .next ({ s.modCc fun c => { c with rsb := c.rsb ++ [e] } with nextId := id + 1 }.queueOp pl.toNat
        (.sacc s.cur.ctx.toNat s.me.bnd.gen id r.1 prow.toNat pcol.toNat r.2 bf))

/-! ## SDRAIN, STEST, SPOS, SSTOP (R371 to R373) -/

/-- Have the named planes no owner, and no queued operation of the context (R371)? -/
def drained (pls : PlaneSet) (s : State) : Bool :=
  (planeList pls).all fun n =>
    (s.planeOf n).owner.isNone && !((s.planeOf n).queue.any fun o => o.ctx == s.cur.ctx.toNat)

/-- SDRAIN: the bundle waits until the planes are drained (R371). -/
def execSdrain (pls : PlaneSet) (s : State) : Out :=
  match s.planesCheck (planeList pls) with
  | some t => .next (s.trap t)
  | none => if drained pls s then .next s else .next (s.stall (.drain pls))

/-- A write of SQRY, bound 1 (R373). -/
def State.putQry (s : State) (v : BitVec 64) : State := s.modMe fun x => { x with regs := { x.regs with sqry := v } }

/-- STEST. -/
def execStest (pl : PlaneNo) (s : State) : Out :=
  s.checked (s.planeCheck pl.toNat) (s.putQry ((s.planeOf pl.toNat).seen.pstat.setWidth 64))

/-- CTR0 and CTR1 (R363). -/
def ctr0 (i : List Nat) : Nat := i.getD 3 0 * 2 ^ 48 + i.getD 2 0 * 2 ^ 32 + i.getD 1 0 * 2 ^ 16 + i.getD 0 0
def ctr1 (i : List Nat) : Nat := i.getD 5 0 * 2 ^ 16 + i.getD 4 0

/-- The value that SPOS reads (R373). -/
def Plane.spos (p : Plane) (sel : Nat) : Nat :=
  let (pass, q, i) : Nat × Nat × List Nat := match p.nest with
    | some n => (n.pass, n.q, n.i)
    | none => (p.lpass, p.lq, p.li)
  if sel = 0 then p.seb.toNat
  else if sel = 1 then p.eb.toNat
  else if sel = 2 then pass * 2 ^ 32 + q % 2 ^ 32
  else if sel = 3 then ctr0 i
  else ctr1 i

/-- SPOS. -/
def execSpos (pl : PlaneNo) (sel : BitVec 3) (s : State) : Out :=
  s.checked (s.planeCheck pl.toNat) (s.putQry (.ofNat 64 ((s.planeOf pl.toNat).seen.spos sel.toNat)))

/-- A plane whose nest, in flight or queued, is told to stop (R372) (DEDUCED, log 43). -/
def Plane.stop (p : Plane) : Plane :=
  { p with
    nest := p.nest.map fun n => { n with sstop := true },
    queue := p.queue.map fun o => match o with
      | .sgo n => .sgo { n with sstop := true }
      | o => o }

/-- SSTOP (R372) (DEDUCED, log 43). -/
def execSstop (pls : PlaneSet) (s : State) : Out :=
  s.checked (s.planesCheck (planeList pls))
    ((planeList pls).foldl (fun s n => s.modCc fun c => c.modPlane (s.physPlane n) Plane.stop) s).setNr

end Sys2Proof.Machine
end

