-- ==== Sys2Proof/Machine/Engine.lean ====
section
/-!
DEFINITION. The copy engine's means: patterns and descriptors (R335, R336), its accesses to local store, tiles, stash
granules and memory (R168, R175, R197, R468), writebacks (R163, R346), reports to groups (R86, R446, R447).
-/
namespace Sys2Proof.Machine

/-! ## Reports to a group, wherever it is (R86, R277, R446, R447) -/

/-- An engine sets a flag of a group: in its context, or in its save record (R86, R105). -/
def State.groupFlag (s : State) (k c : Nat) (b : Binding) (f : FReg) : State :=
  if s.holdsGroup k c b then s.setFlag k c f.toNat true
  else match s.groupSt b.launch b.group with
    | .bound k' c' => s.setFlag k' c' f.toNat true
    | .saved _ => s.modForme fun m => { m with savedFlags := m.savedFlags ++ [(b.launch, b.group, f)] }
    | _ => s

/-- An engine sets bits of a group's CSTAT, those of a mask kept: in its context, or in its save record (R103, R348). -/
def State.groupCstat (s : State) (k c : Nat) (b : Binding) (keep set : BitVec 32) : State :=
  let put (x : Ctx) : Ctx := { x with regs := { x.regs with cstat := (x.regs.cstat &&& keep) ||| set } }
  if s.holdsGroup k c b then s.modCtx k c put
  else match s.groupSt b.launch b.group with
    | .bound k' c' => s.modCtx k' c' put
    | .saved _ => s.modForme fun m => { m with savedCstat := m.savedCstat ++ [(b.launch, b.group, keep, set)] }
    | _ => s

/-! ## Virtual memory as the forme die's agents reach it (R113, R151, R465) -/

/-- The parts of [va, va + n) in pages of 64 KiB. -/
def pageParts (va n : Nat) : List (Nat × Nat) :=
  if n = 0 then []
  else (List.range ((va + n - 1) / 2 ^ 16 + 1 - va / 2 ^ 16)).map fun i =>
    let lo := max va ((va / 2 ^ 16 + i) * 2 ^ 16)
    (lo, min (va + n) ((va / 2 ^ 16 + i + 1) * 2 ^ 16) - lo)

/-- A translation for an agent of the forme die: device or host memory, with A and D set; none when the page is absent,
not resident or not permitted. -/
def State.formeXlate (s : State) (asid va : Nat) (n : Need) : Option (Nat × State) :=
  if 2 ^ 52 ≤ va then none
  else match s.walk asid va with
    | .page big a pte =>
      if !allowed pte n then none
      else
        let pte' := (pte ||| 0x40) ||| (if n = .write then 0x80 else 0)
        let w := s.walked asid va
        let s1 := if pte' = pte then w else w.agentWrite a (toBytes 8 pte')
        match s1.through big pte' va n with
        | .ok pa mt => if mt ≤ 1 then some (pa, s1) else none
        | _ => none
    | _ => none

/-- The copies of n bytes are taken back for an agent: those that must wait are not, and no agent starts then (`spanFree`). -/
def State.takeVirtual (s : State) (pa n : Nat) (onlyExcl : Bool) : State := (s.reclaimAll (s.linesOf pa n) none onlyExcl).getD s

/-- Read n bytes of an address space; none when a page cannot be read, or a line is poison-marked (R465, R480). The lines
that it hits move in their sets (R157). -/
def State.vread (s : State) (asid va n : Nat) : Option (List Byte × State) :=
  (pageParts va n).foldl (fun t p => t.bind fun t =>
    (t.2.formeXlate asid p.1 .read).bind fun x =>
      if x.1 < 0x200000000000 ∧ (List.range ((p.2 + 511) / 256)).any (fun i =>
          x.2.linePoison (x.2.linear (x.1 + min (p.2 - 1) (256 * i)))) then none
      else
        let u := x.2.takeVirtual x.1 p.2 true
        some (t.1 ++ u.peek x.1 p.2, u.touched x.1 p.2)) (some ([], s))

/-- Write bytes into an address space. -/
def State.vwrite (s : State) (asid va : Nat) (bs : List Byte) : Option State :=
  ((pageParts va bs.length).foldl (fun (t : Option (List Byte × State)) p => t.bind fun t =>
    (t.2.formeXlate asid p.1 .write).map fun x =>
      (t.1.drop p.2, (x.2.takeVirtual x.1 p.2 false).agentWrite x.1 (t.1.take p.2))) (some (bs, s))).map (·.2)

/-- Can an agent of the forme die reach n bytes of an address space now: no line that it reads or writes is locked, no copy's
writeback must wait, no page held (R176, R220)? -/
def State.spanFree (s : State) (asid va n : Nat) : Bool :=
  (pageParts va n).all fun p => match s.walk asid p.1 with
    | .hold => false
    | .page big _ pte =>
      let pa := leafPa big pte p.1
      s.agentFree pa p.2 && (s.reclaimAll (s.linesOf pa p.2) none false).isSome
    | _ => true

/-- Where a group's save record lies (R104). -/
def Launch.recordAt (l : Launch) (g : Nat) : Nat := l.savea + g * l.savstride

/-- Can the count of a group's owed writes be lowered now (R220)? -/
def State.owedFree (s : State) (launch group : Nat) : Bool :=
  match s.groupSt launch group, s.launch? (launch - 1) with
  | .saved _, some l => s.spanFree l.asid (l.recordAt group + 0x30) 32
  | _, _ => true

/-- An owed write of a group is performed: OWED falls, in the context or in the save record (R103). -/
def State.owedDown (s : State) (launch group cls : Nat) : State :=
  match s.groupSt launch group, s.launch? (launch - 1) with
  | .bound k c, _ => s.modCtx k c fun x => { x with owed := sset 0 x.owed cls (sget 0 x.owed cls - 1) }
  | .saved _, some l =>
    let a := l.recordAt group + 0x30 + 2 * cls
    ((s.vread l.asid a 2).bind fun r => r.2.vwrite l.asid a (toBytes 2 (ofBytes r.1 - 1))).getD s
  | _, _ => s

/-! ## Descriptors and patterns (R335, R336) -/

def descBits (d : List Word) (w lo n : Nat) : Nat := bitsAt (d.getD w 0).toNat lo n
def descInt (d : List Word) (w lo : Nat) : Int := toSigned 32 (descBits d w lo 32)

/-- Element sizes of the descriptor and of a type code; 0 for a code not assigned. -/
def descEsz (d : List Word) : Nat := 2 ^ descBits d 2 48 2
def typeSize (t : Nat) : Nat := [1, 2, 4, 8, 1, 2, 4, 8, 4, 2, 2, 1, 1].getD t 0

/-- The source side, and the destination side with its element size. -/
def srcPattern (d : List Word) : Pattern :=
  ⟨descBits d 0 0 64, descBits d 2 50 2, descEsz d, descBits d 2 0 16 + 1, descBits d 2 16 16 + 1,
    descBits d 2 32 16 + 1, descInt d 3 0, descInt d 3 32, descInt d 5 0⟩
def dstPattern (d : List Word) (esz : Nat) : Pattern :=
  ⟨descBits d 1 0 64, descBits d 2 52 2, esz, descBits d 2 0 16 + 1, descBits d 2 16 16 + 1, descBits d 2 32 16 + 1,
    descInt d 4 0, descInt d 4 32, descInt d 5 32⟩

/-- Destination indices 0 and 1 exchanged (R341). -/
def Pattern.transposed (p : Pattern) : Pattern := { p with s0 := p.s1, s1 := p.s0 }

/-- Element addresses, i0 fastest, modulo 2^64. -/
def Pattern.addr (p : Pattern) (i : Nat) : Nat :=
  addr64 p.base ((i % p.c0 : Nat) * p.s0 + (i / p.c0 % p.c1 : Nat) * p.s1 + (i / p.c0 / p.c1 : Nat) * p.s2)
def Pattern.addrs (p : Pattern) (lo n : Nat) : List Nat := (List.range n).map fun i => p.addr (lo + i)

/-- The bounding range (R336): lowest element address, and highest plus the element size. -/
def Pattern.lo (p : Pattern) : Int :=
  p.base + (min 0 ((p.c0 - 1 : Nat) * p.s0) + min 0 ((p.c1 - 1 : Nat) * p.s1) + min 0 ((p.c2 - 1 : Nat) * p.s2))
def Pattern.hi (p : Pattern) : Int :=
  p.base + (max 0 ((p.c0 - 1 : Nat) * p.s0) + max 0 ((p.c1 - 1 : Nat) * p.s1) + max 0 ((p.c2 - 1 : Nat) * p.s2)) + p.esz

/-- Is every element aligned at the base and the strides (R336)? -/
def Pattern.aligned (p : Pattern) : Bool :=
  p.base % p.esz == 0 && p.s0 % p.esz == 0 && p.s1 % p.esz == 0 && p.s2 % p.esz == 0

/-- Metadata of CPYE: space, address and bytes (R342). -/
def metaSpace (d : List Word) : Nat := descBits d 6 12 2
def metaBytes (d : List Word) : Nat :=
  let n := descBits d 2 0 16 + 1
  if descBits d 6 10 2 = 1 then (n / 4 + 1) / 2 else (n * descEsz d / 32 + 7) / 8

/-- The claim check of a range of a space (R313, R336). -/
def State.sideCheck (s : State) (sp : Nat) (lo hi : Int) : Option Trap :=
  if sp = 1 then
    if 0 ≤ lo ∧ s.me.bnd.localOk lo.toNat (hi - lo).toNat then none else some (s.claimTrap 4 (lo % 2 ^ 23).toNat)
  else if sp = 2 then
    let t := s.me.bnd.ctile
    if 0 ≤ lo ∧ (hi - 1).toNat / 0xA000 < t then none
    else some (s.claimTrap 1 (if lo < 0 then ((lo % 2 ^ 64) / 0xA000).toNat else max t (lo.toNat / 0xA000)))
  else none

/-- The physical address in local or tile space of a relative one. -/
def Binding.sidePhys (b : Binding) (sp a : Nat) : Nat :=
  if sp = 1 then b.localPhys a else b.tile0 * 0xA000 + a

/-! ## Segments -/

/-- Runs of contiguous bytes within one line. -/
def mergeSegs : List (Nat × Nat) → List (Nat × Nat)
  | [] => []
  | x :: xs =>
    match mergeSegs xs with
    | y :: ys => if x.1 + x.2 = y.1 ∧ x.1 / 256 = (y.1 + y.2 - 1) / 256 then (x.1, x.2 + y.2) :: ys else x :: y :: ys
    | [] => [x]

/-- Segments of a list of element addresses. -/
def segsOf (esz : Nat) (as : List Nat) : List (Nat × Nat) := mergeSegs (as.map fun a => (a, esz))

/-- Segments of n contiguous bytes. -/
def segsRange (a n : Nat) : List (Nat × Nat) := mergeSegs ((List.range n).map fun i => (a + i, 1))

/-! ## Jobs -/

def State.job? (s : State) (k id : Nat) : Option Copy := (s.cluster k).copies.find? fun y => y.id == id
def State.modJob (s : State) (k id : Nat) (f : Copy → Copy) : State :=
  s.modCluster k fun c => { c with copies := mapIf (fun y => y.id == id) f c.copies }

/-- Traffic of a galley, which takes no place in the queue of 32 (R168, R337). -/
def CopyOp.isGalley : CopyOp → Bool
  | .gfill .. => true
  | .gstore .. => true
  | _ => false

/-- Region, mapped address space and offset, of a local or far address in a mapped STASH region. -/
def State.stashOf (s : State) (k : Nat) (b : Binding) (sp a : Nat) : Option (Nat × Nat) :=
  if sp = 0 then (s.cluster k).stashAt b.asid a
  else if sp = 1 then
    let p := b.localPhys a
    let r := (s.cluster k).region (p / 2 ^ 17)
    if r.mode = .stash ∧ r.map.isSome then some (p / 2 ^ 17, p % 2 ^ 17) else none
  else none

/-- A granule requested for an access that is under way, of the engine or not; nothing blocks (R162, R175). -/
def State.askGranule (s : State) (k r idx tenant : Nat) (write eng : Bool) : State :=
  if (s.cluster k).stashReqs.any fun q => q.region == r && q.idx == idx && q.eng == eng && (q.write || !write) then s
  else
    let m := ((s.cluster k).region r).map.getD (0, 0)
    let q : StashReq := ⟨s.nextId, r, idx, m.1 + idx * 4096, m.2, tenant, write, [], [], none, eng⟩
    { s.modCluster k fun c => { c with stashReqs := c.stashReqs ++ [q] } with nextId := s.nextId + 1 }.soon
      [.stashGranuleFill (.ofNat 9 k) s.nextId]

/-- How a segment is reached. -/
inductive Reach where
  /-- At a physical address of local (1) or tile (2) space. -/
  | here (sp phys : Nat)
  | far
  | granule (r idx : Nat)
  | fault
deriving DecidableEq, Repr

def State.reach (s : State) (k : Nat) (b : Binding) (sp a n : Nat) (write : Bool) : Reach :=
  let r : Reach := match s.stashOf k b sp a with
    | some (r, off) =>
      match s.serveStash k r off write true with
      | .here p => .here 1 p
      | .granule r i => .granule r i
      | .fault _ => .fault
      | _ => .far
    | none => if sp = 0 then .far else .here sp (b.sidePhys sp a)
  match r with
  | .here sp' p => if !write && s.locPoisoned k sp' p n then .fault else .here sp' p
  | r => r

/-- The first granule that a list of segments still needs. -/
def State.needGranule (s : State) (k : Nat) (b : Binding) (sp : Nat) (segs : List (Nat × Nat)) (write : Bool) :
    Option (Nat × Nat) :=
  segs.findSome? fun g => match s.reach k b sp g.1 g.2 write with
    | .granule r i => some (r, i)
    | _ => none

/-- Mark the lines of a stash granule dirty that a write touches (R163). -/
def Region.dirtied (r : Region) (off n : Nat) : Region :=
  { r with gran := r.gran.map fun g =>
      if g.idx = off / 4096 ∧ r.mode = .stash then
        { g with dirty := (List.range 16).foldl (fun d i =>
            if off % 4096 / 256 ≤ i ∧ i ≤ (off % 4096 + n - 1) / 256 then setBit d i true else d) g.dirty }
      else g }

/-- Write bytes at a physical place of local or tile space. -/
def State.writeHere (s : State) (k sp phys : Nat) (bs : List Byte) : State :=
  (s.modCluster k fun c =>
    if sp = 2 then c.tileWrite phys bs
    else (c.locWrite phys bs).modRegion (phys / 2 ^ 17) fun r => r.dirtied (phys % 2 ^ 17) bs.length).clearLoc
      k sp phys bs.length

/-- The access of a job to memory (R197). -/
def State.jobAccess (s : State) (k : Nat) (y : Copy) (op : AccOp) (va len : Nat) (data : List Byte) : Access :=
  { id := s.nextId, cl := k, ctx := y.ctx, gen := y.bnd.gen, ord := 0, sub := true, slot := .c, bpc := y.bpc, op := op,
    va := va, asid := y.bnd.asid, tenant := y.bnd.tenant, handle := y.bnd.handle, launch := y.bnd.launch, group := y.bnd.group, len := len,
    data := data, cls := y.cls, hint := y.hint, acq := none, rel := none, copies := false, dst := .none, tag := 0,
    spec := false, tr := .pending, st := .sent, missDone := false, redirect := none, owed := false, eng := y.id + 1, loc := false }

def State.sendJob (s : State) (a : Access) : State :=
  { s with accs := s.accs ++ [a], nextId := s.nextId + 1 }.setTr a (s.tlbLookup a.cl a.asid a.va a.needs)

/-- The bytes of segments. -/
def segAddrs (segs : List (Nat × Nat)) : List Nat := (segs.map fun g => (List.range g.2).map fun i => g.1 + i).flatten

/-- The runs of contiguous bytes within one line that a list of segments covers, by address. -/
def byteRuns (segs : List (Nat × Nat)) : List (Nat × Nat) :=
  mergeSegs (((segAddrs segs).foldl (fun (m : Sparse Unit) a => if (m.lookup a).isSome then m else sinsert m a ()) []).map
    fun e => (e.1, 1))

/-- Start the reads of a job: bytes that are here, or an access for each run of bytes within a line, so that an aligned unit
of 8 bytes that the copy covers wholly is read at once (R182) (DEDUCED, log 7). -/
def State.startReads (s : State) (k : Nat) (y : Copy) (sp : Nat) (segs : List (Nat × Nat)) :
    List (Nat × Nat × List Byte) × State :=
  (if sp = 0 then byteRuns segs else segs).foldl (fun t g =>
    match t.2.reach k y.bnd sp g.1 g.2 false with
    | .here sp' p =>
      let c := t.2.cluster k
      let r := if sp' = 2 then (c.tileRead p g.2, t.2) else t.2.asRead y.bnd.launch (t.2.localSpot k p) (c.locRead p g.2)
      (t.1 ++ [(0, g.1, r.1)], r.2)
    | _ => let a := t.2.jobAccess k y .load g.1 g.2 []; (t.1 ++ [(a.id, g.1, [])], t.2.sendJob a)) ([], s)

/-- The bytes that a write of segments leaves, by address. A byte that two elements write takes either value: the writes of
a copy are not ordered among themselves (R197, log 4). -/
def State.byteMap (s : State) (segs : List (Nat × Nat)) (bs : List Byte) : Sparse Byte × State :=
  ((segAddrs segs).zip bs).foldl (fun t e =>
    match t.1.lookup e.1 with
    | none => (sinsert t.1 e.1 e.2, t.2)
    | some b =>
      let r := t.2.freshBits 1
      (sinsert (serase t.1 e.1) e.1 (if r.1 = 1 then b else e.2), r.2)) ([], s)

/-- Start the writes of a job: one access for each run of bytes within a line, so that an aligned unit of 8 bytes that the
copy covers wholly is written at once (R182). -/
def State.startWrites (s : State) (k : Nat) (y : Copy) (sp : Nat) (segs : List (Nat × Nat)) (bs : List Byte) : State :=
  let m := s.byteMap segs bs
  ((mergeSegs (m.1.map fun e => (e.1, 1))).foldl (fun (t : List Byte × State) g =>
    let d := t.1.take g.2
    (t.1.drop g.2, match t.2.reach k y.bnd sp g.1 g.2 true with
      | .here sp' p => t.2.writeHere k sp' p d
      | _ => t.2.sendJob (t.2.jobAccess k y .store g.1 g.2 d))) (m.1.map (·.2), m.2)).2

/-- The byte at an address among parts: their first addresses, and their bytes. -/
def partByte (ps : List (Nat × List Byte)) (a : Nat) : Byte :=
  ((ps.find? fun p => p.1 ≤ a && a < p.1 + p.2.length).map fun p => p.2.getD (a - p.1) 0).getD 0

/-- The bytes of segments in order, when every part is here: a part's access has performed. -/
def State.collect (s : State) (y : Copy) (segs : List (Nat × Nat)) : Option (List Byte) :=
  (y.parts.mapM fun p =>
    if p.1 = 0 then some p.2
    else (s.acc? p.1).bind fun a => if a.st = .performed then some (p.2.1, a.data) else none).map fun ps =>
      (segAddrs segs).map (partByte ps)

/-- Accesses of a job. -/
def Access.ofJob (id : Nat) (a : Access) : Bool := a.eng == id + 1

/-- A write of host memory that the slice of MC0 has accepted: it goes on without its job (R181). -/
def Access.accepted (a : Access) : Bool := a.overAt 3 && !a.over

def State.dropJobAccs (s : State) (id : Nat) : State := { s with accs := s.accs.filter fun a => !a.ofJob id || a.accepted }

/-- Are all accesses of a job performed at MOD (R197)? -/
def State.jobDone (s : State) (id : Nat) : Bool := s.accs.all fun a => !a.ofJob id || a.overAt 3

/-- What a job does when an access of it is over. -/
def Copy.move (y : Copy) (k : Nat) : Instr :=
  match y.op with
  | .gfill g _ => .galleyFill (.ofNat 9 k) (.ofNat 4 g)
  | .gstore g _ => .galleyFill (.ofNat 9 k) (.ofNat 4 g)
  | .cpy => if y.st = .writing then .copyComplete (.ofNat 9 k) y.id else .copyDispatch (.ofNat 9 k) y.id
  | .cpyc => if y.st = .writing then .copyComplete (.ofNat 9 k) y.id else .copyDispatch (.ofNat 9 k) y.id
  | .cpyt => if y.st = .writing then .copyComplete (.ofNat 9 k) y.id else .copyDispatch (.ofNat 9 k) y.id
  | .cpye => if y.st = .writing then .copyComplete (.ofNat 9 k) y.id else .copyDispatch (.ofNat 9 k) y.id
  | _ => .engineOpComplete (.ofNat 9 k) y.id

/-- A job retires: its entries and accesses go, its flag is set, the context's next job is taken up (R337, R338). -/
def State.retireJob (s : State) (k : Nat) (y : Copy) : State :=
  let s1 := (s.dropJobAccs y.id).modCluster k fun c =>
    { c.rsbDrop y.id with copies := c.copies.filter fun z => z.id != y.id }
  let s2 := match y.flag with
    | some f => s1.groupFlag k y.ctx y.bnd f
    | none => s1
  let s2 := if y.owed then s2.owedDown y.bnd.launch y.bnd.group y.stores.cls else s2
  match (s2.cluster k).copies.find? fun z => z.ctx == y.ctx && !z.op.isGalley with
  | some z => s2.soon [z.move k]
  | none => s2

/-- ENGINE for a job (R446, R468). -/
def State.jobFault (s : State) (k : Nat) (y : Copy) (va : Nat) : State :=
  s.groupFault k y.ctx y.bnd ⟨tcauseOf (some .c) false 0x0025, tinfoOf y.bpc (farDetail y.cls va), true, y.id, none, false⟩

/-- The writes of a job to memory that are not performed, and those that are. -/
def State.tornWrites (s : State) (id : Nat) : List Access :=
  s.accs.filter fun a => a.ofJob id && a.op == .store && !a.over && (match a.tr with | .ok .. => true | _ => false)

/-- Can what an abandoned job leaves of its writes be written now: no line of them is locked, no copy's writeback must wait
(R220)? -/
def State.tearFree (s : State) (id : Nat) : Bool :=
  (s.tornWrites id).all fun a => match a.tr with
    | .ok pa _ => s.agentFree pa a.len && (s.reclaimAll (s.linesOf pa a.len) none false).isSome
    | _ => true

/-- The bytes of an access that lie in an 8-byte unit are written. -/
def State.tearUnit (s : State) (u : Nat) (a : Access) : State :=
  match a.tr with
  | .ok pa _ => (List.range a.len).foldl (fun s i =>
      if (a.va + i) / 8 = u then (s.takeVirtual (pa + i) 1 false).agentWrite (pa + i) ((a.data.drop i).take 1) else s) s
  | _ => s

/-- An abandoned job: each 8-byte unit of a write not yet performed holds its old value or its new one: the new one where a
write of the job to it has been performed (R468, log 4). -/
def State.tearWrites (s : State) (id : Nat) : State :=
  let torn := s.tornWrites id
  let done (u : Nat) : Bool := s.accs.any fun a =>
    a.ofJob id && a.op == .store && a.st == .performed && a.va / 8 ≤ u && u ≤ (a.va + a.len - 1) / 8
  let units := (torn.map fun a => (List.range a.len).map fun i => (a.va + i) / 8).flatten.eraseDups
  units.foldl (fun s u =>
    let r := s.freshBits 1
    if done u || r.1 = 1 then torn.foldl (fun s a => s.tearUnit u a) r.2 else r.2) s

/-- The oldest entry of a write galley is stored, n elements of its pattern, if it has this tag. -/
def Galley.popTag (g : Galley) (tag n : Nat) : Galley :=
  if (g.q.head?.map (·.1)) = some tag then { g with q := g.q.tail, pos := g.pos + n } else g

/-- A galley whose entry's transfer failed: a read entry holds an undefined value, a write entry is gone (log 4). -/
def State.failEntry (s : State) (k : Nat) (y : Copy) : State :=
  match y.op with
  | .gfill _ tag => let r := s.freshBits 1024; r.2.fillGalley k tag r.1
  | .gstore .. => s.modCluster k fun c => c.mapGalleys fun g => g.popTag y.id y.gaddrs.length
  | _ => s

/-- The virtual address of a byte of a job's segment: its own, that of the stash granule's byte, zero for a local or a tile
byte (R441). -/
def State.segVa (s : State) (k : Nat) (b : Binding) (sp a : Nat) : Nat :=
  if sp = 0 then a else if sp = 1 then (s.granVa k (b.localPhys a)).getD 0 else 0

/-- The virtual address of the first segment that cannot be reached. -/
def State.badSeg (s : State) (k : Nat) (b : Binding) (sp : Nat) (segs : List (Nat × Nat)) (write : Bool) : Option Nat :=
  (segs.find? fun g => s.reach k b sp g.1 g.2 write == .fault).map fun g => s.segVa k b sp g.1

/-- A job ends with ENGINE (R468) (DEDUCED, log 44). -/
def State.abandon (s : State) (k : Nat) (y : Copy) (va : Nat) : State :=
  ((((s.jobFault k y va).tearWrites y.id).failEntry k y).modCluster k fun c =>
    { c with stashReqs := c.stashReqs.filter fun q => q.failed.isNone || !q.eng }).retireJob k y

/-! ## Writebacks (R163, R344 to R346) -/

/-- The dirty lines of a region: virtual address, ASID, offset in the region. -/
def Region.dirtyLines (r : Region) : List (Nat × Nat × Nat) :=
  (match r.map with
    | some (base, asid) => (r.gran.map fun g => (List.range 16).filterMap fun i =>
        if g.dirty.getLsbD i then some (base + g.idx * 4096 + i * 256, asid, g.idx * 4096 + i * 256) else none).flatten
    | none => []) ++
  r.lines.filterMap fun l => if l.dirty then some (l.vline * 256, l.asid, l.place) else none

/-- Write back every dirty line of a region: the machine, and the addresses that faulted; none while one must wait. -/
def State.wbRegion (s : State) (k r : Nat) : Option (State × List Nat) :=
  let reg := (s.cluster k).region r
  reg.dirtyLines.foldl (fun t g => t.bind fun t =>
    match t.1.wbVirtual k g.2.1 g.1 (reg.store.read g.2.2 256) with
    | .ok s1 => some (s1, t.2)
    | .wait => none
    | .fault s1 => some (s1, t.2 ++ [g.1])) (some (s, []))

/-- A region without its granules and lines, or with all of them clean. -/
def Region.dropped (r : Region) : Region := { r with gran := [], lines := [] }
def Region.cleaned (r : Region) : Region :=
  { r with gran := r.gran.map fun g => { g with dirty := 0 }, lines := r.lines.map fun l => { l with dirty := false } }

/-- A cluster drops what a region holds of memory; its granules are released at their homes (R164). -/
def State.dropRegion (s : State) (k r : Nat) : State :=
  let gs := ((s.cluster k).region r).gran.filterMap (·.pa)
  gs.foldl (fun s pa => s.releaseGran k (pa / 4096)) (s.modCluster k fun c => c.modRegion r Region.dropped)

/-- Write back a region and drop or clean it; ENGINE for each line that faulted. -/
def State.drainRegion (s : State) (k : Nat) (y : Copy) (r : Nat) (keep : Bool) : Option State :=
  (s.wbRegion k r).map fun t =>
    t.2.foldl (fun s va => s.jobFault k y va)
      (if keep then t.1.modCluster k fun c => c.modRegion r Region.cleaned else t.1.dropRegion k r)

end Sys2Proof.Machine
end

