-- ==== Sys2Proof/Machine/Copy.lean ====
section
/-!
DEFINITION. The C slot (R335 to R349) and the copy engine's events: copies, galleys, regions, reduction windows.
-/
namespace Sys2Proof.Machine

/-! ## Checks at issue (R336, R342, R343, R345, R460) -/

/-- The descriptor that the instruction reads: the shadow when it is first exchanged (R335). -/
def State.desc (s : State) (sw : Bool) (hc : BitVec 2) : List Word :=
  (List.range 8).map fun w => sget 0 (if sw then s.view.regs.hcSh else s.view.regs.hc) (8 * hc.toNat + w)

/-- The copy-descriptor trap: hc number and reason (R441). -/
def State.cdesc (s : State) (hc : BitVec 2) (reason : Nat) : Trap := s.trapOf 0x000D (hc.toNat + reason * 16)

/-- The four copies. -/
inductive CpyKind where
  | cpy | cpyc | cpyt | cpye
deriving DecidableEq, Repr

/-- The destination side of a copy. -/
def CpyKind.dst (n : CpyKind) (d : List Word) : Pattern :=
  match n with
  | .cpyc => dstPattern d (max 1 (typeSize (descBits d 6 4 4)))
  | .cpyt => (dstPattern d (descEsz d)).transposed
  | _ => dstPattern d (descEsz d)

/-- Does a descriptor break the shape that CPYE requires (R342)? -/
def cpyeBad (d : List Word) : Bool :=
  let n := descBits d 2 0 16 + 1
  let e := descEsz d
  let mode := descBits d 6 10 2
  descBits d 6 0 4 != descBits d 6 4 4 || descBits d 2 16 32 != 0 || descInt d 3 0 != e || descInt d 4 0 != e ||
    !(mode == 1 || mode == 2) || (mode == 1 && n % 4 != 0) || (mode == 2 && n * e % 32 != 0)

/-- The first limit that a descriptor breaks, as R441 numbers them. -/
def cpyBad (n : CpyKind) (d : List Word) : Option Nat :=
  let conv := n == .cpyc || n == .cpye
  if descBits d 2 50 2 = 3 ∨ descBits d 2 52 2 = 3 ∨ (n = .cpye ∧ metaSpace d = 3) then some 0
  else if conv && typeSize (descBits d 6 0 4) == 0 || n == .cpyc && typeSize (descBits d 6 4 4) == 0 then some 1
  else if conv && descEsz d != typeSize (descBits d 6 0 4) then some 2
  else if n == .cpye && descBits d 6 10 2 == 3 then some 3
  else if !(srcPattern d).aligned || !(n.dst d).aligned then some 4
  else if n == .cpye && cpyeBad d then some 5
  else none

/-- The checks of CPY, CPYC, CPYT and CPYE: claims, then the descriptor (R336, R460). -/
def cpyCheck (n : CpyKind) (a : CpyArgs) (s : State) : Option Trap :=
  let d := s.desc a.sw a.hc
  let p := srcPattern d
  let q := n.dst d
  firstTrap [s.sideCheck p.space p.lo p.hi, s.sideCheck q.space q.lo q.hi,
    if n = .cpye then s.sideCheck (metaSpace d) (descBits d 7 0 64) (descBits d 7 0 64 + metaBytes d : Nat) else none,
    (cpyBad n d).map fun r => s.cdesc a.hc r]

/-- Scoreboard ranges of a copy: write, space, bounds (R170) (DEDUCED, log 41). -/
def cpyRanges (b : Binding) (n : CpyKind) (d : List Word) : List (Bool × Nat × Nat × Nat) :=
  let side (w : Bool) (p : Pattern) : List (Bool × Nat × Nat × Nat) :=
    if p.space = 1 ∨ p.space = 2 then
      let lo := b.sidePhys p.space p.lo.toNat
      [(w, p.space, lo, lo + (p.hi - p.lo).toNat)]
    else []
  side false (srcPattern d) ++ side true (n.dst d)

/-- Jobs in the engine's queue (R337). -/
def State.queueFull (s : State) : Bool := decide (32 ≤ (s.cc.copies.filter fun y => !y.op.isGalley).length)

/-- The waits of a copy (R170, R337). -/
def cpyStall (n : CpyKind) (a : CpyArgs) (s : State) : Bool :=
  s.queueFull || !s.cc.rsbFree (cpyRanges s.me.bnd n (s.desc a.sw a.hc)).length

/-! ## Issue -/

/-- The exchange of hc[HC] (R335). -/
def Banks.swapHc (x v : Banks) (hc : Nat) : Banks :=
  (List.range 8).foldl (fun b w =>
    { b with hc := sset 0 b.hc (8 * hc + w) (sget 0 v.hcSh (8 * hc + w)),
             hcSh := sset 0 b.hcSh (8 * hc + w) (sget 0 v.hc (8 * hc + w)) }) x

/-- A job of the instruction in issue. -/
def State.newJob (s : State) (op : CopyOp) (d : List Word) (cls : Nat) (hint : Hint) (flag : Option FReg) : Copy :=
  { id := s.nextId, ctx := s.cur.ctx.toNat, bpc := s.cur.bpc, op := op, desc := d, cls := cls, hint := hint, flag := flag,
    st := .queued, parts := [], mdata := [], cstat := 0, gspace := 0, gaddrs := [], gesz := 1, bnd := s.me.bnd, owed := false, due := 0 }

/-- Queue a job with its scoreboard entries; its descriptor is exchanged, and it is non-repeatable (R94, R335, R337). -/
def State.queueJob (s : State) (y : Copy) (rs : List (Bool × Nat × Nat × Nat)) (swap : Option (BitVec 2)) : State :=
  let s1 := { s.modCc fun c =>
      { c with copies := c.copies ++ [y],
               rsb := c.rsb ++ rs.map fun r => RsEntry.of s.key y.id r.1 r.2.1 r.2.2.1 r.2.2.2 } with
    nextId := s.nextId + 1 }
  let s2 := match swap with
    | some hc =>
      (s1.modMe fun x => { x with regs := x.regs.swapHc s.view.regs hc.toNat }).scrambleAll
        ((List.range 8).map fun w => .creg (.ofNat 12 (0x0A0 + 8 * hc.toNat + w)))
    | none => s1
  s2.setNr

def swapOf (sw : Bool) (hc : BitVec 2) : Option (BitVec 2) := if sw then some hc else none

/-- A copy. -/
def State.copy (s : State) (n : CpyKind) (op : CopyOp) (a : CpyArgs) : Out :=
  match cpyCheck n a s with
  | some t => .next (s.trap t)
  | none =>
    if cpyStall n a s then .next (s.stall .retry)
    else
      let d := s.desc a.sw a.hc
      .next (s.queueJob (s.newJob op d a.cls.toNat a.hint a.flag) (cpyRanges s.me.bnd n d) (swapOf a.sw a.hc))

/-- CPY (R339). -/
def execCpy (a : CpyArgs) (s : State) : Out := s.copy .cpy .cpy a
/-- CPYC (R340). -/
def execCpyc (a : CpyArgs) (s : State) : Out := s.copy .cpyc .cpyc a
/-- CPYT (R341). -/
def execCpyt (a : CpyArgs) (s : State) : Out := s.copy .cpyt .cpyt a
/-- CPYE (R342). -/
def execCpye (a : CpyArgs) (s : State) : Out := s.copy .cpye .cpye a

/-! ## Galleys (R343) -/

/-- The pattern that BIND takes. -/
def bindPattern (kind : BindKind) (d : List Word) : Pattern :=
  match kind with
  | .rd => srcPattern d
  | .wr => dstPattern d (descEsz d)
  | .ldx => ⟨0, 0, 1, 1, 1, 1, 0, 0, 0⟩

/-- The checks of BIND (R336, R338, R343). -/
def bindCheck (sw : Bool) (kind : BindKind) (g : GalleyNo) (hc : BitVec 2) (s : State) : Option Trap :=
  let p := bindPattern kind (s.desc sw hc)
  firstTrap [s.galleyCheck g.toNat, s.sideCheck p.space p.lo p.hi,
    if p.space = 3 then some (s.cdesc hc 0) else none,
    if p.aligned then none else some (s.cdesc hc 4)]

/-- The physical galley. -/
def State.physGalley (s : State) (g : GalleyNo) : Nat := s.me.bnd.gal0 + g.toNat

/-- The galley removed, its register an ordinary one with an undefined value (R343). -/
def State.dropGalley (s : State) (g : GalleyNo) : State :=
  if (s.cc.galleys.lookup (s.physGalley g)).isSome then
    let r := s.freshBits 1024
    (r.2.modCc fun c => { c with galleys := c.galleys.filter fun e => e.1 != s.physGalley g }).modMe fun x =>
      { x with regs := { x.regs with v := sset ⟨0, false⟩ x.regs.v (496 + g.toNat) ⟨r.1, false⟩ } }
  else s

/-- BIND: the galley is bound at issue; one that was bound is unbound by the engine before the new one's transfers begin
(R343). -/
def execBind (sw : Bool) (kind : BindKind) (g : GalleyNo) (hc : BitVec 2) (cls : Cls) (hint : Hint) (s : State) : Out :=
  match bindCheck sw kind g hc s with
  | some t => .next (s.trap t)
  | none =>
    if s.queueFull then .next (s.stall .retry)
    else
      let x : Galley := ⟨s.cur.ctx.toNat, kind, bindPattern kind (s.desc sw hc), 0, [], cls.toNat, hint, s.cur.bpc, s.nextId⟩
      let y := s.newJob (.bind (s.cc.galleys.lookup (s.physGalley g))) [.ofNat 64 (s.physGalley g)] cls.toNat hint none
      let s1 := (s.dropGalley g).queueJob y [] (swapOf sw hc)
      .next (s1.modCc fun c => { c with galleys := sinsert c.galleys (s.physGalley g) x })

/-- UNBIND (R343); its class is that of the galley's BIND (R347). -/
def execUnbind (g : GalleyNo) (flag : Option FReg) (s : State) : Out :=
  match s.galleyCheck g.toNat with
  | some t => .next (s.trap t)
  | none =>
    if s.queueFull then .next (s.stall .retry)
    else
      let old := s.cc.galleys.lookup (s.physGalley g)
      .next ((s.dropGalley g).queueJob (s.newJob (.unbind old) [] ((old.map Galley.cls).getD 0) .none flag) [] none)

/-! ## Regions (R344 to R346) -/

/-- RESHAPE: a write entry for the whole region (R161, R344) (DEDUCED, log 45). -/
def execReshape (mode : RegMode) (r : RegionNo) (cls : Cls) (flag : Option FReg) (s : State) : Out :=
  match s.regionCheck r.toNat with
  | some t => .next (s.trap t)
  | none =>
    let p := s.physRegion r.toNat
    if s.queueFull || !s.cc.rsbFree 1 then .next (s.stall .retry)
    else
      .next (s.queueJob (s.newJob (.reshape p mode) [] cls.toNat .none flag)
        [(true, 1, p * 2 ^ 17, (p + 1) * 2 ^ 17)] none)

/-- The checks of STASH in R345's order. -/
def stashCheck (sw : Bool) (r : RegionNo) (hc : BitVec 2) (s : State) : Option Trap :=
  let d := s.desc sw hc
  let p := s.physRegion r.toNat
  let src := descBits d 0 0 64
  let bad (n : Nat) : Option Trap := some (s.trapOf 0x000E (r.toNat + n * 256))
  firstTrap [s.regionCheck r.toNat,
    if (s.cc.region p).mode = .stash then none else bad 0,
    if s.cc.regions.any fun e => e.1 != p && match e.2.map with
        | some (b, a) => a == s.me.bnd.asid && b < src + 2 ^ 17 && src < b + 2 ^ 17
        | none => false
      then bad 1 else none,
    if descBits d 2 50 2 = 0 then none else bad 2,
    if src % 4096 = 0 then none else bad 3]

/-- STASH (R162, R345) (DEDUCED, log 50). -/
def execStash (sw : Bool) (r : RegionNo) (hc : BitVec 2) (hint : Hint) (flag : Option FReg) (s : State) : Out :=
  match stashCheck sw r hc s with
  | some t => .next (s.trap t)
  | none =>
    if s.queueFull then .next (s.stall .retry)
    else
      let d := s.desc sw hc
      .next (s.queueJob (s.newJob (.stash (s.physRegion r.toNat) (descBits d 0 0 64)) d 0 hint flag) [] (swapOf sw hc))

/-- CWB (R346). -/
def execCwb (keep : Bool) (r : RegionNo) (cls : Cls) (flag : Option FReg) (s : State) : Out :=
  match s.regionCheck r.toNat with
  | some t => .next (s.trap t)
  | none =>
    if s.queueFull then .next (s.stall .retry)
    else .next (s.queueJob (s.newJob (.cwb (s.physRegion r.toNat) keep) [] cls.toNat .none flag) [] none)

/-- The jobs that CQRY counts (R347). -/
def CopyOp.queried : CopyOp → Bool
  | .cpy => true
  | .cpyc => true
  | .cpyt => true
  | .cpye => true
  | .bind _ => true
  | .unbind _ => true
  | _ => false

/-- CQRY (R347): the owner's write of a flag. -/
def execCqry (flag : FReg) (mask : BitVec 16) (s : State) : Out :=
  let busy := s.cc.copies.any fun y =>
    y.ctx == s.cur.ctx.toNat && y.op.queried && (mask == 0 || inMask mask y.cls)
  .next (s.setFlag s.cur.cl.toNat s.cur.ctx.toNat flag.toNat !busy)

/-- RWIN (R349): its checks are made at completion. -/
def execRwin (sw : Bool) (hc : BitVec 2) (len : BitVec 25) (wid : BitVec 2) (flag : Option FReg) (s : State) : Out :=
  if s.queueFull then .next (s.stall .retry)
  else .next (s.queueJob (s.newJob (.rwin len.toNat wid.toNat) (s.desc sw hc) 0 .none flag) [] (swapOf sw hc))

/-! ## COPY_DISPATCH and COPY_COMPLETE (R337, R339 to R342, R468, R469) -/

def CopyOp.kind? : CopyOp → Option CpyKind
  | .cpy => some .cpy
  | .cpyc => some .cpyc
  | .cpyt => some .cpyt
  | .cpye => some .cpye
  | _ => none

/-- Is a job the first of its context in the queue (R337)? -/
def State.jobFirst (s : State) (k : Nat) (y : Copy) : Bool :=
  !((s.cluster k).copies.takeWhile fun z => z.id != y.id).any fun z => z.ctx == y.ctx && !z.op.isGalley

/-- May a job's accesses begin: no earlier FENCE, LDA or ordering point holds its class (R188, R190, R192, R197)? -/
def State.jobFree (s : State) (y : Copy) : Bool :=
  (!y.owed || s.owedFree y.bnd.launch y.bnd.group) && s.accs.all fun b => !(b.ofGroup y.bnd && b.id < y.id && b.eng == 0) ||
    (if b.op = .fence then !s.fenceHolds b y.stores.cls
     else b.over || !(match b.acq with
       | some (_, m) => inMask m y.stores.cls
       | none => false))

/-- Does the range scoreboard hold back a job: any earlier entry over one of its own (R171)? -/
def Cluster.jobBlocked (c : Cluster) (id : Nat) : Bool :=
  (c.rsb.filter fun e => e.who == id).any fun e => c.rangeBefore e.space e.lo e.hi id false

/-- Does a range of physical local bytes overlap a local store of context c, of an earlier number, that is held, or released
and not performed yet (R197, R337)? -/
def State.heldMeets (s : State) (k c id lo hi : Nat) : Bool :=
  s.accs.any fun a => (a.heldBy k c || a.cl == k && a.ctx == c && a.loc && a.isStore && !a.over) && a.id < id && match a.tr with
    | .ok p 3 => p < hi && lo < p + a.len
    | _ => false

/-- Does a local source of a copy, CPYE's metadata among them, overlap a held write of the context (R337, R342)? -/
def State.heldOver (s : State) (k : Nat) (y : Copy) : Bool :=
  ((s.cluster k).rsb.any fun e => e.who == y.id && e.space == 1 && !e.write && s.heldMeets k y.ctx y.id e.lo e.hi) ||
    (y.op == .cpye && metaSpace y.desc == 1 &&
      let lo := y.bnd.localPhys (descBits y.desc 7 0 64)
      s.heldMeets k y.ctx y.id lo (lo + metaBytes y.desc))

/-- Do two ranges of one space overlap (R336, R339)? -/
def rangesMeet (sp1 : Nat) (lo1 hi1 : Int) (sp2 : Nat) (lo2 hi2 : Int) : Bool :=
  sp1 == sp2 && decide (lo1 < hi2) && decide (lo2 < hi1)

/-- Does R340 allow the overlap, as a conversion in place? -/
def inPlace (d : List Word) : Bool :=
  let ds := typeSize (descBits d 6 4 4)
  descBits d 0 0 64 == descBits d 1 0 64 && descBits d 2 50 2 == descBits d 2 52 2 && ds ≤ descEsz d &&
    descInt d 3 0 == descEsz d && descInt d 4 0 == ds && descBits d 2 16 32 == 0

/-- Is a copy refused for its overlap (R469)? (DEDUCED, log 41) -/
def copyRefused (n : CpyKind) (d : List Word) : Bool :=
  let p := srcPattern d
  let q := n.dst d
  let meet := rangesMeet p.space p.lo p.hi q.space q.lo q.hi
  let m : Int := descBits d 7 0 64
  match n with
  | .cpy => false
  | .cpyc => meet && !inPlace d
  | .cpyt => meet
  | .cpye => meet || rangesMeet (metaSpace d) m (m + metaBytes d) p.space p.lo p.hi ||
      rangesMeet (metaSpace d) m (m + metaBytes d) q.space q.lo q.hi

def CpyKind.code : CpyKind → Nat
  | .cpyc => 1
  | .cpyt => 2
  | .cpye => 3
  | .cpy => 0

/-- Bit i of CPYE's metadata; blocks present in the zero-block mode (R342). -/
def metaBit (m : List Byte) (i : Nat) : Bool := (m.getD (i / 8) 0).getLsbD (i % 8)
def metaBlocks (d : List Word) (m : List Byte) : List Bool :=
  (List.range ((descBits d 2 0 16 + 1) * descEsz d / 32)).map (metaBit m)

/-- The segments of CPYE's metadata (R342). -/
def metaSegs (d : List Word) : List (Nat × Nat) := segsRange (descBits d 7 0 64) (metaBytes d)

/-- Source segments of a copy; CPYE's follow its metadata (R336, R342). -/
def sourceSegs (n : CpyKind) (d : List Word) (m : List Byte) : List (Nat × Nat) :=
  let p := srcPattern d
  match n with
  | .cpye =>
    if descBits d 6 10 2 = 1 then segsRange p.base (p.c0 / 2 * p.esz)
    else segsRange p.base (32 * ((metaBlocks d m).filter id).length)
  | _ => segsOf p.esz (p.addrs 0 p.count)

/-! ### Conversions (R340, R342) -/

/-- A numeric type of R335's codes: an integer with its width and whether natural, or a float. -/
def typeFmt (t : Nat) : Option Fmt := if t < 8 then none else [Fmt.f32, .f16, .bf16, .e4m3, .e5m2][t - 8]?

/-- One element converted (R340). -/
def convElem (st dt : Nat) (rm : Rm) (x : Nat) : Nat × Flags :=
  match typeFmt st, typeFmt dt with
  | some f, some g => convert f g rm x
  | some f, none =>
    let r := floatToInt f (8 * typeSize dt) (decide (4 ≤ dt)) rm x
    (r.1.toNat, r.2)
  | none, some g => intToFloat g rm (if 4 ≤ st then x else toSigned (8 * typeSize st) x)
  | none, none =>
    let c := saturate (8 * typeSize dt) (decide (4 ≤ dt)) (if 4 ≤ st then x else toSigned (8 * typeSize st) x)
    ((wrap (8 * typeSize dt) c.1).toNat, flagIf c.2 flagSI)

/-- Elements of n bytes of a byte list. -/
def chunks (n : Nat) (bs : List Byte) : List Nat :=
  (List.range (bs.length / n)).map fun i => ofBytes ((bs.drop (i * n)).take n)

/-- One 2:4 group: its four elements, or a malformed one (R342). -/
def expandGroup (nib a b : Nat) : List Nat × Bool :=
  let i0 := nib % 4
  let i1 := nib / 4
  if i0 < i1 then ((List.range 4).map fun i => if i = i0 then a else if i = i1 then b else 0, false)
  else ([0, 0, 0, 0], true)

/-- CPYE's expansion: destination bytes and CSTAT bits (R342). -/
def expand (d : List Word) (m : List Byte) (bs : List Byte) : List Byte × Flags :=
  let e := descEsz d
  if descBits d 6 10 2 = 1 then
    let s := chunks e bs
    let gs := (List.range ((descBits d 2 0 16 + 1) / 4)).map fun g =>
      expandGroup (bitsAt (m.getD (g / 2) 0).toNat (4 * (g % 2)) 4) (s.getD (2 * g) 0) (s.getD (2 * g + 1) 0)
    ((gs.map (fun g => (g.1.map (toBytes e)).flatten)).flatten, flagIf (gs.any (·.2)) 0x80)
  else
    (((metaBlocks d m).foldl (fun (t : List Byte × List Byte) b =>
      if b then (t.1 ++ t.2.take 32, t.2.drop 32) else (t.1 ++ List.replicate 32 0, t.2)) ([], bs)).1, 0)

/-- RM of a descriptor. -/
def descRm (d : List Word) : Rm :=
  match descBits d 6 8 2 with
  | 0 => .rne
  | 1 => .rz
  | 2 => .ru
  | _ => .rd

/-- The bytes a copy writes, in pattern order, with its CSTAT bits. -/
def copyBytes (n : CpyKind) (d : List Word) (m bs : List Byte) : List Byte × Flags :=
  match n with
  | .cpyc =>
    let st := descBits d 6 0 4
    let dt := descBits d 6 4 4
    let rs := (chunks (descEsz d) bs).map (convElem st dt (descRm d))
    ((rs.map fun r => toBytes (typeSize dt) r.1).flatten, rs.foldl (fun f r => f ||| r.2) 0 &&& 0xBD)
  | .cpye => expand d m bs
  | _ => (bs, 0)

/-- Destination segments in pattern order. -/
def destSegs (n : CpyKind) (d : List Word) : List (Nat × Nat) :=
  let q := n.dst d
  segsOf q.esz (q.addrs 0 q.count)

/-- A list of reads starts: a missing granule is asked for first; a poison mark or a failed granule abandons (R162,
R468, R480). -/
def State.beginReads (s : State) (k : Nat) (y : Copy) (sp : Nat) (segs : List (Nat × Nat)) (st : CopySt) : State :=
  match s.needGranule k y.bnd sp segs false with
  | some (r, i) => s.askGranule k r i y.bnd.tenant false true
  | none =>
    match s.badSeg k y.bnd sp segs false with
    | some va => s.abandon k y va
    | none =>
      let t := s.startReads k y sp segs
      let s1 := t.2.modJob k y.id fun z => { z with st := st, parts := t.1 }
      if t.1.all fun p => p.1 == 0 then s1.soon [({ y with st := st }).move k] else s1

/-- The location that a far byte names, through the stash too; none for a local or a tile byte of its own (R339). -/
def State.vspot (s : State) (k : Nat) (b : Binding) (sp a : Nat) : Option (Nat × Nat) :=
  match s.stashOf k b sp a with
  | some (r, off) => some (s.granSpot k (r * 2 ^ 17 + off))
  | none =>
    if sp ≠ 0 then none
    else match (s.xlate k b.asid a .read).1 with
      | .ok p 0 => some (0, s.linear p)
      | .ok p m => some (m, p)
      | _ => none

/-- The bytes of ys, by address, that segments xs name by another address (R339). -/
def State.aliased (s : State) (k : Nat) (b : Binding) (sp1 : Nat) (xs : List (Nat × Nat)) (sp2 : Nat) (ys : List (Nat × Nat)) :
    List Nat :=
  let ps := xs.filterMap fun x => (s.vspot k b sp1 x.1).map fun p => (p, x)
  (ys.map fun y => match s.vspot k b sp2 y.1 with
    | none => []
    | some q => ((List.range y.2).filter fun i => ps.any fun e =>
        e.1.1 == q.1 && e.1.2 ≤ q.2 + i && q.2 + i < e.1.2 + e.2.2 &&
          !(sp1 == sp2 && e.2.1 + (q.2 + i - e.1.2) == y.1 + i)).map fun i => y.1 + i).flatten

/-- The bytes of segments in order, those at listed addresses free. -/
def State.freeAt (s : State) (segs : List (Nat × Nat)) (bs : List Byte) (free : List Nat) : List Byte × State :=
  if free.isEmpty then (bs, s)
  else ((segAddrs segs).zip bs).foldl (fun t e =>
    if free.contains e.1 then let r := t.2.freshBits 8; (t.1 ++ [r.1], r.2) else (t.1 ++ [e.2], t.2)) ([], s)

/-- The writes of a copy begin once its source has been read; a byte of one side that the other names by another address is
undefined (R339). -/
def State.beginWrites (s : State) (k : Nat) (y : Copy) (n : CpyKind) (bs : List Byte) : State :=
  let p := (srcPattern y.desc).space
  let q := n.dst y.desc
  let from' := sourceSegs n y.desc y.mdata
  let segs := destSegs n y.desc
  match s.needGranule k y.bnd q.space segs true with
  | some (r, i) => s.askGranule k r i y.bnd.tenant true true
  | none =>
    match s.badSeg k y.bnd q.space segs true with
    | some va => s.abandon k y va
    | none =>
      let x := s.freeAt from' bs (s.aliased k y.bnd q.space segs p from')
      let w := copyBytes n y.desc y.mdata x.1
      let z := x.2.freeAt segs w.1 (s.aliased k y.bnd p from' q.space segs)
      let s1 := (z.2.dropJobAccs y.id).modJob k y.id fun z => { z with st := .writing, parts := [], cstat := w.2 }
      (s1.startWrites k y q.space segs z.1).soon [.copyComplete (.ofNat 9 k) y.id]

/-- COPY_DISPATCH: a queued copy starts, is refused for its overlap, or goes on to its writes (R337, R339, R469)
(DEDUCED, log 7). -/
def execCopyDispatch (k : ClusterNo) (n : Nat) (s : State) : Out :=
  if s.nclus ≤ k.toNat then noUnit else
  match s.job? k.toNat n with
  | none => .next s
  | some y =>
    match y.op.kind? with
    | none => .next s
    | some c =>
      match y.st with
      | .queued =>
        if !s.jobFirst k.toNat y || !s.jobFree y || (s.cluster k.toNat).jobBlocked n || s.heldOver k.toNat y ||
            !s.runs k.toNat then .next s
        else if copyRefused c y.desc then
          .next (((s.logErr ⟨0x0034, 2, k.toNat, y.bnd.handle, y.bnd.group, 1, 0, .ofNat 192 c.code⟩).jobFault k.toNat y
            0).retireJob k.toNat y)
        else if c = .cpye then
          .next (s.beginReads k.toNat y (metaSpace y.desc) (metaSegs y.desc) .metadata)
        else .next (s.beginReads k.toNat y (srcPattern y.desc).space (sourceSegs c y.desc []) .reading)
      | .metadata =>
        match s.collect y (metaSegs y.desc) with
        | none => .next s
        | some m =>
          let y' := { y with mdata := m }
          .next (((s.dropJobAccs n).modJob k.toNat n fun z => { z with mdata := m, parts := [] }).beginReads k.toNat y'
            (srcPattern y.desc).space (sourceSegs c y.desc m) .reading)
      | .reading =>
        match s.collect y (sourceSegs c y.desc y.mdata) with
        | none => .next s
        | some bs => .next (s.beginWrites k.toNat y c bs)
      | .writing => .next s

/-- COPY_COMPLETE: every write performed: CSTAT, the flag, the entries (R339, R348). -/
def execCopyComplete (k : ClusterNo) (n : Nat) (s : State) : Out :=
  if s.nclus ≤ k.toNat then noUnit else
  match s.job? k.toNat n with
  | none => .next s
  | some y =>
    if y.st ≠ .writing ∨ y.op.kind? = none ∨ s.jobDone n = false then .next s
    else
      .next ((s.groupCstat k.toNat y.ctx y.bnd (BitVec.allOnes 32) y.cstat).retireJob k.toNat y)

/-- ENGINE_ACCESS_ABANDON: an access of a job has met a fault or a refusal; what is left of the job waits for a locked line
(R220, R466, R468, R470) (DEDUCED, log 44). -/
def execEngineAccessAbandon (n : Nat) (s : State) : Out :=
  match s.accs.find? fun a => a.ofJob n && a.st == .refused with
  | none => .next s
  | some a =>
    match s.job? a.cl n with
    | none =>
      -- A write that its job did not wait for any more: ENGINE, like a fault past it.
      .next ((s.groupFault a.cl a.ctx a.bnd ⟨a.tcause 0x0025, a.tinfo, true, n, none, false⟩).dropJobAccs n)
    | some y => if s.tearFree n then .next (s.abandon a.cl y a.va) else .next s

/-! ## GALLEY_FILL (R168, R169) -/

/-- Elements per entry. -/
def Pattern.perEntry (p : Pattern) : Nat := 128 / p.esz

/-- A galley's next read or write of one entry starts. -/
def State.startGalley (s : State) (k g : Nat) (x : Galley) : State :=
  let b := (s.ctx k x.ctx).bnd
  let n := min x.pat.perEntry (x.pat.count - x.pos)
  let y : Copy :=
    { id := s.nextId, ctx := x.ctx, bpc := x.bpc, op := .gfill g s.nextId, desc := [], cls := x.cls, hint := x.hint,
      flag := none, st := .queued, parts := [], mdata := [], cstat := 0, gspace := x.pat.space,
      gaddrs := x.pat.addrs x.pos n, gesz := x.pat.esz, bnd := b, owed := false, due := 0 }
  let put (y : Copy) (f : Galley → Galley) : State :=
    { s.modCluster k fun c =>
        { c with copies := c.copies ++ [y], galleys := c.galleys.map fun e => if e.1 = g then (g, f e.2) else e } with
      nextId := s.nextId + 1 }
  match x.kind with
  | .rd => if n = 0 ∨ 8 ≤ x.q.length then s else put y fun e => { e with pos := e.pos + n, q := e.q ++ [(y.id, none)] }
  | .wr =>
    match x.q with
    | (tag, some v) :: _ =>
      { s.modCluster k fun c => { c with copies := c.copies ++ [{ y with id := tag, op := .gstore g v }] } with
        nextId := s.nextId + 1 }
    | _ => s
  | .ldx => s

/-- A galley's job goes on: reads, or writes. -/
def State.stepGalley (s : State) (k : Nat) (y : Copy) : State :=
  let segs := segsOf y.gesz y.gaddrs
  match y.op, y.st with
  | .gfill _ tag, .reading =>
    match s.collect y segs with
    | none => s
    | some bs => (s.fillGalley k tag (.ofNat 1024 (ofBytes bs))).retireJob k y
  | .gfill g _, _ =>
    -- A local source is read after every earlier local store (R197).
    let late := y.gspace == 1 && segs.any fun z =>
      s.heldMeets k y.ctx ((((s.cluster k).galleys.lookup g).map Galley.id).getD 0) (y.bnd.sidePhys 1 z.1) (y.bnd.sidePhys 1 z.1 + z.2)
    if s.jobFree y && !late then s.beginReads k y y.gspace segs .reading else s
  | .gstore g _, .writing =>
    if s.jobDone y.id then
      ((s.modCluster k fun c => c.mapGalleys fun g => g.popTag y.id y.gaddrs.length).retireJob k y).soon
        [.galleyFill (.ofNat 9 k) (.ofNat 4 g)]
    else s
  | .gstore _ v, _ =>
    if !s.jobFree y then s
    else match s.needGranule k y.bnd y.gspace segs true with
      | some (r, i) => s.askGranule k r i y.bnd.tenant true true
      | none =>
        match s.badSeg k y.bnd y.gspace segs true with
        | some va => s.abandon k y va
        | none =>
          ((s.modJob k y.id fun z => { z with st := .writing }).startWrites k y y.gspace segs (vbytes v)).soon [y.move k]
  | _, _ => s

/-- Does a BIND still unbind the galley that its own has taken the place of (R343)? -/
def Cluster.unbinding (c : Cluster) (g : Nat) : Bool :=
  c.copies.any fun y => match y.op with
    | .bind (some _) => descBits y.desc 0 0 64 == g
    | _ => false

/-- GALLEY_FILL: the engine fills a read galley's next entry, or stores a write galley's oldest (R168). -/
def execGalleyFill (k : ClusterNo) (g : GalleyNo) (s : State) : Out :=
  if s.nclus ≤ k.toNat then noUnit else
  let mine (y : Copy) : Bool := match y.op with
    | .gfill h _ => h == g.toNat
    | .gstore h _ => h == g.toNat
    | _ => false
  match (s.cluster k.toNat).copies.find? mine with
  | some y => .next (s.stepGalley k.toNat y)
  | none =>
    match (if s.runs k.toNat && !(s.cluster k.toNat).unbinding g.toNat then (s.cluster k.toNat).galleys.lookup g.toNat else none) with
    | none => .next s
    | some x =>
      let s1 := s.startGalley k.toNat g.toNat x
      match (s1.cluster k.toNat).copies.find? mine with
      | some y => .next (s1.stepGalley k.toNat y)
      | none => .next s1

/-! ## ENGINE_OP_COMPLETE (R161, R343 to R346, R349) -/

/-- The stores of a galley being unbound: one entry is stored, the rest wait; a read or LDX galley's entries go. -/
def State.drainGalley (s : State) (k : Nat) (y : Copy) (x : Galley) (set : Galley → CopyOp) : Option State :=
  match x.kind, x.q with
  | .wr, [] => some s
  | .wr, (_, none) :: _ => none
  | .wr, (tag, some v) :: rest =>
    if (s.job? k tag).isSome then none
    else if y.st = .writing then
      if s.jobDone y.id then
        let n := min x.pat.perEntry (x.pat.count - x.pos)
        some ((s.dropJobAccs y.id).modJob k y.id fun z =>
          { z with st := .queued, op := set { x with q := rest, pos := x.pos + n } })
      else none
    else
      let segs := segsOf x.pat.esz (x.pat.addrs x.pos (min x.pat.perEntry (x.pat.count - x.pos)))
      match s.needGranule k y.bnd x.pat.space segs true with
      | some (r, i) => some (s.askGranule k r i y.bnd.tenant true true)
      | none =>
        match s.badSeg k y.bnd x.pat.space segs true with
        | some va => some (s.abandon k y va)
        | none => some ((s.modJob k y.id fun z => { z with st := .writing }).startWrites k y.stores x.pat.space segs (vbytes v))
  | _, _ => some s

/-- BIND and UNBIND complete when the galley they unbind is drained (R343). -/
def State.completeUnbind (s : State) (k : Nat) (y : Copy) (old : Option Galley) (set : Galley → CopyOp) : State :=
  match old with
  | none => s.retireJob k y
  | some x =>
    if x.kind = .wr ∧ !x.q.isEmpty then
      match s.drainGalley k y x set with
      | some s1 => if y.st = .writing ∨ s1.jobDone y.id then s1.soon [y.move k] else s1
      | none => s
    else s.retireJob k y

/-- Undefined contents of a region reshaped (R161). -/
def State.reshaped (s : State) (k r : Nat) (mode : RegMode) : State :=
  let old := (s.cluster k).region r
  if old.mode = .plain ∧ mode = .plain then s
  else
    let f := s.freshStore
    f.2.modCluster k fun c => c.modRegion r fun x => { x with mode := mode, store := f.1, map := none, gran := [], lines := [] }

/-- Are accesses of a region that have issued still to be performed: its local ones, held writes among them, those that its
stash serves, and far ones of the context that a CACHE region may serve (R161)? (DEDUCED, log 45) -/
def State.regionPending (s : State) (k : Nat) (rs : List Nat) (y : Copy) : Bool :=
  s.accs.any fun a => a.cl == k && a.id < y.id && !a.over &&
    ((match a.tr with
      | .ok p 3 => rs.contains (p / 2 ^ 17)
      | _ => false) ||
    (a.ctx == y.ctx && a.st != .held && a.cacheable && (s.cacheOf k a.ctx a.va).any rs.contains))

/-- RESHAPE's steps (R161): its regions are written back and dropped, its mapping goes, and after 64 + 2·d cycles, in which
they block their accesses, it has the new mode. -/
def State.completeReshape (s : State) (k : Nat) (y : Copy) (r : Nat) (mode : RegMode) : State :=
  let old := ((s.cluster k).region r).mode
  let rs := r :: (if (old = .cache) ≠ (mode = .cache) then (s.cacheRegions k y.ctx).filter fun x => x != r else [])
  if y.st = .writing then (if s.cycle < y.due then s else (s.reshaped k r mode).retireJob k y)
  else if (s.cluster k).jobBlocked y.id || s.regionPending k rs y then s
  else
    let d := (rs.map fun x => ((s.cluster k).region x).dirtyLines.length).sum
    match rs.foldl (fun t x => t.bind fun s => s.drainRegion k y x false) (some s) with
    | some s1 =>
      (s1.modCluster k fun c => c.modRegion r fun x => { x with map := none }).modJob k y.id fun z =>
        { z with st := .writing, gaddrs := rs, due := s.cycle + 64 + 2 * d }
    | none => s

/-- The linear line, and the bytes of it, of each part of a range of physical addresses. -/
def State.linLines (s : State) (base len : Nat) : List (Nat × Nat × Nat) :=
  (List.range ((base + len - 1) / 256 + 1 - base / 256)).map fun i =>
    let a := max base ((base / 256 + i) * 256)
    let e := min (base + len) ((base / 256 + i + 1) * 256)
    (s.linear a / 256, a % 256, a % 256 + (e - a))

/-- Do two ranges name a common byte, through either alias (R156, R349)? -/
def State.aliasMeet (s : State) (b1 l1 b2 l2 : Nat) : Bool :=
  let xs := s.linLines b2 l2
  (s.linLines b1 l1).any fun x => xs.any fun z => x.1 == z.1 && x.2.1 < z.2.2 && z.2.1 < x.2.2

/-- fx of an FP32 value, in units of 2^−60, and the sticky bits NAN, PINF, NINF, OVF (R178). -/
def fxOf (x : Nat) : Int × Bool × Bool × Bool × Bool :=
  match Fmt.f32.decode x with
  | .nan .. => (0, true, false, false, false)
  | .inf sg => (0, false, !sg, sg, false)
  | .fin sg m e =>
    let r := roundAt .rz sg m (e + 60) false 0
    let big := decide (127 ≤ (bitLen m : Int) + (e + 60) - 1) && m != 0
    if big then (0, false, false, false, true) else (if sg then -(r.1 : Int) else r.1, false, false, false, false)

/-- A shadow after an addend (R178). -/
def Shadow.add (h : Shadow) (x : Nat) : Shadow :=
  let f := fxOf x
  ⟨h.s + .ofInt 128 f.1, h.nan || f.2.1, h.pinf || f.2.2.1, h.ninf || f.2.2.2.1, h.ovf || f.2.2.2.2⟩

def Shadow.zero : Shadow := ⟨0, false, false, false, false⟩

/-- RWST of an opening RWIN, in the order of R349; 0 when it opens. -/
def State.rwinStatus (s : State) (sp base len : Nat) : Nat :=
  let within := match s.window base, s.window (base + len - 1) with
    | some .linear, some .linear => true
    | some .interleaved, some .interleaved => true
    | _, _ => false
  if sp ≠ 3 ∨ base % 4 ≠ 0 ∨ within = false then 4
  else if s.forme.windows.any fun w => s.aliasMeet base len w.base w.len then 3
  else if 4 ≤ s.forme.windows.length then 1
  else if 2 ^ 26 < s.forme.windows.foldl (fun n w => n + w.len) 0 + len then 2
  else 0

/-- The first window number not in use. -/
def State.freeWid (s : State) : Nat :=
  ((List.range 4).find? fun w => !s.forme.windows.any fun x => x.wid == w).getD 0

/-- The window opened: each shadow takes fx of its element (R178). -/
def State.openWindow (s : State) (launch base len : Nat) : State :=
  let s1 := s.takeBack base len true
  let sh := (List.range (len / 4)).map fun i => (base + 4 * i, Shadow.zero.add (ofBytes (s1.physRead (base + 4 * i) 4)))
  s1.modForme fun m =>
    { m with windows := m.windows ++ [⟨s.freeWid, launch, base, len, sh.filter fun e => e.2 != Shadow.zero⟩] }

/-- RWST and RWID of CSTAT. -/
def State.putRwin (s : State) (k : Nat) (y : Copy) (st : Nat) (wid : Option Nat) : State :=
  match wid with
  | some w => s.groupCstat k y.ctx y.bnd (~~~(0x3700 : BitVec 32)) (.ofNat 32 (st * 2 ^ 8 + w * 2 ^ 12))
  | none => s.groupCstat k y.ctx y.bnd (~~~(0x700 : BitVec 32)) (.ofNat 32 (st * 2 ^ 8))

/-- RWIN's completion (R349). -/
def State.completeRwin (s : State) (k : Nat) (y : Copy) (len wid : Nat) : State :=
  if len = 0 then
    if s.forme.windows.any fun w => w.wid == wid && w.launch == y.bnd.launch then
      ((s.modForme fun m => { m with windows := m.windows.filter fun w => w.wid != wid }).putRwin k y 0
        (some wid)).retireJob k y
    else (s.putRwin k y 5 none).retireJob k y
  else
    let base := descBits y.desc 0 0 64
    let st := s.rwinStatus (descBits y.desc 2 50 2) base (4 * len)
    if st ≠ 0 then (s.putRwin k y st none).retireJob k y
    else if !s.agentFree base (4 * len) then s
    else match s.reclaimAll (s.linesOf base (4 * len)) none true with
      | none => s
      | some s1 => ((s1.openWindow y.bnd.launch base (4 * len)).putRwin k y 0 (some s.freeWid)).retireJob k y

/-- ENGINE_OP_COMPLETE: BIND's unbinding, UNBIND, RESHAPE, STASH, CWB or RWIN completes and sets its flag (R338). -/
def execEngineOpComplete (k : ClusterNo) (n : Nat) (s : State) : Out :=
  if s.nclus ≤ k.toNat then noUnit else
  match s.job? k.toNat n with
  | none => .next s
  | some y =>
    if !s.jobFirst k.toNat y || !s.jobFree y || !s.runs k.toNat then .next s
    else match y.op with
      | .bind old => .next (s.completeUnbind k.toNat y old fun g => .bind (some g))
      | .unbind old => .next (s.completeUnbind k.toNat y old fun g => .unbind (some g))
      | .reshape r mode => .next (s.completeReshape k.toNat y r mode)
      | .stash r base =>
        match (if ((s.cluster k.toNat).region r).map.isSome then s.drainRegion k.toNat y r false else some s) with
        | some s1 =>
          .next ((s1.modCluster k.toNat fun c => c.modRegion r fun x => { x with map := some (base, y.bnd.asid), hint := y.hint }).retireJob
            k.toNat y)
        | none => .next s
      | .cwb r keep =>
        match s.drainRegion k.toNat y r keep with
        | some s1 => .next (s1.retireJob k.toNat y)
        | none => .next s
      | .rwin len wid => .next (s.completeRwin k.toNat y len wid)
      | _ => .next s

end Sys2Proof.Machine
end

