-- ==== Sys2Proof/Machine/Home.lean ====
section
/-!
DEFINITION. The home of a line: a slice's lines, their replacement, fills and events (R155, R157, R158, R208 to R215),
accesses performed in coherence order (R181 to R185, R194 to R196, R200, R201, R466), and what returns to the clusters
(R222, R315, R323, R446).
-/
namespace Sys2Proof.Machine

/-! ## Lines of a slice (R157, R220) -/

/-- The victim of a set for a request: the way of lowest position that is neither locked, kept from it by a VETO nor awaiting
its fill. -/
def Slice.victim (x : Slice) (l id : Nat) : Option Line :=
  (x.lines.filter fun e => setOfLine e.line == setOfLine l && !e.filling && !e.vetoed.contains id && !x.locked e.line).foldl
    (fun o e => match o with
      | some y => if e.pos < y.pos then some e else some y
      | none => some e) none

/-- Bytes of a line. -/
def Line.bytes (e : Line) : List Byte := toBytes 256 e.data.toNat

/-- Write a line back to the channel. -/
def State.writeDram (s : State) (a : Nat) : List Byte → State
  | [] => s
  | b :: bs => (s.setDram a b).writeDram (a + 1) bs

/-- The channel's mark of a line after the slice's copy of it, the whole line, is written back: that of the copy (R479,
R480). -/
def State.dramMark (s : State) (e : Line) : State :=
  if e.poison then { s with memPoison := if s.memPoison.contains e.line then s.memPoison else s.memPoison ++ [e.line] }
  else { s with memPoison := s.memPoison.filter fun l => l != e.line }

/-- A cache line is written back if dirty, its poison mark with it (R480). -/
def State.cleanLine (s : State) (h : Nat) (e : Line) : State :=
  let s2 := if e.dirty then (s.writeDram (e.line * 256) e.bytes).dramMark e
    else if e.poison then s.dramMark e else s
  s2.modSlice h fun x => x.modLine e.line fun y => { y with dirty := false }

/-- The default action of an eviction: the line is written back if dirty, then dropped (R211). -/
def State.evictLine (s : State) (h : Nat) (e : Line) : State :=
  (s.cleanLine h e).modSlice h fun x => { x with lines := x.lines.filter fun y => y.line != e.line }

/-- Has the eviction for a request in a line's set been vetoed (R211)? -/
def Slice.vetoedIn (x : Slice) (line id : Nat) : Bool :=
  x.lines.any fun e => setOfLine e.line == setOfLine line && e.vetoed.contains id

/-- The eviction for a request has ended: its VETO is over (R211). -/
def Slice.endVeto (x : Slice) (line id : Nat) : Slice :=
  let rest := mapIf (fun e => setOfLine e.line == setOfLine line) (fun e => { e with vetoed := e.vetoed.filter (· != id) }) x.lines
  { x with lines := rest }

/-! ## Tenants and events (R207 to R214) -/

/-- The tenant's descriptor (R207), and a range of it (R208). -/
def State.tenantDesc (s : State) (t : Nat) : BitVec 64 := sget 0 s.forme.tenants t

/-- The address class of a linear address for a tenant; a limit is the first address beyond its range (log 25). -/
def State.addrClass (s : State) (t lin : Nat) : Nat :=
  (([1, 2, 3] : List Nat).find? fun n =>
    let r := sget (0, 0, false) s.forme.ranges (4 * t + n)
    r.2.2 && r.1 ≤ lin && lin < r.2.1).getD 0

/-- The handler of an event: its budget and entry point; none where no handler runs (R209, R210). -/
def State.handlerFor (s : State) (h t ev cls : Nat) : Option (Nat × Nat) :=
  let e := sget 0 (s.slice h).table (16 * t + 4 * ev + cls)
  let bud := bitsAt e.toNat 32 13
  if e.getLsbD 63 && bitsAt (s.tenantDesc t).toNat 48 8 != 0 && (ev == 3 || cls != 0) then
    some (if 64 ≤ bud ∧ bud ≤ 4096 then bud else 64, bitsAt e.toNat 0 16)
  else none

/-- Count an event in the slice's log and append its record (R478): 0 ABORT, 1 FAULT, 2 QFULL, 3 RDROP. -/
def State.countSlice (s : State) (h t what code addr detail : Nat) : State :=
  (s.modSlice h fun x => { x with cnt := sset 0 x.cnt (4 * t + what) (sget 0 x.cnt (4 * t + what) + 1) }).logErr
    ⟨code, 1, h, 0, 0xFFFFFFFF, 1, addr, .ofNat 192 detail⟩

/-- Queue an event; with 64 queued it is counted, and its default action follows at once (R214) (DEDUCED, log 47). -/
def State.raiseEv (s : State) (h : Nat) (e : Ev) : Option State :=
  if (s.slice h).events.length < 64 then
    some ((s.modSlice h fun x => { x with events := x.events ++ [e] }).soon [.handlerDispatch (.ofNat 9 h)])
  else none

def State.queueFullRec (s : State) (h : Nat) (e : Ev) : State :=
  s.countSlice h e.tenant 2 0x0042 e.laddr (e.kind + e.tenant * 16 + e.cls * 256)

/-! ## Requests at the home (R157, R158, R210, R211) -/

/-- A request: its id (an access's, or a stash request's), cluster, tenant, kind of R212, hint, offset, whether it is a
store, and what its MISS event has left. -/
structure Req where
  id : Nat
  cl : Nat
  tenant : Option Nat
  kind : Nat
  asid : Nat
  hint : Hint
  off : Nat
  isStore : Bool
  /-- Requested by a slice's handler; no FILL event. -/
  bySlice : Bool
  noev : Bool
  missDone : Bool
  redirect : Option Nat
deriving DecidableEq, Repr

def Hint.code : Hint → Nat
  | .none => 0
  | .nal => 1
  | .nas => 2
  | .byp => 3

/-- Does a hint allocate in the home slice (R158)? -/
def Hint.inSlice (n : Hint) : Bool := n = .none || n = .nal

/-- An event of a request. -/
def Req.event (r : Req) (kind tenant cls line aux : Nat) (waiters : List Nat) : Ev :=
  { kind := kind, tenant := tenant, cls := cls, laddr := line * 256, reqCl := r.cl, reqSl := r.bySlice, rkind := r.kind,
    asid := if r.kind = 7 ∨ r.kind = 9 then 0 else r.asid, hint := if 7 ≤ r.kind ∧ r.kind ≤ 9 then 0 else Hint.code r.hint,
    off := r.off, aux := aux, rtoken := 0, msg := 0, waiters := waiters }

/-- Room for a line: a way and a position; an EVICT event may have to run first, and a full set may have to wait. After a
VETO the way given up raises no further event (R211). -/
def State.makeRoom (s : State) (h line : Nat) (r : Req) : State × Option (Nat × Nat) :=
  let x := s.slice h
  let set := x.lines.filter fun e => setOfLine e.line == setOfLine line
  if set.length < 16 then
    let ways := (List.range 16).filter fun w => !(set.any fun e => e.way == w)
    let f := s.freshBits 4
    (f.2, some (ways.getD (f.1.toNat % ways.length) 0,
      ((List.range 16).find? fun p => !(set.any fun e => e.pos == p)).getD 0))
  else if x.events.any (fun e => e.kind == 2 && e.waiters.contains r.id) ||
      x.run.any (fun q => q.ev.kind == 2 && q.ev.waiters.contains r.id) then (s, none)
  else match x.victim line r.id with
    | none => (s, none)
    | some v =>
      let gone := ((s.evictLine h v).modSlice h fun y => y.endVeto line r.id, some (v.way, v.pos))
      match (if x.vetoedIn line r.id then none else v.tenant) with
      | none => gone
      | some t =>
        let c := s.addrClass t (v.line * 256)
        if r.bySlice || (s.handlerFor h t 2 c).isNone then gone
        else
          let e := { r.event 2 t c v.line (v.dirty.toNat + (s.heldLine v.line none).toNat * 2) [r.id] with
            rkind := r.kind }
          match s.raiseEv h e with
          | some s1 =>
            (s1.modSlice h fun y => y.modLine v.line fun l => { l with evLock := true }, none)
          | none => ((s.queueFullRec h e).evictLine h v, some (v.way, v.pos))

/-- A fill starts: the line takes a way at the last position and waits for the channel. -/
def State.startFill (s : State) (h line : Nat) (r : Req) : State :=
  match s.makeRoom h line r with
  | (s1, none) => s1
  | (s1, some (way, pos)) =>
    let l : Line := ⟨line, 0, false, way, pos, r.tenant, true, false, false, []⟩
    let f : Fill := ⟨line, [r.id], r.tenant, r.noev, r.bySlice, r.cl, r.bySlice, r.kind, r.asid, Hint.code r.hint, r.off, s.cycle⟩
    s1.modSlice h fun x => ({ x with lines := x.lines ++ [l], fills := x.fills ++ [f] } : Slice).moveTo line 15

/-- Is a MISS event of a line queued or running? -/
def Slice.missing (x : Slice) (line : Nat) : Bool :=
  (x.events.any fun e => e.kind == 0 && e.laddr == line * 256) ||
    x.run.any fun r => r.ev.kind == 0 && r.ev.laddr == line * 256

/-- A request joins the one whose MISS event is queued or runs (R215). -/
def State.joinMiss (s : State) (h line id : Nat) : State :=
  let join (e : Ev) : Ev := if e.kind = 0 ∧ e.laddr = line * 256 ∧ id ∉ e.waiters then { e with waiters := e.waiters ++ [id] } else e
  s.modSlice h fun x => { x with events := x.events.map join, run := x.run.map fun r => { r with ev := join r.ev } }

/-- A request joins a fill in flight. -/
def State.joinFill (s : State) (h line id : Nat) : State :=
  let join (f : Fill) : Fill := { f with waiters := if f.waiters.contains id then f.waiters else f.waiters ++ [id] }
  s.modSlice h fun x => { x with fills := mapIf (fun f => f.line == line) join x.fills }

/-- A request meets its home: the line that serves it, or nothing yet. One for a line whose MISS event is queued or runs joins
the missed request and is served after the event, even when the handler has brought the line in (R158, R210, R211, R215). -/
def State.atHome (s : State) (h line : Nat) (r : Req) : State × Option Nat :=
  let x := s.slice h
  match r.redirect with
  | some l =>
    if (x.line? l).isSome then (if x.locked l then (s, none) else (s.modSlice h fun y => y.moveTo l 15, some l))
    else if x.filling l then (s.joinFill h l r.id, none)
    else (s.startFill h l { r with noev := true }, none)
  | none =>
    if !r.bySlice && !r.missDone && x.missing line then (s.joinMiss h line r.id, none)
    else if (x.line? line).isSome then (if r.isStore then s else s.modSlice h fun y => y.moveTo line 15, some line)
    else if x.filling line then (s.joinFill h line r.id, none)
    else
      let go := if Hint.inSlice r.hint then (s.startFill h line r, Option.none) else (s, some line)
      match r.tenant with
      | none => go
      | some t =>
        let c := s.addrClass t (line * 256)
        if r.missDone || (s.handlerFor h t 0 c).isNone then go
        else
          let e := r.event 0 t c line 0 [r.id]
          match s.raiseEv h e with
          | some s1 => (s1, none)
          | none =>
            let s1 := s.queueFullRec h e
            if Hint.inSlice r.hint then (s1.startFill h line r, none) else (s1, some line)

/-- Try a waiting request again. -/
def State.poke (s : State) (id : Nat) : List Instr :=
  if (s.acc? id).isSome then [.homeAccess id]
  else (s.clusters.filterMap fun c =>
    if c.2.stashReqs.any fun q => q.id == id then some (Instr.stashGranuleFill (.ofNat 9 c.1) id) else none)

/-- CHANNEL_FILL_ARRIVAL: a line's data arrive; a FILL event may hold it before the waiting requests are served (R210,
R215). -/
def execChannelFillArrival (sl : BitVec 9) (line : Nat) (s : State) : Out :=
  let h := sl.toNat
  match (s.slice h).fills.find? fun f => f.line == line with
  | none => .next s
  | some f =>
    let bs := (List.range 256).map fun i => s.dram (line * 256 + i)
    let bad := s.memPoison.contains line
    let s1 := s.modSlice h fun x =>
      { x with
        fills := x.fills.filter fun g => g.line != line,
        lines := mapIf (fun e => e.line == line)
          (fun e => { e with filling := false, data := .ofNat 2048 (ofBytes bs), poison := bad }) x.lines,
        run := x.run.map fun r => if bad then { r with failed := r.failed ++ [line] } else r }
    let serve (s : State) : State := s.soon (f.waiters.map s.poke).flatten
    match f.tenant with
    | none => .next (serve s1)
    | some t =>
      let c := s.addrClass t (line * 256)
      if f.noev || (s.handlerFor h t 1 c).isNone then .next (serve s1)
      else
        let e : Ev := ⟨1, t, c, line * 256, f.reqCl, f.reqSl, f.kind, if f.kind = 7 then 0 else f.asid,
          if f.kind = 7 then 0 else f.hint, f.off, 0, 0, 0, f.waiters⟩
        match s1.raiseEv h e with
        | some s2 => .next (s2.modSlice h fun x => x.modLine line fun l => { l with evLock := true })
        | none => .next (serve (s1.queueFullRec h e))

/-! ## The ends of an access -/

/-- Does a context still hold the group that issued an access? -/
def State.owns (s : State) (a : Access) : Bool :=
  let x := s.ctx a.cl a.ctx
  x.bnd.gen == a.gen && x.bnd.launch == a.launch && x.st != .free && x.st != .binding

/-- Is an access one whose value goes back to its cluster? -/
def Access.returns (a : Access) : Bool :=
  match a.op with
  | .load => true
  | .rfetch => true
  | .cbtake => true
  | _ => false

/-- The job's next move. -/
def State.jobMove (s : State) (a : Access) : List Instr :=
  match s.job? a.cl (a.eng - 1) with
  | some y => [y.move a.cl]
  | none => []

/-- An access has performed: a value returns, an owed write is counted, a job goes on, a write is forgotten; ATOM's
returned value waits for a FENCE (R92, R103, R181). -/
def State.performed (s : State) (a : Access) : State :=
  if a.eng ≠ 0 then
    if (s.job? a.cl (a.eng - 1)).isSome then (s.setAcc a.id fun b => { b with st := .performed }).soon (s.jobMove a)
    else { s with accs := s.accs.filter fun b => b.id != a.id }
  else if a.returns then (s.setAcc a.id fun b => { b with st := .performed }).soon [.farLoadReturn a.id]
  else if a.owed then (s.setAcc a.id fun b => { b with st := .performed }).soon [.owedWritePerformed a.id]
  else match a.dst with
    | .loc p =>
      -- The bytes of RET take the value now, or when the FENCE completes (R6, R92).
      let r := s.freshBits 1
      if r.1 = 1 then { r.2.writeLocal a.cl p (((s.acc? a.id).map (·.data)).getD []) with accs := s.accs.filter fun b => b.id != a.id }
      else r.2.setAcc a.id fun b => { b with st := .performed }
    | _ => { s with accs := s.accs.filter fun b => b.id != a.id }

/-- An access ends with no effect at its destination: a job abandons, a context is told (R466, R468, R470). -/
def State.noEffect (s : State) (a : Access) : State :=
  let s1 := s.setAcc a.id fun b => { b with st := .refused }
  if a.eng ≠ 0 then s1.soon [.engineAccessAbandon (a.eng - 1)] else s1.soon [.destinationFaultReport a.id]

/-- A memory chiplet refuses an access: its refusal log, the module's, and a negative completion (R466). -/
def State.refuse (s : State) (h : Nat) (a : Access) (pa reason : Nat) : State :=
  let e : RefRec := ⟨a.cl, a.ctx, a.handle, a.group, pa, a.cls, reason⟩
  let log := sget [] s.forme.refusals (h / 48)
  let s1 := s.modForme fun m => { m with refusals := sset [] m.refusals (h / 48) ((log ++ [e]).drop (log.length - 63)) }
  (s1.logErr ⟨0x0030, 1, h, a.handle, a.group, 1, pa, .ofNat 192 (reason + a.cl * 2 ^ 32)⟩).noEffect a

/-! ## Performing (R181, R194 to R196, R317, R329) -/

/-- The new value of an ATOM (R195, R329, R330); values of n bytes. -/
def atomNew (op : AtomOp) (n old opnd exp : Nat) : Nat :=
  let m := 2 ^ (8 * n)
  let a := old % m
  let b := opnd % m
  let sg := toSigned (8 * n)
  match op with
  | .add => (a + b) % m
  | .and => Nat.land a b
  | .or => Nat.lor a b
  | .xor => Nat.xor a b
  | .min => if sg a ≤ sg b then a else b
  | .max => if sg b ≤ sg a then a else b
  | .minn => Nat.min a b
  | .maxn => Nat.max a b
  | .swap => b
  | .cas => if a = exp % m then b else a
  | .fadd => (Fmt.f32.add .rne (Fmt.f32.decode a) (Fmt.f32.decode b)).1

/-- Where an access performs. -/
inductive Place where
  | dev (lin : Nat)
  | host (h : Nat)
  | reg (o : Nat)
  /-- A physical local address: a stash granule or a CACHE line. -/
  | loc (phys : Nat)
deriving DecidableEq, Repr

def State.readAt (s : State) (k : Nat) (p : Place) (n : Nat) : List Byte :=
  match p with
  | .dev a => s.homeRead a n
  | .host a => (List.range n).map fun i => s.hostByte (a + i)
  | .reg o => s.regRead o n
  | .loc a => (s.cluster k).locRead a n

def State.hostWrite (s : State) (h : Nat) : List Byte → State
  | [] => s
  | b :: bs => (s.setHostByte h b).hostWrite (h + 1) bs

/-- A performed write wakes the watches (R323). -/
def State.watchers (s : State) : List Instr :=
  s.accs.filterMap fun a => match a.dst with
    | .watch .. => if a.st = .home then some (.waitaddrWake (.ofNat 9 a.cl) (.ofNat 2 a.ctx)) else none
    | _ => none

def State.writeAt (s : State) (k : Nat) (p : Place) (bs : List Byte) : State :=
  let s1 := match p with
    | .dev a =>
      let s1 := s.homeWrite a bs
      if bs.length = 256 then s1.clearPoison (a / 256) else s1
    | .host a => s.hostWrite a bs
    | .reg o => s.regWriteN o bs
    | .loc a => s.writeHere k 1 a bs
  s1.soon s1.watchers

/-- Perform a load, store, ATOM, RED or RFETCH at its place. A context's load sees the context's held writes (R92); what a
launch reads where it has broken R156 is undefined. -/
def State.performAt (s : State) (a : Access) (p : Place) : State :=
  match a.op with
  | .store => (s.writeAt a.cl p a.data).performed a
  | .atom op x e =>
    let old := s.readAt a.cl p a.len
    let r := s.asRead a.launch ((s.spot a).getD (3, 0)) old
    ((r.2.setAcc a.id fun b => { b with data := r.1 }).writeAt a.cl p
      (toBytes a.len (atomNew op a.len (ofBytes old) x.toNat e.toNat))).performed a
  | .red op x =>
    let old := s.readAt a.cl p a.len
    (s.writeAt a.cl p (toBytes a.len (atomNew op a.len (ofBytes old) x.toNat 0))).performed a
  | .rflush => s.performed a
  | .pref => s.performed a
  | _ =>
    let bs := s.readAt a.cl p a.len
    let own := match (if a.eng = 0 ∧ !a.isLdx then s.spot a else none) with
      | some q => s.withHeld a.cl a.ctx a.ord q bs
      | none => bs
    let r := s.asRead a.launch ((s.spot a).getD (3, 0)) own
    match a.dst with
    | .watch .. =>
      -- The watch ends when the bytes differ (R323).
      if r.1 ≠ a.data then (r.2.setAcc a.id fun b => { b with data := r.1 }).performed a
      else r.2.setAcc a.id fun b => { b with st := .home }
    | _ => (r.2.setAcc a.id fun b => { b with data := r.1 }).performed a

/-- Perform an access at a physical local address: a load of a poison-marked unit has no value (R480). -/
def State.performLoc (s : State) (a : Access) (p : Nat) : State :=
  if a.returns && s.locPoisoned a.cl 1 p a.len then s.noEffect a else s.performAt a (.loc p)

/-! ## CACHE regions (R160) -/

/-- A CACHE line is held for writing, no other copy of it being left, and the home records the cluster (R163, R164). -/
def State.lineExcl (s : State) (a : Access) (r : Nat) (l : CLine) : State :=
  (s.modCluster a.cl fun c => c.modRegion r fun x =>
    { x with lines := (x.lines.filter fun y => y == l || y.pline != l.pline).map fun y => if y == l then { y with excl := true } else y }).share
      (s.home (l.pline * 256)) l.gran (chipOf a.cl)

/-- The CACHE line is written. -/
def State.lineDirty (s : State) (k r vline asid : Nat) : State :=
  s.modCluster k fun c => c.modRegion r fun x =>
    { x with lines := mapIf (fun y => y.vline == vline && y.asid == asid) (fun y => { y with dirty := true }) x.lines }

/-- Drop the context's own CACHE line of an address, written back first. -/
def State.dropOwn (s : State) (a : Access) : State :=
  match s.cacheHit a.cl a.ctx a.asid a.va with
  | none => s
  | some (r, l) =>
    let st := ((s.cluster a.cl).region r).store
    let s1 := if l.dirty then s.writeBackLine st l.place (l.pline * 256) else s
    s1.modCluster a.cl fun c => c.modRegion r fun x => { x with lines := x.lines.filter fun y => y != l }

/-- Allocate the line of an access in its CACHE region, filled from its home; a full set gives up a line of its choice
(log 12), but none that it would have to write back to a locked line (R220). The home's directory records the cluster's
chiplet. -/
def State.cacheAlloc (s : State) (a : Access) (h line gran : Nat) (write : Bool) : State :=
  match s.cacheOf a.cl a.ctx a.va with
  | none => s
  | some r =>
    let set := ((s.cluster a.cl).region r).lines.filter fun l => l.vline % 64 == a.va / 256 % 64
    let f := s.freshBits 3
    let used := set.map CLine.way
    let free := (List.range 8).filter fun w => !used.contains w
    let open' := ((List.range 8).filter fun w => !used.contains w || set.any fun l => l.way == w && !(l.dirty && s.lineLocked l.pline))
    let from' := if free.isEmpty then open' else free
    let w := from'.getD (f.1.toNat % from'.length) 0
    if from'.isEmpty then s else
    let reg := ((s.cluster a.cl).region r)
    let s1 := (set.filter fun l => l.way == w).foldl (fun s l =>
      if l.dirty then s.writeBackLine reg.store l.place (l.pline * 256) else s) f.2
    let n : CLine := ⟨a.va / 256, a.asid, line, gran, w, write, write⟩
    let x := s1.fillBytes a.cl r gran line line
    let bs := x.1
    (x.2.modCluster a.cl fun c => c.modRegion r fun x =>
      { x with store := x.store.write n.place bs, lines := (x.lines.filter fun l => !(set.contains l && l.way == w)) ++ [n] }).share
        h gran (chipOf a.cl)

/-! ## HOME_ACCESS -/

/-- The kind of R212. -/
def Access.reqKind (a : Access) : Nat :=
  match a.op with
  | .store => if a.eng ≠ 0 then 3 else 1
  | .atom .. => 5
  | .red .. => 6
  | _ => if a.eng ≠ 0 then 2 else 0

def Access.req (a : Access) (pa : Nat) : Req :=
  { id := a.id, cl := a.cl, tenant := some a.tenant, kind := a.reqKind, asid := a.asid, hint := a.hint, off := pa % 256,
    isStore := a.op == .store, bySlice := false, noev := false, missDone := a.missDone, redirect := a.redirect }

/-- The value of a shadow (R179). -/
def Shadow.value (h : Shadow) : Nat :=
  if h.nan || h.ovf || (h.pinf && h.ninf) then 0x7FC00000
  else if h.pinf then 0x7F800000
  else if h.ninf then 0xFF800000
  else if h.s = 0 then 0
  else (Fmt.f32.round .rne h.s.msb h.s.toInt.natAbs (-60) false).1

/-- The line of device memory that an access waits for. -/
def State.lineOf (s : State) (id : Nat) : Option Nat :=
  (s.acc? id).bind fun a => match a.tr with
    | .ok pa 0 => some (s.linear pa / 256)
    | _ => none
/-- Do earlier accesses, that could perform, wait at the home for the same line (R183, R215)? One that must itself wait
for another access, such as a store of its context released since, holds back none (R184) (DEDUCED, log 83). -/
def State.queued (s : State) (h line id : Nat) : Bool :=
  ((s.slice h).held.takeWhile fun j => j != id).any fun j => s.lineOf j == some line && (s.acc? j).any s.mayPerformAll

def State.wait (s : State) (h id : Nat) : State :=
  (s.setAcc id fun b => { b with st := .home }).modSlice h fun x =>
    { x with held := if x.held.contains id then x.held else x.held ++ [id] }

/-- Leave the queue of waiting accesses; those behind for the line go on (DEDUCED, log 83). -/
def State.leave (s : State) (h line id : Nat) : State :=
  let x := s.slice h
  if x.held.isEmpty then s
  else
    let rest := x.held.filter fun j => j != id
    (s.modSlice h fun y => { y with held := rest }).soon
      ((rest.filter fun j => s.lineOf j == some line).map fun j => .homeAccess j)

/-- Does the memory chiplet refuse an access (R466)? -/
def State.refusal (s : State) (a : Access) (pa : Nat) : Option Nat :=
  let lin := s.linear pa
  let inWin := (List.range a.len).any fun i => (s.windowAt (pa + i)).isSome
  let intRed := match a.op with
    | .red op _ => inWin && (op != .fadd || a.len != 4)
    | _ => false
  if s.forme.reserved.any fun r => lin < r.2 && r.1 < lin + a.len then some 1
  else if intRed = true then some 2
  else if s.linePoison lin && !a.returns && a.len != 256 && (a.isStore && (match a.op with
      | .clean => false | .flush => false | .hmsg _ => false | .cbdone _ => false | _ => true)) then some 3
  else none

/-- The CACHE lines of a cluster that hold an address, with their regions (R332). -/
def State.clusterLines (s : State) (k asid va : Nat) : List (Nat × CLine) :=
  ((s.cluster k).regions.map fun r => (r.2.lines.filter fun l => l.vline == va / 256 && l.asid == asid).map fun l => (r.1, l)).flatten

/-- CLINE.CLEAN and .FLUSH on what the cluster holds (R332); nothing when a writeback must wait: granules are written
back by their virtual addresses (R162). -/
def State.cline (s : State) (a : Access) (drop : Bool) : Option State :=
  let k := a.cl
  match (s.cluster k).stashAt a.asid a.va with
  | some (r, off) =>
    match ((s.cluster k).region r).gran.find? fun g => g.idx == off / 4096 with
    | none => some s
    | some g =>
      let i := off % 4096 / 256
      (s.flushGran k r { g with dirty := if drop then g.dirty else g.dirty &&& BitVec.twoPow 16 i }).map fun s1 =>
        if drop then
          let s2 := s1.modCluster k fun c => c.modRegion r fun x => { x with gran := x.gran.filter fun y => y.idx != g.idx }
          match g.pa with
          | some pa => s2.releaseGran k (pa / 4096)
          | none => s2
        else s1
  | none =>
    let ls := s.clusterLines k a.asid a.va
    if ls.all fun e => !e.2.dirty || !s.lineLocked e.2.pline then
      some (ls.foldl (fun s e =>
        let s1 := if e.2.dirty then s.writeBackLine ((s.cluster k).region e.1).store e.2.place (e.2.pline * 256) else s
        s1.modCluster k fun c => c.modRegion e.1 fun x =>
          if drop then { x with lines := x.lines.filter fun y => y != e.2 }
          else { x with lines := mapIf (fun y => y == e.2) (fun y => { y with dirty := false }) x.lines }) s)
    else none

/-- An ATOM or RED to a location that one has reached by the other alias breaks R156. -/
def State.noteAtom (s : State) (a : Access) (pa : Nat) : State :=
  let inter := decide (0x100000000000 ≤ pa)
  let units := (List.range ((a.len + 3) / 4)).map fun i => s.linear pa / 4 + i
  let line := s.linear pa / 256
  s.modForme fun m => { m with
    broken := if units.any (fun u => m.atoms.contains (u, !inter)) && !m.broken.contains (a.launch, line) then
        m.broken ++ [(a.launch, line)] else m.broken,
    atoms := m.atoms ++ (units.filter fun u => !m.atoms.contains (u, inter)).map fun u => (u, inter) }

/-- What R156 forbids is noted before an access is performed at its home: an alias of a byte that the cluster holds by the
other, an ATOM or RED by another alias than before. -/
def State.noteAlias (s : State) (a : Access) (pa line : Nat) : State :=
  let s1 := s.breakAlias a.launch a.cl (pa / 4096) line
  match a.op with
  | .atom .. => s1.noteAtom a pa
  | .red .. => s1.noteAtom a pa
  | _ => s1

/-- Does a miss of the access allocate a line in the context's CACHE region (R158, R160)? -/
def State.allocates (s : State) (a : Access) (line src : Nat) : Bool :=
  a.cacheable && src == line && (s.cacheOf a.cl a.ctx a.va).isSome

/-- Perform at the device home, once the line that serves it is known and the copies of it are taken back. A NAS store's bytes
are written to the channel, and the line that it allocates is clean (R158). -/
def State.performHome (s : State) (a : Access) (h pa line src : Nat) : State :=
  let s3 := if a.eng = 0 ∧ !a.isLdx then s.dropOwn a else s
  let lin := src * 256 + s3.linear pa % 256
  if a.returns && s3.linePoison lin then s3.noEffect a
  else if s3.allocates a line src && !s3.linePoison lin then
    if a.op = .store ∧ a.hint = .nas then (s3.performAt a (.dev lin)).cacheAlloc a h line (pa / 4096) false
    else
      let s4 := s3.cacheAlloc a h line (pa / 4096) (a.op == .store)
      match s4.cacheHit a.cl a.ctx a.asid a.va with
      | some (r, l) => s4.performAt a (.loc (r * 2 ^ 17 + l.place + a.va % 256))
      | none => s4.performAt a (.dev lin)
  else s3.performAt a (.dev lin)

/-- An access that hits the context's CACHE region is performed there, whatever its home's handlers (R158, R160); a store to
a line that is not held for writing takes the other copies back first. None when it must wait. -/
def State.performCache (s : State) (a : Access) (h line r : Nat) (l : CLine) : Option State :=
  let p := r * 2 ^ 17 + l.place + a.va % 256
  if a.op ≠ .store then some (s.performLoc a p)
  else if l.excl then some ((s.lineDirty a.cl r l.vline l.asid).performLoc a p)
  else if (s.slice h).down || s.lineLocked line then none
  else ((s.reclaim line (some (a.cl, r)) false).bind fun s => s.dirReady h l.gran).map fun s =>
    ((s.lineExcl a r l).lineDirty a.cl r l.vline l.asid).performLoc a p

/-- The access meets its line's home slice (R158): it waits, or the copies of the line, and of the line that serves it, are
taken back, and it is performed (R164, R211). -/
def State.meetHome (s : State) (a : Access) (h pa line : Nat) : State :=
  match s.atHome h line (a.req pa) with
  | (s1, none) => s1.wait h a.id
  | (s1, some src) =>
    let s2 := s1.noteAlias a pa line
    let ready := (s2.reclaimAll [line, src].eraseDups none (a.returns || a.op == .pref)).bind fun t =>
      if t.allocates a line src then t.dirReady h (pa / 4096) else some t
    match ready with
    | some s3 => (s3.performHome a h pa line src).leave h line a.id
    | none => s2.wait h a.id

/-- Do earlier range-scoreboard entries hold back an access to local bytes: for a load a write's, for a store any (R171)? -/
def State.rangeHeld (s : State) (a : Access) (p : Nat) : Bool :=
  (s.cluster a.cl).rangeBefore 1 p (p + a.len) a.id (a.returns || a.op == .pref)

/-- An access that the cluster's stash serves: its granule is asked for, or the access performs there (R162, R171). An LDX
access waits for the pager, a context's faults (R175, R448). -/
def State.homeStash (s : State) (a : Access) (r off : Nat) : State :=
  let write := !a.returns && a.op != .pref
  let eng := a.isLdx || a.eng != 0
  match s.serveStash a.cl r off write eng with
  | .here p => if s.rangeHeld a p then s else s.performLoc a p
  | .granule r i => s.askGranule a.cl r i a.tenant write eng
  | .fault c =>
    ((s.modCluster a.cl fun y => { y with
      stashReqs := y.stashReqs.filter fun q => !(q.region == r && q.idx == off / 4096 && q.eng == eng) }).setAcc
      a.id fun b => { b with tr := .fault c }).accFault a c (if c = 0x22 then some (a.va / 2 ^ 16) else none)
  | _ => s

/-- An access to device memory at its home. -/
def State.homeDevice (s : State) (a : Access) (pa : Nat) : State :=
  let lin := s.linear pa
  let line := lin / 256
  let h := s.home lin
  let win := (s.windowAt pa).isSome
  let read := a.returns || a.op == .pref
  match s.refusal a pa with
  | some n => (s.refuse h a pa n).leave h line a.id
  | none =>
    match (if a.cacheable && !(a.op == .rfetch && win) then
        (s.cacheHit a.cl a.ctx a.asid a.va).bind fun e => if e.2.pline = line then some e else none else none) with
    | some (r, l) =>
      match s.performCache a h line r l with
      | some s1 => s1.leave h line a.id
      | none => s.wait h a.id
    | none =>
    if (s.slice h).down ∨ (s.slice h).locked line ∨ s.queued h line a.id ∨ s.recallFree line none read = false ∨
        (a.cacheable && s.reshapes a.cl a.ctx a.va a.id) = true then s.wait h a.id
    else match a.op with
      | .hmsg _ => (s.setAcc a.id fun b => { b with st := .home }).soon [.hmsgArrival a.id]
      | .clean =>
        match s.cline a false with
        | some s1 => (s1.performed a).leave h line a.id
        | none => s.wait h a.id
      | .flush =>
        match s.cline a true with
        | some s1 => (s1.performed a).leave h line a.id
        | none => s.wait h a.id
      | .rflush =>
        match s.windowAt pa with
        | some w =>
          let v := (sget Shadow.zero w.shadows pa).value
          match s.reclaim line none false with
          | some s1 => ((s1.writeAt a.cl (.dev lin) (toBytes 4 v)).performed a).leave h line a.id
          | none => s.wait h a.id
        | none => (s.performed a).leave h line a.id
      | .rfetch =>
        match s.windowAt pa with
        | some w =>
          ((((s.dropOwn a).setAcc a.id fun b => { b with data := toBytes 4 (sget Shadow.zero w.shadows pa).value }).performed a)).leave h
            line a.id
        | none =>
          match (s.cluster a.cl).stashAt a.asid a.va with
          | some (r, off) => s.homeStash a r off
          | none => s.meetHome a h pa line
      | .red _ _ => if win then (((s.noteAtom a pa).dropOwn a).wait h a.id).soon [.reductionShadowAdd a.id] else s.meetHome a h pa line
      | _ => s.meetHome a h pa line

/-- An access to local store at its place: in a mapped STASH region by its granule, elsewhere at once (R160, R162, R171). A
far one whose mapping is gone since it was issued is translated like any other. -/
def State.homeLocal (s : State) (a : Access) (p : Nat) : State :=
  if a.loc then
    let r := (s.cluster a.cl).region (p / 2 ^ 17)
    if r.mode = .stash ∧ r.map.isSome then s.homeStash a (p / 2 ^ 17) (p % 2 ^ 17)
    else if s.rangeHeld a p then s else s.performLoc a p
  else match (s.cluster a.cl).stashAt a.asid a.va with
    | some (r, off) => s.homeStash a r off
    | none => (s.setAcc a.id fun b => { b with tr := .pending }).soon [.pageWalk a.id]

/-- An access to the register window (R187, R201, R418): its block performs it whole; an address that no row covers
reads zero, performs nothing and is logged with the cluster (R464) (DEDUCED, log 49). -/
def State.homeReg (s : State) (a : Access) (pa : Nat) : State :=
  let o := pa - 0x300000000000
  if regCovered o then s.performAt a (.reg o)
  else
    let s1 := s.logErr ⟨0x0036, 0, a.cl, a.handle, a.group, 1, pa, 0⟩
    if a.returns then (s1.setAcc a.id fun b => { b with data := List.replicate a.len 0 }).performed a else s1.performed a

/-- The slice of MC0 that orders the accesses to the line of a host physical address (R157). -/
def hostSlice (h : Nat) : Nat := h / 256 % 48

/-- The port by which a cluster's accesses arrive at a slice of memory chiplet m: the arc stop, or the spine-ring stop, and
within it the direction, that of increasing stop numbers first (R16, R183). A line has one plane, so that the planes never
decide between two accesses to one line. -/
def State.portRank (s : State) (k m : Nat) : Nat :=
  let per := s.nchips / 8
  let arc := k / 4 / per
  if arc = m then (if 6 < s.arcStop (k / 4) then 0 else 1)
  else if (m + 8 - arc) % 8 ≤ 4 then 2 else 3

/-- The home line of an access: of device memory, or of host memory; and its memory chiplet (R155, R157). -/
def State.homeLine (s : State) (a : Access) : Option (Nat × Nat × Nat) :=
  match a.tr with
  | .ok q 0 => some (s.home (s.linear q) / 48, 0, s.linear q / 256)
  | .ok q 1 => some (0, 1, q / 256)
  | _ => none

/-- Does another access that could perform arrive for the same line on an earlier port (R183) (DEDUCED, log 90)? -/
def State.laterPort (s : State) (a : Access) : Bool :=
  (s.homeLine a).any fun l => s.accs.any fun b => b.id != a.id && b.st == .sent && !b.over &&
    s.portRank b.cl l.1 < s.portRank a.cl l.1 && s.homeLine b == some l && s.mayPerformAll b

/-- HOME_ACCESS: an access performs when the ordering rules allow it, one at a time for each line (R183, R184, R187 to
R192). -/
def execHomeAccess (n : Nat) (s : State) : Out :=
  match s.acc? n with
  | none => .next s
  | some a =>
    if a.over || a.st = .held || !s.mayPerformAll a then .next s
    else match a.op with
      | .cbtake =>
        -- The request arrives at its unit (R141).
        if a.st = .home then .next s
        else
          match (s.launch? (a.launch - 1)).bind (·.cbu) with
          | some u =>
            .next ((s.setAcc n fun b => { b with st := .home }).modUnit u fun x =>
              { x with takes := mapIf (fun r => r.access == n) (fun r => { r with arrived := some s.cycle }) x.takes })
          | none => .next s
      | .fence => .next s
      | .cbdone tag =>
        if a.st = .home then .next s
        else
          match (s.launch? (a.launch - 1)).bind (·.cbu) with
          | some u =>
            .next (((s.setAcc n fun b => { b with st := .home }).modUnit u fun x =>
              { x with dones := x.dones ++ [⟨n, some tag, none⟩] }).soon [.cbdoneCount (.ofNat 2 u)])
          | none => .next (s.performed a)
      | _ =>
          match a.tr with
          | .ok pa 0 => if s.laterPort a then .next s else .next (s.homeDevice a pa)
          | .ok p 3 => .next (s.homeLocal a p)
          | .ok pa 1 =>
            let h := pa - 0x200000000000
            -- The slice of MC0 takes the accesses of one line one at a time (R157, R201).
            if (s.slice (hostSlice h)).down || s.laterPort a || s.accs.any fun b => b.id != n && b.onHost pa a.len then .next s
            else .next ((s.setAcc n fun b => { b with st := .home }).soon [.hostCompletion n])
          | .ok pa 2 => .next (s.homeReg a pa)
          | _ => .next s

/-- REDUCTION_SHADOW_ADD: a RED inside a window adds into its element's shadow (R178, R196). -/
def execReductionShadowAdd (n : Nat) (s : State) : Out :=
  match s.acc? n with
  | none => .next s
  | some a =>
    match a.op, a.tr with
    | .red .fadd x, .ok pa 0 =>
      match s.windowAt pa with
      | none => .next s
      | some w =>
        let line := s.linear pa / 256
        if a.over || a.st ≠ .home || !s.mayPerformAll a then .next s
        else
          let add (v : RedWin) : RedWin :=
            { v with shadows := sset Shadow.zero v.shadows pa ((sget Shadow.zero v.shadows pa).add (x.toNat % 2 ^ 32)) }
          .next (((s.modForme fun m => { m with windows := mapIf (fun v => v.wid == w.wid) add m.windows }).performed a).leave
            (s.home (s.linear pa)) line n)
    | _, _ => .next s

/-- HOST_COMPLETION: an access to host memory is performed, at MOD and at SYS (R181, R201, log 26). -/
def execHostCompletion (n : Nat) (s : State) : Out :=
  match s.acc? n with
  | none => .next s
  | some a =>
    match a.tr, a.st with
    | .ok pa 1, .home => .next (s.performAt { a with st := .sent } (.host (pa - 0x200000000000)))
    | _, _ => .next s

/-- HOST_ERROR_COMPLETION: the access ends with no effect, and HOSTE is recorded (R419, R470). -/
def execHostErrorCompletion (n : Nat) (s : State) : Out :=
  match s.acc? n with
  | none => .next s
  | some a =>
    match a.tr, a.st with
    | .ok pa 1, .home =>
      let h := pa - 0x200000000000
      .next ((s.logErr ⟨0x0035, 5, h / 4096 % 2, a.handle, a.group, 1, h, 0⟩).noEffect a)
    | _, _ => .next s

/-! ## Messages to slices and replies (R199, R221 to R223) -/

/-- Inbound messages queued at a slice. -/
def Slice.inbound (x : Slice) : Nat := (x.events.filter fun e => e.kind == 3).length

/-- HMSG_ARRIVAL: a message raises MSG at the home of its line; to a full queue it waits (R210, R223, R224). -/
def execHmsgArrival (n : Nat) (s : State) : Out :=
  match s.acc? n with
  | none => .next s
  | some a =>
    match a.op, a.tr with
    | .hmsg tok, .ok pa _ =>
      let lin := s.linear pa
      let h := s.home lin
      let earlier := s.accs.any fun b => b.sameCtx a && b.ord < a.ord && !b.over && (match b.op, b.tr with
        | .hmsg _, .ok q _ => s.home (s.linear q) == h
        | .hmsg _, .pending => true
        | _, _ => false)
      if a.over || a.st = .held || !s.mayPerformAll a || earlier || (s.slice h).inbound ≥ 32 then .next s
      else
        let e : Ev := ⟨3, a.tenant, s.addrClass a.tenant lin, lin / 256 * 256, a.cl, false, 8, a.asid, 0, lin % 256, 0, tok,
          .ofNat 512 (ofBytes a.data), []⟩
        let s1 := match s.raiseEv h e with
          | some s1 => s1
          | none => s.queueFullRec h e
        .next ((s1.performed a).leave h (lin / 256) n)
    | _, _ => .next s

/-- REPLY_DELIVERY: checked, written, flagged; or discarded and counted (R222, R478). -/
def execReplyDelivery (n : Nat) (s : State) : Out :=
  match s.forme.replies[n]? with
  | none => .next s
  | some r =>
    let t := r.token.toNat
    let k := bitsAt t 54 9
    let c := bitsAt t 52 2
    let x := s.ctx k c
    let a := bitsAt t 6 17 * 64
    let s1 := s.modForme fun m => { m with replies := m.replies.eraseIdx n }
    let ok := x.st != .free && x.st != .binding && x.bnd.gen.toNat == bitsAt t 36 16 && x.bnd.localOk a 64 &&
      ((s.cluster k).region (x.bnd.localPhys a / 2 ^ 17)).mode == .plain
    if ok then .next ((s1.writeLocal k (x.bnd.localPhys a) (toBytes 64 r.bytes.toNat)).setFlag k c (bitsAt t 30 6) true)
    else .next (s1.countSlice r.slice r.tenant 3 0x0043 0 t)

/-! ## What returns to a cluster (R315, R320, R323, R324, R446, R466) -/

/-- FAR_LOAD_RETURN: a performed load's value reaches its destination. -/
def execFarLoadReturn (n : Nat) (s : State) : Out :=
  if s.forme.late.contains n then .next s
  else match s.acc? n with
  | none => .next s
  | some a =>
    if a.st ≠ .performed then .next s
    else if a.eng ≠ 0 then .next (s.soon (s.jobMove a))
    else if a.owed then .next s
    else
      let s1 := { s with accs := s.accs.filter fun b => b.id != n }
      let v : VWord := .ofNat 1024 (ofBytes a.data)
      match a.dst with
      | .s .. => .next (s1.fillPend a.cl a.ctx a.tag (fun _ => loadValue a.dst a.data) false)
      | .a .. => .next (s1.fillPend a.cl a.ctx a.tag (fun _ => loadValue a.dst a.data) false)
      | .v _ => .next (s1.fillPend a.cl a.ctx a.tag (fun _ => v) false)
      | .elem _ e => .next (s1.fillPend a.cl a.ctx a.tag (setElem (8 * a.len) e v.toNat) false)
      | .tile t off len =>
        let lo := t * 0xA000 + off
        .next (((s1.modCluster a.cl fun c => (c.tileWrite lo (a.data.take len)).rsbDrop n)).clearLoc a.cl 2 lo len)
      | .galley .. => .next (s1.fillGalley a.cl a.tag v)
      | .watch r _ => .next (if s.owns a then s1.endWatch a r (.ofNat 64 (ofBytes a.data)) else s1)
      | .loc _ => .next s
      | .none => .next s1

/-- DESTINATION_FAULT_REPORT: a refusal or a host error reaches the group that issued the access (R446, R466, R470,
R477). -/
def execDestinationFaultReport (n : Nat) (s : State) : Out :=
  if s.forme.late.contains n then .next s
  else match s.acc? n with
  | none => .next s
  | some a =>
    if a.st ≠ .refused ∨ a.eng ≠ 0 ∨ (a.owed && !s.owedFree a.launch a.group) = true then .next s
    else
      let s0 := { s with accs := s.accs.filter fun b => b.id != n }
      let s1 := if a.owed then s0.owedDown a.launch a.group a.cls else s0
      let host := match a.tr with
        | .ok _ 1 => true
        | _ => false
      let report (s : State) (cause : Nat) : State :=
        s.groupFault a.cl a.ctx a.bnd ⟨a.tcause cause, if a.loc then tinfoOf a.bpc 0 else a.tinfo, true, a.id, none, false⟩
      -- A refusal that reaches a group that has exited ends its launch (R466).
      let poison (s : State) : State :=
        match s.groupSt a.launch a.group with
        | .exited => s.soon (if a.launch = 0 then [] else [.launchFault (a.launch - 1)])
        | _ => s.poisonDst a
      let f := s1.freshBits 1024
      if a.returns then
        match a.dst with
        | .s .. => .next (poison s1)
        | .v _ => .next (poison s1)
        | .elem .. => .next (poison s1)
        | .a .. => .next (report (f.2.fillPend a.cl a.ctx a.tag (fun _ => f.1) false) 0x0027)
        | .tile t off len =>
          .next (report (f.2.modCluster a.cl fun c =>
            (c.tileWrite (t * 0xA000 + off) (toBytes len f.1.toNat)).rsbDrop n) 0x0027)
        | .galley .. => .next (s1.ldxFail a)
        | .watch .. => .next (report (s1.dropDst a) 0x0027)
        | _ => .next s1
      else if a.op = .pref then .next s1
      else .next (report s1 (if host then 0x0023 else 0x0024))

/-! ## Watches (R323) -/

/-- The watch that a context waits on. -/
def State.watchOf (s : State) (k c : Nat) : Option Access :=
  match (s.ctx k c).wait with
  | .watch id => s.acc? id
  | _ => none

/-- The bytes of a watched location as they stand, with the context's held writes over them (R92). -/
def State.watched (s : State) (a : Access) : List Byte :=
  let bs := match a.tr with
    | .ok pa 0 => (((s.reclaim (s.linear pa / 256) none true).getD s).recall (s.linear pa / 256) none true).homeRead (s.linear pa) a.len
    | .ok pa 1 => (List.range a.len).map fun i => s.hostByte (pa - 0x200000000000 + i)
    | .ok pa 2 => s.regRead (pa - 0x300000000000) a.len
    | .ok p 3 => (s.cluster a.cl).locRead p a.len
    | _ => a.data
  match s.spot a with
  | some q => s.withHeld a.cl a.ctx a.ord q bs
  | none => bs

/-- Can the watched location be read: its line is not locked, its granule is there (R162, R215)? -/
def State.watchFree (s : State) (a : Access) : Bool :=
  match a.tr with
  | .ok pa 0 => !s.lineLocked (s.linear pa / 256) && (s.reclaim (s.linear pa / 256) none true).isSome
  | .ok pa 1 => s.hostFree pa a.len
  | .ok p 3 => ((s.cluster a.cl).region (p / 2 ^ 17)).map.isNone ||
      ((s.cluster a.cl).region (p / 2 ^ 17)).hasGran (p % 2 ^ 17 / 4096) false
  | _ => true

/-- A watch whose granule has gone asks for it again (R162). -/
def State.watchAgain (s : State) (a : Access) : State :=
  match a.tr with
  | .ok p 3 => s.askGranule a.cl (p / 2 ^ 17) (p % 2 ^ 17 / 4096) a.tenant false false
  | _ => s

/-- WAITADDR_WAKE: a performed write has changed the watched bytes. -/
def execWaitaddrWake (k : ClusterNo) (c : CtxNo) (s : State) : Out :=
  if s.nclus ≤ k.toNat then noUnit else
  match s.watchOf k.toNat c.toNat with
  | none => .next s
  | some a =>
    if a.st = .home then
      if !s.watchFree a then .next (s.watchAgain a)
      else if s.watched a = a.data then .next s
      else .next ((s.setAcc a.id fun b => { b with data := s.watched a }).performed a)
    else .next s

/-- WAITADDR_TIMEOUT: the time is over; the value is read as a load of the access's class. A debug hold freezes the
timer (R491). -/
def execWaitaddrTimeout (k : ClusterNo) (c : CtxNo) (s : State) : Out :=
  if s.nclus ≤ k.toNat then noUnit else
  match s.watchOf k.toNat c.toNat with
  | none => .next s
  | some a =>
    match a.dst with
    | .watch _ dl =>
      if a.st = .home ∧ dl ≤ s.timer then
        if !s.watchFree a then .next (s.watchAgain a) else
        .next ((s.setAcc a.id fun b => { b with data := s.watched a }).performed a)
      else .next s
    | _ => .next s

end Sys2Proof.Machine
end

