-- ==== Sys2Proof/Machine/Slots.lean ====
section
/-!
DEFINITION. What a slot of a bundle does, as the trial of a selected bundle runs it (R439, R440): the meaning of each slot
instruction, the same that `exec` calls. Handler instructions and events stand in no slot.
-/
namespace Sys2Proof.Machine

/-- The effect of a slot instruction. -/
def runSlot (i : Instr) (s : State) : Out :=
  match i with
  | .nop desc => execNop desc s
  | .br t => execBr t s
  | .bra l => execBra l s
  | .brs cc z t => execBrs cc z t s
  | .brv cc k t => execBrv cc k t s
  | .call l t => execCall l t s
  | .ret l => execRet l s
  | .jmpl ld l => execJmpl ld l s
  | .loopi l count => execLoopi l count s
  | .loope l t => execLoope l t s
  | .chk r t => execChk r t s
  | .wait fs => execWait fs s
  | .waitp es => execWaitp es s
  | .setf f => execSetf f s
  | .clrf f => execClrf f s
  | .setp pd src => execSetp pd src s
  | .post tgt f => execPost tgt f s
  | .dbar lvl lead => execDbar lvl lead s
  | .send dmod ch l nfl => execSend dmod ch l nfl s
  | .recv smod ch l nfl => execRecv smod ch l nfl s
  | .mark lm => execMark lm s
  | .yield => execYield s
  | .exit => execExit s
  | .trap code val => execTrap code val s
  | .tret => execTret s
  | .add sd sa sb sh => execAdd sd sa sb sh s
  | .sub sd sa sb sh => execSub sd sa sb sh s
  | .addi sd sa imm => execAddi sd sa imm s
  | .mul sd sa sb acc => execMul sd sa sb acc s
  | .mulh sd sa sb => execMulh sd sa sb s
  | .mulhn sd sa sb => execMulhn sd sa sb s
  | .div sd sa sb => execDiv sd sa sb s
  | .divn sd sa sb => execDivn sd sa sb s
  | .rem sd sa sb => execRem sd sa sb s
  | .remn sd sa sb => execRemn sd sa sb s
  | .and sd sa sb => execAnd sd sa sb s
  | .or sd sa sb => execOr sd sa sb s
  | .xor sd sa sb => execXor sd sa sb s
  | .andn sd sa sb => execAndn sd sa sb s
  | .shl sd sa amt => execShl sd sa amt s
  | .shr sd sa amt => execShr sd sa amt s
  | .sar sd sa amt => execSar sd sa amt s
  | .rot sd sa amt => execRot sd sa amt s
  | .clz sd sa => execClz sd sa s
  | .ctz sd sa => execCtz sd sa s
  | .popc sd sa => execPopc sd sa s
  | .min sd sa sb => execMin sd sa sb s
  | .max sd sa sb => execMax sd sa sb s
  | .minn sd sa sb => execMinn sd sa sb s
  | .maxn sd sa sb => execMaxn sd sa sb s
  | .cmp cc pd sa sb => execCmp cc pd sa sb s
  | .cmpi cc pd sa imm => execCmpi cc pd sa imm s
  | .sel sd neg p sa sb => execSel sd neg p sa sb s
  | .li sd imm => execLi sd imm s
  | .lih sd imm => execLih sd imm s
  | .mov sd sa => execMov sd sa s
  | .xsv vd lane ss => execXsv vd lane ss s
  | .xvs sd vs lane => execXvs sd vs lane s
  | .xsa ad ss => execXsa ad ss s
  | .xas sd sa => execXas sd sa s
  | .xsl ld ss => execXsl ld ss s
  | .xls sd ls => execXls sd ls s
  | .mfc sd creg => execMfc sd creg s
  | .mtc creg ss => execMtc creg ss s
  | .vadd f vd va vb k => execVadd f vd va vb k s
  | .vsub f vd va vb k => execVsub f vd va vb k s
  | .vmul f vd va vb k => execVmul f vd va vb k s
  | .vmulh w n vd va vb k => execVmulh w n vd va vb k s
  | .vmad f vd va vb vc k => execVmad f vd va vb vc k s
  | .vabs w sat vd va k => execVabs w sat vd va k s
  | .vmin w vd va vb k => execVmin w vd va vb k s
  | .vmax w vd va vb k => execVmax w vd va vb k s
  | .vminn w vd va vb k => execVminn w vd va vb k s
  | .vmaxn w vd va vb k => execVmaxn w vd va vb k s
  | .vand vd va vb k => execVand vd va vb k s
  | .vor vd va vb k => execVor vd va vb k s
  | .vxor vd va vb k => execVxor vd va vb k s
  | .vlut3 tt vd va vb vc k => execVlut3 tt vd va vb vc k s
  | .vshl w vd va amt k => execVshl w vd va amt k s
  | .vshr w vd va amt k => execVshr w vd va amt k s
  | .vsar w vd va amt k => execVsar w vd va amt k s
  | .vfsl w vd va vb amt k => execVfsl w vd va vb amt k s
  | .vfsr w vd va vb amt k => execVfsr w vd va vb amt k s
  | .vrot w vd va amt k => execVrot w vd va amt k s
  | .vpopc w vd va k => execVpopc w vd va k s
  | .vclz w vd va k => execVclz w vd va k s
  | .vcmp cc w agg kd va vb k => execVcmp cc w agg kd va vb k s
  | .vsel neg kn vd va vb k => execVsel neg kn vd va vb k s
  | .vbcst w vd va idx k => execVbcst w vd va idx k s
  | .vperm w vd va vb k => execVperm w vd va vb k s
  | .vrotl w vd va r k => execVrotl w vd va r k s
  | .vreda f vd va k => execVreda f vd va k s
  | .vredm max f vd va k => execVredm max f vd va k s
  | .vtest zd src k => execVtest zd src k s
  | .vfadd t rm vd va vb k => execVfadd t rm vd va vb k s
  | .vfsub t rm vd va vb k => execVfsub t rm vd va vb k s
  | .vfmul t rm vd va vb k => execVfmul t rm vd va vb k s
  | .vfma f t rm vd va vb vc k => execVfma f t rm vd va vb vc k s
  | .vfmin t vd va vb k => execVfmin t vd va vb k s
  | .vfmax t vd va vb k => execVfmax t vd va vb k s
  | .vfcmp cc t agg kd va vb k => execVfcmp cc t agg kd va vb k s
  | .vfrcp t rm vd va k => execVfrcp t rm vd va k s
  | .vfrsq t rm vd va k => execVfrsq t rm vd va k s
  | .vfexp2 t rm vd va k => execVfexp2 t rm vd va k s
  | .vflog2 t rm vd va k => execVflog2 t rm vd va k s
  | .vcvt dt st rm vd va p k => execVcvt dt st rm vd va p k s
  | .vcvti toFloat t n w rm vd va p k => execVcvti toFloat t n w rm vd va p k s
  | .vcvtx fromBlk t bt rm vd va vb p => execVcvtx fromBlk t bt rm vd va vb p s
  | .vpack sw n dn sat vd va vb k => execVpack sw n dn sat vd va vb k s
  | .vunpk dw n vd va p k => execVunpk dw n vd va p k s
  | .vtrd cv vd tile idx seg k => execVtrd cv vd tile idx seg k s
  | .vtcd cv vd tile idx seg k => execVtcd cv vd tile idx seg k s
  | .vtwr cv vs tile idx seg k => execVtwr cv vs tile idx seg k s
  | .vmov vd va k => execVmov vd va k s
  | .viota src vd k => execViota src vd k s
  | .vkop f => execVkop f s
  | .sgo sw hm pl flag => execSgo sw hm pl flag s
  | .slen j => execSlen j s
  | .sseed => execSseed s
  | .smode afmt bfmt bp noshift prog => execSmode afmt bfmt bp noshift prog s
  | .sref e => execSref e s
  | .sclr pls => execSclr pls s
  | .sacc bf tile trow pl prow pcol => execSacc bf tile trow pl prow pcol s
  | .smarg drow col0 ncol => execSmarg drow col0 ncol s
  | .sdrain pls => execSdrain pls s
  | .stest pl => execStest pl s
  | .sstop pls => execSstop pls s
  | .svmrg g new => execSvmrg g new s
  | .spos pl sel => execSpos pl sel s
  | .slit tgt => execSlit tgt s
  | .ld d w sx a => execLd d w sx a s
  | .ldv vd w a => execLdv vd w a s
  | .lds d a => execLds d a s
  | .ldg vd w a => execLdg vd w a s
  | .ldx g hint a => execLdx g hint a s
  | .lda d w scope ab cls mask => execLda d w scope ab cls mask s
  | .pref cls hint a => execPref cls hint a s
  | .waitaddr ad w ab tout cls => execWaitaddr ad w ab tout cls s
  | .ldt a => execLdt a s
  | .cbtake vd cls => execCbtake vd cls s
  | .rfetch sd cls a => execRfetch sd cls a s
  | .st d w a => execSt d w a s
  | .stv vs w a => execStv vs w a s
  | .sts vs w idx loc ab off cls hint => execSts vs w idx loc ab off cls hint s
  | .stx vs w a => execStx vs w a s
  | .strl d w scope ab cls mask => execStrl d w scope ab cls mask s
  | .stt a => execStt a s
  | .atom op w ab ss cls hint ret => execAtom op w ab ss cls hint ret s
  | .red op w ab ss cls hint => execRed op w ab ss cls hint s
  | .rflush cls a => execRflush cls a s
  | .fence b scope mask => execFence b scope mask s
  | .cline op cls a => execCline op cls a s
  | .cbdone ss => execCbdone ss s
  | .hmsg vs ab cls rpl => execHmsg vs ab cls rpl s
  | .cpy a => execCpy a s
  | .cpyc a => execCpyc a s
  | .cpyt a => execCpyt a s
  | .cpye a => execCpye a s
  | .bind sw kind g hc cls hint => execBind sw kind g hc cls hint s
  | .unbind g flag => execUnbind g flag s
  | .reshape mode r cls flag => execReshape mode r cls flag s
  | .stash sw r hc hint flag => execStash sw r hc hint flag s
  | .cwb keep r cls flag => execCwb keep r cls flag s
  | .cqry flag mask => execCqry flag mask s
  | .rwin sw hc len wid flag => execRwin sw hc len wid flag s
  | .slrd _ _ => .next s
  | .slwr _ _ => .next s
  | .sllk _ _ => .next s
  | .slunlk _ => .next s
  | .slfill _ _ _ => .next s
  | .sldrop _ => .next s
  | .slwb _ => .next s
  | .slamo _ _ _ _ => .next s
  | .slevt _ _ => .next s
  | .slmsg _ _ _ => .next s
  | .slret _ => .next s
  | .slbud _ => .next s
  | .slnext _ _ _ => .next s
  | .slwait _ _ => .next s
  | .slage _ _ => .next s
  | .slhas _ _ => .next s
  | .handlerBase _ => .next s
  | .contextSelection _ => .next s
  | .blockStart _ _ => .next s
  | .blockOverrun _ _ => .next s
  | .waitReissue _ _ => .next s
  | .flagSetByAgent _ _ _ => .next s
  | .postFlagDelivery _ => .next s
  | .barrierRelease _ => .next s
  | .leadRestart _ _ => .next s
  | .spanBarrierMessage _ => .next s
  | .preemptStopAtWait _ _ => .next s
  | .saveRecordWritten _ _ => .next s
  | .owedWritePerformed _ => .next s
  | .nestKstep _ _ => .next s
  | .nestPassEnd _ _ => .next s
  | .planeOpComplete _ _ => .next s
  | .qtailWrite _ _ => .next s
  | .qctlWrite _ _ => .next s
  | .recordFetch _ => .next s
  | .launchRetirement _ => .next s
  | .heldCreditApply _ => .next s
  | .launchFault _ => .next s
  | .faultStopTimeout _ _ => .next s
  | .preemptTimeout _ => .next s
  | .barrierTimeout _ => .next s
  | .cbtailWrite _ _ => .next s
  | .cbRecordAdmit _ => .next s
  | .cbGroupScan _ => .next s
  | .cbGroupOpen _ => .next s
  | .cbHandout _ => .next s
  | .cbdoneCount _ => .next s
  | .cberrWrite _ _ => .next s
  | .pageWalk _ => .next s
  | .invAsid _ => .next s
  | .invRange _ => .next s
  | .bounceWrite _ => .next s
  | .pagerResolve _ => .next s
  | .stashGranuleFill _ _ => .next s
  | .granuleInvalidate _ _ => .next s
  | .homeAccess _ => .next s
  | .reductionShadowAdd _ => .next s
  | .channelFillArrival _ _ => .next s
  | .hmsgArrival _ => .next s
  | .handlerDispatch _ => .next s
  | .handlerBudgetAbort _ => .next s
  | .replyDelivery _ => .next s
  | .farLoadReturn _ => .next s
  | .destinationFaultReport _ => .next s
  | .copyDispatch _ _ => .next s
  | .copyComplete _ _ => .next s
  | .engineAccessAbandon _ => .next s
  | .galleyFill _ _ => .next s
  | .engineOpComplete _ _ => .next s
  | .spanMessageArrival _ => .next s
  | .spanMessageDiscard _ => .next s
  | .waitaddrWake _ _ => .next s
  | .waitaddrTimeout _ _ => .next s
  | .arcStopQuiesce _ => .next s
  | .elheadWrite _ => .next s
  | .unmappedWindowAccess _ => .next s
  | .energyWindow _ => .next s
  | .hostCompletion _ => .next s
  | .segmentReplay _ _ => .next s
  | .accumulatorParityError _ _ => .next s
  | .lateResponseDiscard _ => .next s
  | .chipletResetControlled _ => .next s
  | .chipletResetUncontrolled _ => .next s
  | .memoryChipletReset _ => .next s
  | .flitCrcReplay _ => .next s
  | .linkFailover _ => .next s
  | .spanLinkDown _ => .next s
  | .uncorrectableError _ _ => .next s
  | .correctedErrorMerge _ _ => .next s
  | .getMeasurements _ => .next s
  | .hostMemRead _ => .next s
  | .hostMemWrite _ _ => .next s
  | .hostErrorCompletion _ => .next s
  | .droopInject _ => .next s
  | .temperatureReading _ _ _ _ => .next s
  | .throttleEnter _ => .next s
  | .throttleLeave _ => .next s
  | .imonDisagree _ _ => .next s
  | .thermalTrip _ => .next s
  | .debugHalt _ => .next s
  | .debugSave _ => .next s
  | .debugRelease _ => .next s
  | .registerWrite _ _ => .next s
  | .memoryChipletReturn _ => .next s
  | .droopClear _ => .next s
  | .bbfullRecord _ => .next s
  | .invAll => .next s
  | .selection => .next s
  | .invalidationDone => .next s
  | .coldStart => .next s
  | .warmStart => .next s
  | .warmStartKeep => .next s
  | .hostReset => .next s
  | .startFailure => .next s
  | .currentHalving => .next s
  | .currentRestore => .next s
  | .railGood => .next s

end Sys2Proof.Machine
end

