-- ==== Sys2Proof/Machine/Issue.lean ====
section
/-!
DEFINITION. Context arbitration and issue (R83 to R89, R101, R126 to R128, R248 to R255, R434, R437, R439, R440, R453):
which context is selected, what becomes of its bundle, and when a blocked context becomes READY.
-/
namespace Sys2Proof.Machine

/-! ## Results that have passed their bounds -/

/-- Land the results of context c of cluster k whose bounds have ended at bundle b; a push fills its galley's entry
(R248, R250). -/
def State.landDue (s : State) (k c b : Nat) : State :=
  let ps := (s.ctx k c).pend.filter fun p => p.passed b
  ps.foldl (fun s p => match p.dst with
    | .push _ => s.fillGalley k p.tag p.val
    | _ => s) (s.modCtx k c fun x => x.landIf fun p => p.passed b)

/-! ## The bundle of a selected context (R440) -/

/-- What has come of a selected bundle: the context has left it (a trap, the pager, the end of its group), it stalls, or it
issues these slots. -/
inductive Try where
  | ended (s : State)
  | stalled (s : State)
  | ready (s : State) (b : Bundle) (todo : List SlotNo)

/-- Point `cur` at the bundle of context c of cluster k. A bundle whose issue was interrupted keeps its number. -/
def State.aim (s : State) (k c : Nat) : State :=
  let x := s.ctx k c
  { s with
    cur := { cl := .ofNat 9 k, ctx := .ofNat 2 c, slot := .y, bpc := x.pc, bmpc := x.mpc, lit := 0,
             bno := if x.rest.isEmpty then x.bundle + 1 else x.bundle, mslot := false, live := false, out := .ran },
    slots := [], slotNos := [], snap := (x.restSnap.map (·.1)).getD x.regs, snapPend := (x.restSnap.map (·.2.1)).getD x.pend,
    snapSys := (x.restSnap.map (·.2.2)).getD (s.sysNow k c) }

/-- A fetch that does not give its bytes: IFETCH, the pager when the page is not resident, which PAGE follows if it declines,
the end of the group when the text is poison-marked (R440, R441, R448, R480) (DEDUCED, log 77). -/
def State.fetchFail (s : State) (f : Fetched) (lit : Bool) : Try :=
  let k := s.cur.cl.toNat
  let c := s.cur.ctx.toNat
  match f with
  | .ok _ => .stalled s
  | .poison => .ended (s.endBundle.unrestartable k c 0 0)
  | .fault va tr =>
    let tc := tcauseOf none false 0x26
    let ti := tinfoOf s.cur.bpc (lit.toNat * 2 ^ 39 + bitsAt va 16 36)
    match tr with
    | .pending => .stalled (s.stall .retry)
    | .nonres =>
      if s.me.nr then .ended (s.deliver k c tc ti none)
      else
        let r := s.freshId
        .ended ((r.2.modForme fun m => { m with pager := m.pager ++ [⟨r.1, s.me.bnd.asid, va / 2 ^ 16, none⟩] }).deliver k c
          (tcauseOf none false 0x22) (tinfoOf s.cur.bpc (farDetail 0 va)) (some r.1))
    | _ => .ended (s.deliver k c tc ti none)

/-- The fetch of the selected bundle and of its literal word, whose slot need not be enabled (R255, R440): the bundle's
word, and the machine with the literal entered. -/
def State.fetchBundle (s : State) : Nat × State ⊕ Try :=
  let k := s.cur.cl.toNat
  let b := s.me.bnd
  match s.fetch k b.asid (b.image + s.cur.bpc) 64 with
  | (.ok w, s1) =>
    if slotWord w .m / 2 ^ 53 = 0 then .inl (w, s1)
    else match s1.fetch k b.asid (b.image + s.cur.bmpc) 8 with
      | (.ok l, s2) => .inl (w, { s2 with cur := { s2.cur with lit := .ofNat 64 l, mslot := true } })
      | (f, s2) => .inr (s2.fetchFail f true)
  | (f, s1) => .inr (s1.fetchFail f false)

/-- ILLOP: the header, or the offending slot (R441) (DEDUCED, log 36). -/
def illopTrap (e : Illop) : Trap := ⟨0x1, e.part, (e.part.isNone).toNat * 2 ^ 39 + e.op % 128 * 2 ^ 32, none⟩

/-- May a delay slot not hold this Y slot (R252)? -/
def notInDelay : Instr → Bool
  | .br _ | .bra _ | .brs .. | .brv .. | .call .. | .ret _ | .jmpl .. | .loope .. | .chk .. => true
  | .mark _ | .exit | .tret => true
  | _ => false

/-- Is it a branch (R251)? -/
def isBranch (i : Instr) : Bool :=
  notInDelay i && (match i with
    | .mark _ | .exit | .tret => false
    | _ => true)

/-- Does the bundle stand in a delay slot (R251)? -/
def Ctx.inDelay (x : Ctx) : Bool := x.rest.isEmpty && x.held.isEmpty && (match x.br with
  | some b => b.left == 1 || b.left == 2
  | none => false)

/-- Is the slot enabled (R240)? -/
def State.enabled (s : State) (e : Slot) : Bool := s.rdP e.ps != e.pn

/-- The order in which the slots of a bundle have their effects: that of R237, with an EXIT last, whose group ends with
the bundle (R82, R237). -/
def issueOrder (b : Bundle) : List SlotNo := if b.y.instr = .exit then SlotNo.all.tail ++ [.y] else SlotNo.all

/-- The entries of a bundle's WAITP, when it is one whose Y slot is enabled (R276). -/
def State.waits (s : State) (b : Bundle) : Option WaitEntries :=
  match b.y.instr with
  | .waitp es => if s.enabled b.y || !s.me.held.isEmpty then some es else none
  | _ => none

/-- The slots that the selection is to issue: those left by an interruption or held by a WAITP whose flags have come, or
all that are enabled; a WAITP's slots read their predicates at their own issue, and a set that stalled is tried again
unchanged (R88, R240, R276, R445). -/
def State.todo (s : State) (b : Bundle) : List SlotNo :=
  let x := s.me
  if !x.rest.isEmpty then x.rest
  else match s.waits b with
    | some es =>
      let same (n : SlotNo) : Bool := x.tried.isEmpty || x.tried.contains n
      if !x.held.isEmpty then x.held.filter fun n => !waitpHolds es x.regs.f n && same n
      else (issueOrder b).filter fun n => waitpHolds es x.regs.f n || same n
    | none => if !x.held.isEmpty then x.held else (issueOrder b).filter fun n => s.enabled (b.slot n)

/-- Those of them that a WAITP does not hold (R88). -/
def State.unheld (s : State) (b : Bundle) (todo : List SlotNo) : List SlotNo :=
  match s.waits b with
  | some es => todo.filter fun n => !waitpHolds es s.me.regs.f n
  | none => todo

/-- Slots that a WAITP's set left out when it stalled, though their flags have come since: they are held (R276). -/
def State.leftOut (s : State) (b : Bundle) (todo : List SlotNo) : List SlotNo :=
  if (s.waits b).isSome && s.me.rest.isEmpty && s.me.held.isEmpty then (issueOrder b).filter fun n => !todo.contains n else []

/-- The semaphores of a block descriptor: valid, consume, flag (R83). -/
def semaphores (desc : Nat) : List (Bool × Bool × Nat) :=
  (List.range 4).map fun i => (bitAt desc (8 * i + 7), bitAt desc (8 * i + 6), bitsAt desc (8 * i) 6)

/-- The descriptor of a BLK bundle. -/
def blkDesc (b : Bundle) : Nat :=
  match b.y.instr with
  | .nop d => d.toNat
  | _ => 0

/-- Are the flags of every valid semaphore 1 (R84)? -/
def Ctx.semsUp (x : Ctx) (b : Bundle) : Bool :=
  (semaphores (blkDesc b)).all fun e => !e.1 || x.regs.f.getLsbD e.2.2

/-- A trial of slots, one after the other: the machine so far, the first trap and the first stall, each with its slot. -/
structure Trial where
  st : State
  trap : Option (SlotNo × Trap)
  stall : Option (SlotNo × SlotEnd)

/-- Try one slot: one that traps, stalls, or waits at a release point leaves no effect for the next (R439, R440). -/
def Trial.slot (b : Bundle) (r : Trial) (n : SlotNo) : Trial :=
  if r.trap.isSome then r
  else
    let s1 := { r.st with cur := { r.st.cur with slot := n, out := .ran } }
    match runSlot (b.slot n).instr s1 with
    | .next s2 =>
      match s2.cur.out with
      | .ran => { r with st := s2 }
      | .trap t => { r with trap := some (n, t) }
      | .hold => r
      | e => { r with stall := if r.stall.isSome then r.stall else some (n, e) }
    | _ => r

/-- Try the slots that are to issue and are enabled; the slots that a WAITP holds are not tried (R88). -/
def State.trial (s : State) (b : Bundle) (todo : List SlotNo) : Trial :=
  ((s.unheld b todo).filter fun n => s.enabled (b.slot n)).foldl (Trial.slot b) ⟨s, none, none⟩

/-- The stall of a slot, on the machine before any slot of the bundle had an effect (DEDUCED, log 53). -/
def State.stallBy (s : State) (n : SlotNo) (e : SlotEnd) : State :=
  let s1 := { s with cur := { s.cur with slot := n } }
  match e with
  | .stall w => s1.stall w
  | .granule r i wr eng => s1.wantGranule r i wr eng
  | .energy => (s1.modCc fun c => { c with eheld := true }).stall .retry
  | _ => s1

/-- The checks of a decoded bundle: the delay-slot rule, the wait of an SGO with SWAP, the checks of each slot, the
semaphores, and the stalls (R84, R252, R354, R440) (DEDUCED, log 52) (DEDUCED, log 53). -/
def State.tryBundle (s : State) (b : Bundle) : Try :=
  let fresh := s.me.rest.isEmpty && s.me.held.isEmpty
  if s.me.inDelay && (b.hdr.blk || notInDelay b.y.instr) then
    .ended (s.trap ⟨0x2, some .y, (s.enabled b.y).toNat, none⟩)
  else
    let todo := s.todo b
    let swap := match b.m.instr with
      | .sgo sw .. => (s.unheld b todo).contains .m && s.enabled b.m && sgoSwapWait sw s
      | _ => false
    -- A WAITP's set is kept when a slot of it stalls (R88, R276).
    let kept (t : State) : Try :=
      .stalled (if (s.waits b).isSome && s.me.rest.isEmpty then t.modMe fun x => { x with tried := s.unheld b todo } else t)
    if todo.isEmpty && !fresh then .stalled ((s.stall .waitp).modMe fun x => { x with tried := [] })
    else if swap then kept (s.stall .retry)
    else
      let r := s.trial b todo
      match r.trap with
      | some (n, t) => .ended ({ s with cur := { s.cur with slot := n } }.trap t)
      | none =>
        if b.hdr.blk && fresh && !s.me.semsUp b then .stalled (s.stall .blk)
        else match r.stall with
          | some (n, e) => kept (s.stallBy n e)
          | none => .ready s b todo

/-- A selected context (R127, R439, R440): its results land, its bundle is fetched, decoded and checked
(DEDUCED, log 80). -/
def State.tryCtx (s : State) (k c : Nat) : Try :=
  let s0 := s.landDue k c (if (s.ctx k c).rest.isEmpty then (s.ctx k c).bundle + 1 else (s.ctx k c).bundle)
  match (s0.aim k c).fetchBundle with
  | .inr t => t
  | .inl (w, s1) =>
    match decodeBundle w with
    | .error e => .ended ({ s1 with cur := { s1.cur with slot := e.part.getD .y } }.trap (illopTrap e))
    | .ok b => s1.tryBundle b

/-! ## Counting (R85, R434, R437, R453) -/

/-- The overrun of the current block: BOVR, EOVR, and the fault (R453) (DEDUCED, log 78). -/
def State.overrunCheck (s : State) (k c : Nat) : State :=
  let x := s.ctx k c
  if x.blk.on && !x.blk.past && x.blk.d < x.blk.count then
    let eovr := decide (x.blk.count - x.blk.stalls ≤ x.blk.d)
    let take := x.tvec.getLsbD 0 && !x.tvec.getLsbD 1
    let s1 := s.modCtx k c fun x =>
      { x with tvec := x.tvec ||| (if eovr then 6 else 2), blk := { x.blk with past := true, noted := take && x.defer.length < 8 } }
    if take then
      s1.defer k c ⟨tcauseOf none false 0x18,
        tinfoOf x.pc (eovr.toNat * 2 ^ 32 + min x.blk.count 65535 * 2 ^ 16 + x.blk.d), true, s.nextId, none, false⟩
    else s1
  else s

/-- One bundle of the context is counted: a stall bundle of the grant counts among the stalls; the block's count holds
in a trap handler (R85, R248, R453) (DEDUCED, log 78). -/
def State.countBundle (s : State) (k c : Nat) (grant held : Bool) : State :=
  (s.modCtx k c fun x =>
    { x with bundle := x.bundle + 1, egstall := if grant then x.egstall + 1 else x.egstall,
             blk := if x.blk.on && !held then { x.blk with count := x.blk.count + 1, stalls := x.blk.stalls + grant.toNat }
               else x.blk }).overrunCheck k c

/-- A grant stall bundle or a droop stall bundle (R434, R437). -/
def State.stallBundle (s : State) (k c : Nat) (grant : Bool) : State :=
  let s1 := (s.modCluster k fun x => { x with first := false, estall := x.estall || grant }).countBundle k c grant (s.ctx k c).trapm
  if grant then s1 else s1.modForme fun m => { m with droopstl := m.droopstl + 1 }

/-! ## Issue and its end -/

/-- A BLK bundle starts its block: flags with consume are cleared (R84, R86). -/
def Ctx.startBlock (x : Ctx) (cycle : Nat) (b : Bundle) : Ctx :=
  let y := (semaphores (blkDesc b)).foldl (fun y e => if e.1 && e.2.1 then y.putFlag cycle e.2.2 false else y) x.endBlock
  { y with blk := ⟨true, 0, bitsAt (blkDesc b) 32 16, 0, false, false⟩, blkNew := true }

/-- The effects of issue before any slot runs: energy, the count, the block's start, a branch bundle's delay slots, the
sources of the bundle (R84, R85, R248, R251, R432). -/
def State.issue (s : State) (b : Bundle) (todo : List SlotNo) : State :=
  let k := s.cur.cl.toNat
  let c := s.cur.ctx.toNat
  let x := s.me
  let slots := todo.map fun n => b.slot n
  let go (s : State) (sl : List Slot) : State :=
    { s with slots := sl, slotNos := todo, cur := { s.cur with live := true, out := .ran } }
  if !x.rest.isEmpty then
    go (s.modMe fun x => { x with rest := [], restSnap := none }) slots
  else
    let late := s.leftOut b todo
    let s1 := (s.modCluster k fun x => { x with u := x.u + b.hdr.ew.toNat, first := false }).modMe fun x => { x with tried := [] }
    if !x.held.isEmpty then
      let s2 := (s1.modMe fun x => { x with held := x.held.filter fun n => !todo.contains n }).countBundle k c false x.trapm
      go { s2 with snap := s2.me.regs, snapPend := s2.me.pend, snapSys := s2.sysNow k c } slots
    else
      let s2 := (if b.hdr.blk then s1.modMe fun x => x.startBlock s.cycle b else s1).modMe fun x => { x with held := late }
      let s3 := s2.countBundle k c false x.trapm
      let s4 := if isBranch b.y.instr then s3.modMe fun x => { x with br := some ⟨3, none⟩ } else s3
      go { s4 with snap := s4.me.regs, snapPend := s4.me.pend, snapSys := s4.sysNow k c } slots

/-- Where the bundle after the present one stands (R251 to R255). -/
def Ctx.advance (x : Ctx) (mslot : Bool) : Ctx :=
  let pc := x.pc + 64
  let mpc := x.mpc + 8 * mslot.toNat
  match x.br with
  | none => { x with pc := pc, mpc := mpc }
  | some b =>
    if 1 < b.left then { x with pc := pc, mpc := mpc, br := some { b with left := b.left - 1 } }
    else { x with pc := (b.tgt.map (·.1)).getD pc, mpc := (b.tgt.map (·.2)).getD mpc, br := none }

/-- The end of a bundle whose slots have issued: it waits for the slots that a WAITP holds, or the next follows; a wait
that a slot has begun blocks the context (R88, R126, R251). -/
def State.finishBundle (s : State) : State :=
  let s1 := { s with cur := { s.cur with live := false } }
  if !s.cur.live then s
  else if !s.me.held.isEmpty then
    s1.modMe fun x => { x with st := .blocked, wait := if x.wait = .none then .waitp else x.wait }
  else s1.modMe fun x =>
    let y := x.advance s.cur.mslot
    if y.wait ≠ .none ∧ y.st = .ready then { y with st := .blocked } else y

/-! ## Selection (R127) -/

/-- The READY contexts of a cluster. -/
def State.readyCtxs (s : State) (k : Nat) : List Nat := (List.range 4).filter fun c => (s.ctx k c).st == .ready

/-- Is a context that stands aside after a YIELD (R280) behind a context that is still READY? -/
def State.standsAside (s : State) (k c : Nat) : Bool :=
  (s.ctx k c).aside.any fun d => (s.ctx k d.toNat).st == .ready

/-- The first READY context in the order after the one selected last; a context that yielded stands aside until every
other READY context has been selected (R127, R280). R127's text bounds a context to one selection in four cycles while another
is READY; with two or three READY its pseudocode selects more often, and the model follows that (DEDUCED, log 95). -/
def State.pick (s : State) (k : Nat) : Option Nat :=
  let order := (List.range 4).map fun i => ((s.cluster k).last.toNat + 1 + i) % 4
  order.find? fun c => (s.readyCtxs k).contains c && !s.standsAside k c

/-- A context is selected: it leaves the YIELD lists of the others, and its own ends (DEDUCED, log 80). -/
def State.selected (s : State) (k c : Nat) : State :=
  ([0, 1, 2, 3] : List Nat).foldl (fun s d =>
    s.modCtx k d fun x => { x with aside := if d = c then [] else x.aside.filter fun e => e.toNat != c })
    (s.modCluster k fun x => { x with last := .ofNat 2 c })

/-- The selection of context c: its bundle traps, stalls, gives way to a stall bundle, or issues (R127, R434, R437). The rest
of a bundle whose issue was interrupted has its energy counted already. -/
def State.select (s : State) (k c : Nat) : State :=
  match (s.selected k c).tryCtx k c with
  | .ended s1 => s1
  | .stalled s1 => s1
  | .ready s1 b todo =>
    if s1.cc.grantStall (if s1.me.rest.isEmpty then b.hdr.ew.toNat else 0) then s1.stallBundle k c true
    else if s1.cc.droop then s1.stallBundle k c false
    else
      let s2 := s1.issue b todo
      if todo.isEmpty then s2.finishBundle else s2

/-! ## When a blocked context becomes READY (R126) -/

/-- Would the bundle of a context be selected without a stall? -/
def State.unstalled (s : State) (k c : Nat) : Bool :=
  let s1 := s.modCtx k c fun x => { x with st := .ready, wait := .none }
  ((s1.ctx k c).rest.isEmpty || !({ s1 with cur := { s1.cur with cl := .ofNat 9 k, ctx := .ofNat 2 c } } : State).untranslated) &&
    match s1.tryCtx k c with
    | .stalled _ => false
    | _ => true

/-- The window holds an SGO of the context: one that is still held after its first window is held in the next (R433). -/
def State.noteHeld (s : State) (k c : Nat) : State :=
  match (s.modCtx k c fun x => { x with st := .ready, wait := .none }).tryCtx k c with
  | .stalled t => if (t.cluster k).eheld then s.modCluster k fun x => { x with eheld := true } else s
  | _ => s

/-- Results of one context to one register that have bounds: an earlier one that lands with a later one or after it leaves
the register undefined (R249); n is the number of the free value. -/
def settle (n : Nat) (ps : List Pend) : List Pend :=
  ps.map fun p =>
    if p.dst != .fstat && ps.any fun q => q.dst == p.dst && q.tag != p.tag && (match q.due, p.due with
        | some e, some d => e == d || (p.tag < q.tag && e < d)
        | _, _ => false) then { p with undef := some n } else p

/-- The pending far results of a context of the classes in a mask are delivered at its next bundle (R315). -/
def State.deliverLoads (s : State) (k c : Nat) (m : BitVec 16) : State :=
  let due (x : Ctx) : List Pend := mapIf (fun p => p.due.isNone && inMask m p.cls) (fun p => { p with due := some x.bundle }) x.pend
  { s.modCtx k c fun x => { x with pend := settle s.free (due x) } with free := s.free + 1 }

/-- Are far results of the classes still on their way? -/
def Ctx.loadsOwed (x : Ctx) (m : BitVec 16) : Bool := x.pend.any fun p => p.due.isNone && inMask m p.cls && !p.ready

/-- The RET values of ATOMs of the classes are delivered to local store (R92, R329). -/
def State.deliverAtoms (s : State) (k c : Nat) (m : BitVec 16) : State :=
  let ready (a : Access) : Bool := a.cl == k && a.ctx == c && a.gen == (s.ctx k c).bnd.gen && a.st == .performed && inMask m a.cls &&
    (match a.dst with
      | .loc _ => true
      | _ => false)
  let s1 := (s.accs.filter ready).foldl (fun s a => match a.dst with
    | .loc p => s.writeLocal k p a.data
    | _ => s) s
  { s1 with accs := s1.accs.filter fun a => !ready a }

/-- A FENCE completes: the loads and ATOMs of its classes are delivered, and it is out of the way (R331, R315). -/
def State.endFence (s : State) (k c : Nat) (f : Access) (loads : Bool) : State :=
  let m := (f.rel.map (·.2)).getD 0
  let s1 := s.deliverAtoms k c m
  let s2 := if loads then s1.deliverLoads k c m else s1
  { s2 with accs := s2.accs.filter fun a => a.id != f.id }

/-- Every ordering point of a context that is met and that it does not wait for is completed (R331). -/
def State.endFences (s : State) (k c : Nat) : State :=
  let blocked : Option Nat := match (s.ctx k c).wait with
    | .fence id => some id
    | _ => none
  (s.accs.filter fun f => f.op == .fence && f.ofGroup (s.ctx k c).bnd && f.acq.isNone && f.rel.isSome && some f.id != blocked).foldl
    (fun s f => if s.fencePending f then s else s.endFence k c f false) s

/-- A context past its EXIT, or stopped: its nests have stopped, and every copy into its tiles and local store has ended
(R82, R103). -/
def State.exitDone (s : State) (k c : Nat) : Bool :=
  let x := s.cluster k
  x.planes.all (fun e => (e.2.nest.all fun n => n.ctx != c) && e.2.queue.all fun o => o.ctx != c) &&
    x.rsb.all (fun e => e.owner != 4 * k + c) &&
    x.galleys.all (fun e => e.2.ctx != c || e.2.kind != .wr || e.2.q.all fun q => q.2.isNone) &&
    x.copies.all fun y => y.ctx != c || y.op == .cpy || y.op == .cpyc || y.op == .cpyt || y.op == .cpye

/-- Physical regions granted to a context. -/
def Binding.regions (b : Binding) : List Nat := (List.range b.creg).map fun i => b.reg0 + i

/-- Write back what the regions of a context hold of device memory, each line by its virtual address (R82, R160, R162,
R163): the machine and the addresses that faulted; none while a writeback must wait. -/
def State.drainClaims (s : State) (k : Nat) (b : Binding) : Option (State × List Nat) :=
  b.regions.foldl (fun t r => t.bind fun t => (t.1.wbRegion k r).map fun u =>
    (u.1.dropRegion k r, t.2 ++ u.2)) (some (s, []))

/-- The claims and the context of a group are free (R82, R126): its regions are empty, its galleys are unbound, its granule
requests end. The ordering points of a saved group that precede its restart point stand (R188, R204). -/
def State.freeCtx (s : State) (k c : Nat) (saved : Bool) : State :=
  let x := s.ctx k c
  let s0 := ((s.drainClaims k x.bnd).map (·.1)).getD s
  let s1 := (x.bnd.regions.foldl (fun s r => (s.dropRegion k r).modCluster k fun y => y.modRegion r fun z => { z with map := none })
    s0).modCluster k fun y =>
    { y with galleys := y.galleys.filter fun e => e.2.ctx != c,
             stashReqs := y.stashReqs.filter fun q => !x.bnd.regions.contains q.region }
  { (s1.setCtx k c { Ctx.reset with bnd := { Binding.none with gen := x.bnd.gen } }).leftReady k c with
    accs := s1.accs.filter fun a => !(a.cl == k && a.ctx == c && a.ofGroup x.bnd &&
      ((a.op == .fence && !(saved && a.rel.isSome && decide (a.id < x.markId))) || a.st == .held ||
        (a.st == .performed && (match a.dst with
          | .loc _ => true
          | _ => false)))) }

/-- The group of a context has exited (R82, R124): the launch records it, and a request to stop it is met. -/
def State.groupExited (s : State) (k c : Nat) : State :=
  let b := (s.ctx k c).bnd
  let s1 := s.modLaunch (b.launch - 1) fun l =>
    { l with groups := sset .unbound l.groups b.group .exited, nexited := l.nexited + 1 }
  let mine (q : StopReq) : Bool := q.cl == k && q.ctx == c
  (s1.modForme fun m =>
    { m with stops := m.stops.filter fun q => !mine q,
             holds := m.holds ++ (m.stops.filter mine).filterMap fun q => q.by'.map fun l => ⟨l, k, c, b⟩ }).freeCtx k c false

/-- A blocked context becomes READY when its condition holds (R126): a stall is over when its bundle no longer stalls;
a FENCE, a DBAR's performance and an EXIT when their accesses and copies have ended. -/
def State.wakeCtx (s : State) (k c : Nat) : State :=
  let x := s.ctx k c
  let ready := s.modCtx k c fun x => { x with st := .ready, wait := .none }
  if x.st ≠ .blocked then s
  else match x.wait with
    | .none | .retry | .blk | .flags | .waitp | .recv | .drain _ => if s.unstalled k c then ready else s.noteHeld k c
    | .fence id =>
      match s.acc? id with
      | none => ready
      | some f =>
        if s.fencePending f || x.loadsOwed ((f.rel.map (·.2)).getD 0) then s
        else (s.endFence k c f true).modCtx k c fun x => { x with st := .ready, wait := .none }
    | .dbarPerform lvl _ after => if s.allPerformed k c after x.bnd (levelScope lvl) then ready else s
    | .exit =>
      if !s.exitDone k c then s
      else match s.drainClaims k x.bnd with
        | some t => (t.2.foldl (fun s _ => s.lateFault k c 0x0025) t.1).groupExited k c
        | none => s
    | .dbarRestart t => if t ≤ s.cycle then ready else s
    | .dbarArrived .. | .watch _ | .pager .. => s

/-- Every blocked context of a cluster, and its ordering points. -/
def State.wakeAll (s : State) (k : Nat) : State :=
  (List.range 4).foldl (fun s c => (s.endFences k c).wakeCtx k c) s

/-! ## The events -/

/-- A cluster selects once a cycle: a second selection falls in the next cycle (log 1). -/
def State.nextCycle (s : State) (k : Nat) : State :=
  let s1 := if (s.cluster k).selAt = s.cycle + 1 then { s with cycle := s.cycle + 1 } else s
  (([0, 1, 2, 3] : List Nat).foldl (fun s c => if (s.ctx k c).st = .ready then s else s.leftReady k c) (s1.energyRoll k)).modCluster k
    fun c => { c with selAt := s1.cycle + 1 }

/-- May the cluster select: it runs, and no bundle is being issued? -/
def State.maySelect (s : State) (k : Nat) : Bool := s.slots.isEmpty && s.runs k

/-- CONTEXT_SELECTION: a READY context is selected; without one the clock is gated (R127, R128). -/
def execContextSelection (k : ClusterNo) (s : State) : Out :=
  if s.nclus ≤ k.toNat then noUnit
  else if !s.maySelect k.toNat then .next s
  else
    let s1 := (s.nextCycle k.toNat).wakeAll k.toNat
    match s1.pick k.toNat with
    | none => .next s1
    | some c => .next (s1.select k.toNat c)

/-- The context waits at such a point and its condition holds: it is READY again, and its bundle issues at its turn. -/
def State.wakeAt (s : State) (k c : Nat) : State :=
  let s1 := (s.nextCycle k).wakeCtx k c
  if (s1.ctx k c).st = .ready ∧ s1.pick k = some c then s1.select k c else s1

/-- BLOCK_START: a BLK bundle whose semaphores have come issues and consumes them (R84). -/
def execBlockStart (k : ClusterNo) (c : CtxNo) (s : State) : Out :=
  if s.nclus ≤ k.toNat then noUnit
  else if s.maySelect k.toNat && (s.ctx k.toNat c.toNat).wait == .blk then .next (s.wakeAt k.toNat c.toNat)
  else .next s

/-- WAIT_REISSUE: a flag change issues a held WAIT or WAITP bundle (R87, R88). -/
def execWaitReissue (k : ClusterNo) (c : CtxNo) (s : State) : Out :=
  let w := (s.ctx k.toNat c.toNat).wait
  if s.nclus ≤ k.toNat then noUnit
  else if s.maySelect k.toNat && (w == .flags || w == .waitp) then .next (s.wakeAt k.toNat c.toNat)
  else .next s

/-- BLOCK_OVERRUN: a block's count beyond its D sets BOVR, and EOVR when the grant's stalls explain it (R453). -/
def execBlockOverrun (k : ClusterNo) (c : CtxNo) (s : State) : Out :=
  if s.nclus ≤ k.toNat then noUnit else .next (s.overrunCheck k.toNat c.toNat)

/-- FLAG_SET_BY_AGENT: another agent sets a flag of a bound context (R86). -/
def execFlagSetByAgent (k : ClusterNo) (c : CtxNo) (f : FReg) (s : State) : Out :=
  if s.nclus ≤ k.toNat then noUnit
  else if (s.ctx k.toNat c.toNat).bnd.launch = 0 then .next s
  else .next (s.setFlag k.toNat c.toNat f.toNat true)

/-- Is the context blocked at a stop point of R101 or R371? A DBAR is one until it is released. -/
def Wait.isStop : Wait → Bool
  | .blk | .flags | .waitp | .recv | .drain _ | .dbarPerform .. | .dbarArrived .. => true
  | _ => false

/-- The other modules of the span. -/
def State.otherMods (s : State) : List Nat := (List.range s.forme.nmod.toNat).filter fun m => m != s.forme.modid.toNat

/-- Has the completion of every other module been received (R98)? -/
def State.spanHigh (s : State) (r : Barrier) : Bool := s.otherMods.all fun m => r.recvd.any fun e => e.1 == m

/-- Has the line of an instance released: it has been high since an earlier cycle, at level 5 with every module's completion
received (R98)? -/
def State.barDone (s : State) (r : Barrier) : Bool :=
  r.high != 0 && decide (r.high ≤ s.cycle) && (r.lvl != 5 || s.spanHigh r)

/-- The instance at which a context waits. -/
def State.barOf (s : State) (k c : Nat) : Option Barrier :=
  let b := (s.ctx k c).bnd
  match (s.ctx k c).wait with
  | .dbarArrived lvl _ => s.forme.bars.find? fun r => r.launch + 1 == b.launch && r.lvl == lvl && r.arrived.contains b.group
  | _ => none

/-- The arrival of a context at a barrier is withdrawn (R98). -/
def State.withdraw (s : State) (k c : Nat) : State :=
  let b := (s.ctx k c).bnd
  match (s.ctx k c).wait with
  | .dbarArrived lvl _ => s.modForme fun m => { m with
      bars := mapIf (fun r => r.launch + 1 == b.launch && r.lvl == lvl && r.arrived.contains b.group)
        (fun r => { r with arrived := r.arrived.filter fun g => g != b.group, high := 0 }) m.bars }
  | _ => s

/-- PREEMPT_STOP_AT_WAIT: a context that is to stop and is blocked at a wait, NR being 0, rolls back and is saved; in a
trap handler, and from it to the next MARK, no stop point is honoured, nor at a barrier that has released (R98, R101,
R444). -/
def execPreemptStopAtWait (k : ClusterNo) (c : CtxNo) (s : State) : Out :=
  let x := s.ctx k.toNat c.toNat
  if s.nclus ≤ k.toNat then noUnit
  else if x.preempt && x.st == .blocked && x.wait.isStop && !x.nr && !x.trapm && !x.tret &&
      !((s.barOf k.toNat c.toNat).any s.barDone) && s.slots.isEmpty then
    .next (((s.withdraw k.toNat c.toNat).rollback k.toNat c.toNat).stopFor k.toNat c.toNat 1 true)
  else .next s

end Sys2Proof.Machine
end

