-- ==== Sys2Proof/Machine/Barrier.lean ====
section
/-!
DEFINITION. Barriers (R96 to R99, R278, R386, R475), POSTed flags (R277, R473) and span messages (R380 to R387, R473,
R486).
-/
namespace Sys2Proof.Machine

/-! ## Barriers -/

/-- Has every access and copy of a group been performed at MOD (R192)? -/
def State.groupOver (s : State) (launch group : Nat) : Bool :=
  (s.accs.all fun a => !(a.launch == launch && a.group == group && a.op != .fence) || a.overAt 3) &&
    s.clusters.all fun e => e.2.copies.all fun y => !(y.bnd.launch == launch && y.bnd.group == group)

/-- Is the arrival of every member of the instance high? An exited member, its accesses performed, holds it high for good
(R98, R192) (DEDUCED, log 54). -/
def State.barHigh (s : State) (r : Barrier) : Bool :=
  !r.arrived.isEmpty && r.members.all fun g =>
    r.arrived.contains g || (s.groupSt (r.launch + 1) g == .exited && s.groupOver (r.launch + 1) g)

/-- Latency from the last arrival, or at level 5 from the completion received, to the release cycle T (R99). -/
def barLatency (lvl : Nat) : Nat :=
  match lvl with
  | 1 => 8
  | 2 => 16
  | 3 => 32
  | _ => 64

/-- A member's rank: its place among the members, after those of the modules with lower MODIDs (R96, R386)
(DEDUCED, log 57). -/
def State.barRank (s : State) (r : Barrier) (g : Nat) : Nat :=
  (r.members.filter fun m => m < g).length +
    (if r.lvl = 5 then
      (s.otherMods.filter fun m => m < s.forme.modid.toNat).foldl (fun n m =>
        n + ((r.recvd.find? fun e => e.1 == m).map (·.2)).getD 0) 0 else 0)

/-- LEAD as a release reads it: an MTC whose bound has not passed may be seen or not (R248, R378, log 5). -/
def Ctx.leadNow (x : Ctx) : BitVec 7 :=
  ((x.pend.filter fun p => p.dst == .creg 0x021 && p.ready && Config.seesNew p.tag x.bundle 0).foldl Ctx.land x).regs.lead

/-- Release one member at cycle T: its offset from its own LEAD, LEADPOS, NR, and the end of the ordering that its DBAR put
on later accesses (R94, R97, R99). LEADPOS is read from the second bundle after the release on (R278) (DEDUCED, log 57). -/
def State.releaseMember (s : State) (r : Barrier) (t g : Nat) : State :=
  match s.groupSt (r.launch + 1) g with
  | .bound k c =>
    match (s.ctx k c).wait with
    | .dbarArrived lvl lead =>
      if lvl = r.lvl then
        let off := if lead then (s.ctx k c).leadNow.toNat * (s.barRank r g % 16) else 0
        let s1 := { s.modCtx k c fun x =>
          { x with wait := .dbarRestart (t + off), nr := true,
                   pend := x.pend ++ [⟨s.nextId, .leadpos, .ofNat 1024 off, false, some (x.bundle + 2), true, 0, none⟩] } with
          nextId := s.nextId + 1 }
        { s1 with accs := s1.accs.filter fun a => !(a.op == .fence && a.acq.isSome && a.cl == k && a.ctx == c) }
      else s
    | _ => s
  | _ => s

/-- The moves of the accesses that a released DBAR had held back. -/
def State.heldBack (s : State) (k c : Nat) : List Instr :=
  (s.accs.filter fun a => a.cl == k && a.ctx == c && a.st == .sent && a.op != .fence).map fun a => .homeAccess a.id

/-- The line of an instance in a cycle: low, high for the first time, or high since an earlier cycle (R98). -/
def Barrier.seen (r : Barrier) (high : Bool) (cycle : Nat) : Barrier :=
  { r with high := if !high then 0 else if r.high = 0 then cycle + 1 else r.high }

/-- The release of every member, and the instance's next round. -/
def State.releaseAll (s : State) (n : Nat) (r : Barrier) (t : Nat) : State :=
  let s1 := r.members.foldl (fun s g => s.releaseMember r t g) s
  let back := s.otherMods.foldl (fun l m => eraseFirst (fun e => e.1 == m) l) r.recvd
  let moves := (r.members.filterMap fun g => match s.groupSt (r.launch + 1) g with
    | .bound k c => some (s1.heldBack k c)
    | _ => none).flatten
  (s1.modForme fun m => { m with
    bars := m.bars.set n { r with arrived := [], since := 0, high := 0, sent := false, recvd := back } }).soon moves

/-- BARRIER_RELEASE: the line of instance n sees every arrival high. A withdrawal in the cycle of the last arrival prevents
the release, which follows in a later one, with T counted from the arrival (R98, R99). At level 5 the module's completion
goes to the other modules, and T is counted from theirs. -/
def execBarrierRelease (n : Nat) (s : State) : Out :=
  match s.forme.bars[n]? with
  | none => .next s
  | some b =>
    let r := b.seen (s.barHigh b) s.cycle
    let put (r : Barrier) : State := s.modForme fun m => { m with bars := m.bars.set n r }
    if r.high = 0 ∨ s.cycle < r.high then .next (put r)
    else if r.lvl = 5 then
      if s.spanHigh r then .next (s.releaseAll n r (s.cycle + barLatency r.lvl)) else .next (put { r with sent := true })
    else .next (s.releaseAll n r (r.high - 1 + barLatency r.lvl))

/-- LEAD_RESTART: a released member restarts in its own cycle (R99). -/
def execLeadRestart (k : ClusterNo) (c : CtxNo) (s : State) : Out :=
  if s.nclus ≤ k.toNat then noUnit
  else match (s.ctx k.toNat c.toNat).wait with
    | .dbarRestart _ => .next (s.wakeCtx k.toNat c.toNat)
    | _ => .next s

/-- Is a launch the span launch bound on the module (R386)? -/
def Launch.isSpan (l : Launch) : Bool := l.dom == 5 && l.everRun

/-- SPAN_BARRIER_MESSAGE: the completion of another module's members arrives: the module in the low 12 bits of n, above
them how many members it has (R98, R386) (DEDUCED, log 54). -/
def execSpanBarrierMessage (n : Nat) (s : State) : Out :=
  let m := n % 4096
  let span (r : Barrier) : Bool := r.lvl == 5 && s.forme.launches.any fun l => l.id == r.launch && l.isSpan
  if !s.otherMods.contains m then .next s
  else .next ((s.modForme fun f => { f with bars := mapIf span (fun r => { r with recvd := r.recvd ++ [(m, n / 4096)] }) f.bars }).soon
    ((s.forme.bars.zipIdx.filter fun e => span e.1).map fun e => .barrierRelease e.2))

/-- BARRIER_TIMEOUT: 2^32 cycles after the first arrival with no release, the launch ends with FAULT; a debug hold
freezes the time (R475, R491). -/
def execBarrierTimeout (n : Nat) (s : State) : Out :=
  match s.forme.bars[n]? with
  | none => .next s
  | some r =>
    if !r.arrived.isEmpty && r.since + 2 ^ 32 ≤ s.timer then
      let h := ((s.launch? r.launch).map (·.handle)).getD 0
      .next (((s.logErr ⟨0x0016, 0, r.lvl, h, 0xFFFFFFFF, 1, 0, 0⟩).modForme fun m =>
        { m with bars := m.bars.set n { r with arrived := [], since := 0, high := 0 } }).soon [.launchFault r.launch])
    else .next s

/-! ## POST (R277, R473) -/

/-- What a report that outlives a binding keeps of it. -/
def groupBinding (launch group : Nat) (gen : BitVec 16) : Binding :=
  { Binding.none with launch := launch, group := group, gen := gen }

/-- POST_FLAG_DELIVERY: the poster's earlier accesses are performed, and its arc stop still injects (R22); the flag is set in
the target's context, kept for its resumption, or discarded. -/
def execPostFlagDelivery (n : Nat) (s : State) : Out :=
  match s.forme.posts.find? fun r => r.id == n with
  | none => .next s
  | some r =>
    -- POSTs of one context to one target set their flags in program order.
    let first := s.forme.posts.all fun q =>
      !(q.launch == r.launch && q.group == r.group && q.target == r.target && q.id < r.id)
    if !first || !s.injects r.cl || !s.allPerformed r.cl r.ctx r.id (groupBinding r.launch r.group r.gen) 3 then .next s
    else
      let s1 := s.modForme fun m => { m with posts := m.posts.filter fun q => q.id != n }
      match s.groupSt r.launch r.target with
      | .bound k c => .next (s1.soon [.flagSetByAgent (.ofNat 9 k) (.ofNat 2 c) r.flag])
      | .saved _ => .next (s1.modForme fun m => { m with savedFlags := m.savedFlags ++ [(r.launch, r.target, r.flag)] })
      | _ =>
        let h := ((s.launch? (r.launch - 1)).map (·.handle)).getD 0
        .next (s1.logErr ⟨0x0013, 0, r.target, h, 0xFFFFFFFF, 1, 0, .ofNat 192 r.flag.toNat⟩)

/-! ## Span messages (R380, R383 to R387, R473, R486) -/

/-- The HANDLE of the span launch bound on the module. -/
def State.spanBound (s : State) : Option Nat := (s.forme.launches.find? Launch.isSpan).map (·.handle)

/-- A message may enter its channel's queue: its launch is bound here, and its flits are free (R380, R386). -/
def State.mayEnter (s : State) (m : SpanMsg) : Bool :=
  s.spanBound == some m.handle && s.spocc m.ch + m.bytes.length / 128 ≤ 4096

/-- A message enters its queue. -/
def State.enter (s : State) (m : SpanMsg) : State :=
  s.modForme fun f => { f with chans := sset [] f.chans m.ch (sget [] f.chans m.ch ++ [m]) }

/-- SPOUT of the sender falls, when the sender is still there (DEDUCED, log 55). -/
def State.spoutDown (s : State) (r : SendReq) : State :=
  let s1 := s.modForme fun f => { f with sends := f.sends.filter fun q => q.id != r.id }
  if (s.ctx r.cl r.ctx).bnd.gen = r.gen then s1.modCtx r.cl r.ctx fun x => { x with spout := x.spout - 1 } else s1

/-- The message of a SEND whose bytes have been read. -/
def SendReq.msg (r : SendReq) (modid : Nat) (bs : List Byte) : SpanMsg := ⟨r.handle, modid, r.ch, bs⟩

/-- A SEND reads its bytes once every earlier access and copy is performed, and drops its read entry (R383). -/
def State.readSend (s : State) (r : SendReq) : State :=
  let bs := (s.cluster r.cl).locRead r.addr (128 * r.nfl)
  ((s.modCluster r.cl fun c => c.rsbDrop r.id).modForme fun f =>
    { f with sends := mapIf (fun q => q.id == r.id) (fun q => { q with bytes := some bs }) f.sends }).soon
    [.spanMessageArrival r.id]

/-- Whether a message of another module of the span arrives now, and which, is that module's: it comes for the bound span
launch, with a source, channel, length and bytes that are free (R380, R384) (DEDUCED, log 55). -/
def State.otherMessage (s : State) (n handle : Nat) : State :=
  let go := s.freshBits 1
  if go.1 = 1 then
    let src := go.2.freshBits 12
    let ch := src.2.freshBits 4
    let nfl := ch.2.freshBits 4
    let bs := nfl.2.freshBits 16384
    let m : SpanMsg := ⟨handle, s.otherMods.getD (src.1.toNat % s.otherMods.length) 0, ch.1.toNat,
      toBytes (128 * (nfl.1.toNat + 1)) bs.1.toNat⟩
    { bs.2.modForme fun f => { f with arriving := f.arriving ++ [(n, m)] } with nextId := n + 1 }.soon [.spanMessageArrival n]
  else go.2

/-- SPAN_MESSAGE_ARRIVAL: a SEND's bytes are read, while its arc stop still injects (R22); then its message,
in the order of its sender to its channel, enters the queue of this module, or that of another module, and SPOUT falls; a
message from another module enters (R383, R385) (DEDUCED, log 55). -/
def execSpanMessageArrival (n : Nat) (s : State) : Out :=
  match s.forme.sends.find? fun r => r.id == n with
  | some r =>
    match r.bytes with
    | none =>
      if s.injects r.cl && s.allPerformed r.cl r.ctx r.id (groupBinding r.launch r.group r.gen) 3 then .next (s.readSend r)
      else .next s
    | some bs =>
      let first := s.forme.sends.all fun q =>
        !(q.launch == r.launch && q.group == r.group && q.dmod == r.dmod && q.ch == r.ch && q.id < r.id)
      let m := r.msg s.forme.modid.toNat bs
      if !first then .next s
      else if r.dmod = s.forme.modid.toNat then
        if s.mayEnter m then .next ((s.enter m).spoutDown r) else .next s
      else .next (s.spoutDown r)
  | none =>
    match s.forme.arriving.find? fun e => e.1 == n with
    | some e =>
      if s.mayEnter e.2 then
        .next ((s.enter e.2).modForme fun f => { f with arriving := f.arriving.filter fun q => q.1 != n })
      else .next s
    | none =>
      match s.spanBound with
      | some h => if n = s.nextId ∧ !s.otherMods.isEmpty then .next (s.otherMessage n h) else .next s
      | none => .next s

/-- Is the message of a HANDLE that has retired on the module (R386, R473)? -/
def State.spanStale (s : State) (h : Nat) : Bool := s.forme.spanGone.contains h && s.spanBound != some h

/-- SPANDR. -/
def State.spanDrop (s : State) (m : SpanMsg) : State :=
  s.logErr ⟨0x0014, 0, m.ch, m.handle, 0xFFFFFFFF, 1, 0, .ofNat 192 (m.src % 4096)⟩

/-- SPAN_MESSAGE_DISCARD: a message for a HANDLE no longer bound is discarded and recorded (R386, R473). -/
def execSpanMessageDiscard (n : Nat) (s : State) : Out :=
  match s.forme.sends.find? fun r => r.id == n with
  | some r =>
    match r.bytes with
    | some bs =>
      if r.dmod = s.forme.modid.toNat ∧ s.spanStale r.handle then
        .next ((s.spanDrop (r.msg s.forme.modid.toNat bs)).spoutDown r)
      else .next s
    | none => .next s
  | none =>
    match s.forme.arriving.find? fun e => e.1 == n with
    | some e =>
      if s.spanStale e.2.handle then
        .next ((s.spanDrop e.2).modForme fun f => { f with arriving := f.arriving.filter fun q => q.1 != n })
      else .next s
    | none => .next s

/-- SPAN_LINK_DOWN: recorded; firmware routes over the other links (R379). Whether a module has become unreachable the links of
other modules decide (a free bit): the pieces of the span launch then end with FAULT (R486) (DESIGN CHOICE, log 56). -/
def execSpanLinkDown (n : BitVec 3) (s : State) : Out :=
  if !s.forme.spanUp.getLsbD n.toNat then .next s
  else
    let s1 := (s.modForme fun f => { f with spanUp := setBit f.spanUp n.toNat false }).logUnit 0x0062 4 n.toNat 0
    let r := s1.freshBits 12288
    let cut := (r.2.modForme fun f => { f with routes := r.1 }).freshBits 1
    if 1 < s.forme.nmod.toNat ∧ cut.1 = 1 then
      .next (cut.2.soon ((s.forme.launches.filter Launch.isSpan).map fun l => .launchFault l.id))
    else .next cut.2

end Sys2Proof.Machine
end

