-- ==== Sys2Proof/Machine/Save.lean ====
section
/-!
DEFINITION. Binding of a group (R80, R81, R509), the save record and resumption (R90, R102 to R105, R165, R363, R447,
R465, R504 to R508).
-/
namespace Sys2Proof.Machine

/-! ## Livemaps (R90) and the size of a record (R104, R113, R504) -/

/-- What a record saves: register numbers of each bank, and relative planes, galleys, tiles and regions. -/
structure Live where
  s : List Nat
  a : List Nat
  k : List Nat
  l : List Nat
  v : List Nat
  hm : List Nat
  n : List Nat
  hc : List Nat
  planes : List Nat
  gals : List Nat
  tiles : List Nat
  regs : List Nat
deriving DecidableEq, Repr

/-- The set bits among n from bit lo. -/
def setBits (x lo n : Nat) : List Nat := (List.range n).filter fun i => bitAt x (lo + i)

/-- The live set of a livemap record, within the claims (R80, R90). -/
def liveOf (lm carr ctile creg cgal : Nat) : Live :=
  { s := setBits lm 0 64, a := setBits lm 64 32, k := setBits lm 96 16, l := setBits lm 112 4, v := setBits lm 128 512,
    hm := setBits lm 120 4, n := setBits lm 640 6, hc := setBits lm 124 4, planes := (setBits lm 648 4).filter (· < carr),
    gals := (setBits lm 656 16).filter (· < cgal), tiles := (setBits lm 672 32).filter (· < ctile),
    regs := (setBits lm 704 64).filter (· < creg) }

/-- A reserved bit set in a livemap record (R90, R113). -/
def liveBad (lm : Nat) : Bool :=
  bitsAt lm 116 4 != 0 || bitsAt lm 646 2 != 0 || bitsAt lm 652 4 != 0 || bitsAt lm 768 256 != 0

/-- Rounded up to 64 bytes. -/
def up64 (n : Nat) : Nat := (n + 63) / 64 * 64

/-- Every hm and n register, and planes, beside what is live (R363). -/
def Live.withPlanes (x : Live) (ps : List Nat) (all : Bool) : Live :=
  { x with planes := (List.range 4).filter fun p => x.planes.contains p || ps.contains p,
           hm := if all then List.range 4 else x.hm, n := if all then List.range 6 else x.n }

/-- Bytes of a record, header included (R104, R504 to R506). -/
def Live.size (x : Live) : Nat :=
  0x1000 + up64 (8 * x.s.length) + up64 (8 * x.a.length) + up64 (4 * x.k.length) + up64 (8 * x.l.length) +
    up64 (128 * x.v.length) + up64 (16 * x.hm.length) + up64 (16 * x.n.length) + up64 (128 * x.hc.length) + 256 +
    x.planes.length * (64 + 6 * 2 ^ 18) + x.gals.length * 1088 + x.tiles.length * 0xA000 + x.regs.length * 2 ^ 17

/-! ## Binding (R80, R81, R509) -/

/-- The banks of R81. -/
def Banks.bound (dom g count param : Nat) : Banks :=
  let put (m : Sparse SVal) (i v : Nat) : Sparse SVal := sset ⟨0, false⟩ m i ⟨.ofNat 64 v, false⟩
  { Banks.zero with s := put (put (put [] 0 g) 1 count) 2 param, dom := .ofNat 3 dom }

/-- What a binding gives group g of a launch on granted runs. -/
def Launch.binding (l : Launch) (g : Nat) (gen : BitVec 16) (arr tile reg gal : Nat) : Binding :=
  { launch := l.id + 1, handle := l.handle, group := g, gcount := l.gcount, gen := gen, asid := l.asid, tenant := l.tenant,
    image := l.kimage, entry := l.entry, metaoff := l.metaoff, textEnd := l.metaoff, lmoff := l.lmoff, lmcount := l.lmcount,
    carr := l.carr, ctile := l.ctile, creg := l.creg, cgal := l.cgal, arr0 := arr, tile0 := tile, reg0 := reg, gal0 := gal,
    cbu := l.cbu }

/-- The state of the context at binding, its restart point with it (R81, R509). -/
def Ctx.boundTo (l : Launch) (b : Binding) : Ctx :=
  let r := Banks.bound l.dom b.group l.gcount l.param
  { Ctx.reset with st := .ready, regs := r, shadow := r, rpc := l.entry, rmpc := l.metaoff, lmidx := 0xFFFF, pc := l.entry,
                   mpc := l.metaoff, bnd := b }

/-- The claimed tiles, regions and planes are undefined, the regions PLAIN (R81). -/
def State.undefineClaims (s : State) (k : Nat) (b : Binding) : State :=
  let s1 := (List.range b.ctile).foldl (fun s i =>
    let f := s.freshStore
    f.2.modCluster k fun c => c.modTile (b.tile0 + i) fun _ => f.1) s
  let s2 := (List.range b.creg).foldl (fun s i =>
    let f := s.freshStore
    f.2.modCluster k fun c => c.modRegion (b.reg0 + i) fun _ => { Region.reset with store := f.1 }) s1
  (List.range b.carr).foldl (fun s i =>
    let f := s.freshStore
    f.2.modCluster k fun c => c.modPlane (b.arr0 + i) fun _ => { Plane.reset with tag := f.1.tag }) s2

/-- A group is bound to context c of cluster k: GEN changes (R81, R221). On a halted chiplet the context halts (R490)
(DEDUCED, log 85). -/
def State.bindCtx (s : State) (l : Launch) (g k c : Nat) (b : Binding) : State :=
  let b' := { b with gen := (s.ctx k c).bnd.gen + 1, group := g }
  let x := Ctx.boundTo l b'
  let y := { x with markId := s.nextId }
  let x' := if s.forme.haltedChips.contains (k / 4) then { y with st := .halted, haltFrom := .ready } else y
  ((s.setCtx k c x').undefineClaims k b').modLaunch l.id fun l => { l with groups := sset .unbound l.groups g (.bound k c) }

/-! ## Writing a record -/

/-- Bytes with fields at rising offsets, zero between, n bytes in all. -/
def layout : Nat → List (Nat × List Byte) → Nat → List Byte
  | pos, [], n => List.replicate (n - pos) 0
  | pos, (o, bs) :: r, n => List.replicate (o - pos) 0 ++ bs ++ layout (o + bs.length) r n

/-- A register section (R504). -/
def section64 (bs : List Byte) : List Byte := bs ++ List.replicate (up64 bs.length - bs.length) 0

def Banks.sections (x : Banks) (v : Live) : List Byte :=
  section64 (v.s.map fun i => toBytes 8 (sget ⟨0, false⟩ x.s i).val.toNat).flatten ++
  section64 (v.a.map fun i => toBytes 8 (sget 0 x.a i).toNat).flatten ++
  section64 (v.k.map fun i => toBytes 4 (sget 0 x.k i).toNat).flatten ++
  section64 (v.l.map fun i => toBytes 8 (sget 0 x.l i).toNat).flatten ++
  section64 (v.v.map fun i => toBytes 128 (sget ⟨0, false⟩ x.v i).val.toNat).flatten ++
  section64 (v.hm.map fun i => toBytes 8 (sget 0 x.hm i).toNat ++ toBytes 8 (sget 0 x.hmSh i).toNat).flatten ++
  section64 (v.n.map fun i => toBytes 8 (sget 0 x.n i).toNat ++ toBytes 8 (sget 0 x.nSh i).toNat).flatten ++
  section64 (v.hc.map fun i => ((List.range 8).map fun w => toBytes 8 (sget 0 x.hc (8 * i + w)).toNat).flatten ++
    ((List.range 8).map fun w => toBytes 8 (sget 0 x.hcSh (8 * i + w)).toNat).flatten).flatten

/-- The stream-control section (R505). -/
def Banks.streamSection (x : Banks) (ctile : Nat) : List Byte :=
  layout 0 [(0, toBytes 4 x.slen.toNat), (4, toBytes 4 x.seedb.toNat), (8, toBytes 4 x.smode.toNat),
    (12, toBytes 4 x.eref.toNat), (16, toBytes 4 x.smarg.toNat), (20, toBytes 4 x.svmrg.toNat),
    (24, toBytes 4 x.sflg.toNat), (28, toBytes 4 x.cstat.toNat), (32, toBytes 8 x.sqry.toNat),
    (0x80, ((List.range ctile).map fun t => toBytes 4 (sget 0 x.tshape t).toNat).flatten)] 256

/-- Sticky bits of PSTAT in the order of NST: NSC, CLIP, SAT, RPL (R58, R363). -/
def nstOf (p : BitVec 32) : Nat :=
  (p.getLsbD 5).toNat * 8 + (p.getLsbD 4).toNat * 4 + (p.getLsbD 3).toNat * 2 + (p.getLsbD 6).toNat

/-- The 64-byte position of a plane (R363): of its nest, or of the one that pre-emption has stopped, or of the plane's latched
values. -/
def Plane.position (p : Plane) : List Byte :=
  let resume := p.stopped && p.last.isSome
  let cur := if p.nest.isSome then p.nest else if p.stopped then p.last else none
  let f {α : Type} (d : α) (g : Nest → α) : α := ((if p.nest.isSome then p.nest else p.last).map g).getD d
  let at' {α : Type} (d : α) (g : Nest → α) : α := (cur.map g).getD d
  let i (n : Nat) : Nat := at' (p.li.getD n 0) fun x => x.i.getD n 0
  toBytes 8 (i 0 + i 1 * 2 ^ 16 + i 2 * 2 ^ 32 + i 3 * 2 ^ 48) ++ toBytes 4 (i 4 + i 5 * 2 ^ 16) ++
  toBytes 4 (at' p.lq Nest.q) ++ toBytes 8 (at' p.seb.toNat Nest.seb) ++
  toBytes 8 p.eb.toNat ++ toBytes 8 (f 0 fun x => x.skip.toNat) ++ toBytes 4 (f 0 fun x => x.seed.toNat) ++
  toBytes 4 (f 0 Nest.j * 2 ^ 27 + at' p.lpass Nest.pass * 2 ^ 22 + p.leref.toNat * 2 ^ 12 +
    p.lsmode.toNat * 4 + f 0 fun x => x.hm.toNat) ++
  toBytes 4 (f 0 Nest.g * 2 ^ 29 + f 0 fun x => x.smarg.toNat) ++
  toBytes 4 (f 0 Nest.new * 2 ^ 11 + (f 0 fun x => (x.flag.map fun g => g.toNat * 32 + 16).getD 0) + nstOf p.pstat) ++
  toBytes 4 resume.toNat ++ toBytes 4 p.pstat.toNat

/-- The accumulators of a plane, row by row (R506). -/
def Plane.accBytes (p : Plane) : List Byte :=
  ((List.range (2 ^ 18)).map fun i => toBytes 6 (p.at (i / 512) (i % 512)).toNat).flatten

/-- Elements of a read galley's pattern that have been popped: its queued entries are fetched again (R169). -/
def Galley.popped (g : Galley) : Nat :=
  if g.kind = .rd then
    let e := 128 / g.pat.esz
    min g.pos (((g.pos + e - 1) / e - g.q.length) * e)
  else g.pos

/-- Fields side by side, the first lowest: width and value. -/
def packFields (fs : List (Nat × Nat)) : Nat := fs.foldr (fun f n => f.2 % 2 ^ f.1 + 2 ^ f.1 * n) 0

def BindKind.code : BindKind → Nat
  | .rd => 0
  | .wr => 1
  | .ldx => 2

/-- A galley's binding and position as 480 bits, in an order of the model's own; 0 where none is bound (log 61). -/
def galleyCode (g : Option Galley) : Nat :=
  match g with
  | none => 0
  | some x =>
    let p := x.pat
    packFields [(1, 1), (2, x.kind.code), (2, p.space), (2, p.esz.log2), (4, x.cls), (3, Hint.code x.hint), (64, p.base),
      (16, p.c0 - 1), (16, p.c1 - 1), (16, p.c2 - 1), (32, (p.s0 % 2 ^ 32).toNat), (32, (p.s1 % 2 ^ 32).toNat),
      (32, (p.s2 % 2 ^ 32).toNat), (49, x.popped), (64, x.bpc)]

/-- The galley of such bits, bound to context c. -/
def galleyOf (x c id : Nat) : Option Galley :=
  if !bitAt x 0 then none
  else
    let int (lo : Nat) : Int := toSigned 32 (bitsAt x lo 32)
    let kind : BindKind := if bitsAt x 1 2 = 0 then .rd else if bitsAt x 1 2 = 1 then .wr else .ldx
    let hint : Hint := ([.none, .nal, .nas, .byp] : List Hint).getD (bitsAt x 11 3) .none
    some ⟨c, kind, ⟨bitsAt x 14 64, bitsAt x 3 2, 2 ^ bitsAt x 5 2, bitsAt x 78 16 + 1, bitsAt x 94 16 + 1, bitsAt x 110 16 + 1,
      int 126, int 158, int 190⟩, bitsAt x 222 49, [], bitsAt x 7 4, hint, bitsAt x 271 64, id⟩

/-- The galley's section: the binding and position under a free mask, whose number is kept, then an LDX galley's entries
(R104, R169) (DESIGN CHOICE, log 61). -/
def State.galleySection (s : State) (g : Option Galley) : List Byte × State :=
  let es : List VWord := match g with
    | some x => if x.kind = .ldx then x.q.filterMap (·.2) else []
    | none => []
  let f := s.freshBits 480
  (toBytes 0x3C (f.1 ^^^ .ofNat 480 (galleyCode g)).toNat ++ toBytes 4 es.length ++ layout 0 [(0, (es.map vbytes).flatten)] 1024, f.2)

/-- A region's section (R165). -/
def Region.section (r : Region) : List Byte :=
  match r.mode with
  | .plain => r.store.read 0 (2 ^ 17)
  | m => layout 0 [(0, [if m = .stash then 1 else 2, if r.map.isSome then 1 else 0]),
      (8, toBytes 8 ((r.map.map (·.1)).getD 0))] (2 ^ 17)

/-- Writes of a group still owed, by class: released stores and copies (R103). -/
def State.owedCount (s : State) (launch group cls : Nat) : Nat :=
  (s.accs.filter fun a => a.owed && a.launch == launch && a.group == group && a.cls == cls && a.eng == 0 && !a.overAt 3).length +
    s.clusters.foldl (fun n e =>
      n + (e.2.copies.filter fun y => y.owed && y.bnd.launch == launch && y.bnd.group == group && y.stores.cls == cls).length) 0

/-- Deferred-fault entries in order of issue (R104, R447). -/
def insertDefer (d : Defer) : List Defer → List Defer
  | [] => [d]
  | e :: es => if d.ord < e.ord then d :: e :: es else e :: insertDefer d es
def sortDefers (ds : List Defer) : List Defer := ds.foldr insertDefer []

/-- The header (R104). -/
def State.saveHeader (s : State) (k c rsn : Nat) (v : Live) (all : Bool) : List Byte :=
  let x := s.ctx k c
  let b := x.bnd
  let r := x.regs
  let nsect := (v.planes.foldl (fun n p => n + 2 ^ p) 0) + all.toNat * 16
  let bits (n : Nat) (f : Nat → Bool) : Nat := (List.range n).foldl (fun a i => a + (f i).toNat * 2 ^ i) 0
  layout 0 [(0x000, toBytes 4 1), (0x004, toBytes 4 rsn), (0x008, toBytes 8 b.handle), (0x010, toBytes 4 b.group),
    (0x014, toBytes 4 k), (0x018, toBytes 8 x.rpc), (0x020, toBytes 8 x.rmpc), (0x028, toBytes 2 x.lmidx.toNat),
    (0x02C, toBytes 4 (x.stopWait.toNat + x.stopNr0.toNat * 2)),
    (0x030, ((List.range 16).map fun i => toBytes 2 (min 65535 (s.owedCount b.launch b.group i))).flatten),
    (0x050, toBytes 8 r.f.toNat),
    (0x058, toBytes 8 (r.p.toNat / 2 + r.dom.toNat * 2 ^ 15 + r.lead.toNat * 2 ^ 18 + r.leadpos.toNat * 2 ^ 25)),
    (0x060, toBytes 4 r.fstat.toNat),
    (0x064, toBytes 4 (if x.blk.on then min x.blk.count 65535 * 2 ^ 16 + x.blk.d else 0)),
    (0x068, toBytes 8 (bits 64 fun i => (sget ⟨0, false⟩ r.s i).psn)),
    (0x070, toBytes 64 (bits 512 fun i => (sget ⟨0, false⟩ r.v i).psn)),
    (0x0B0, toBytes 16 ((List.range 8).foldl (fun a i => a + (sget 0 r.z i).toNat * 2 ^ (9 * i)) 0)),
    (0x0C0, toBytes 8 x.tvec.toNat), (0x0C8, toBytes 8 x.erpc.toNat), (0x0D0, toBytes 8 x.ermpc.toNat),
    (0x0D8, toBytes 4 x.tcause.toNat), (0x0DC, toBytes 4 x.trapm.toNat), (0x0E0, toBytes 8 x.tinfo.toNat),
    (0x0E8, toBytes 4 nsect),
    (0x0F0, ((sortDefers x.defer).map fun d =>
      toBytes 8 (x.deferInfo d).toNat ++ toBytes 4 d.tcause.toNat ++ toBytes 4 (1 + d.dest.toNat * 2)).flatten)] 0x1000

/-- The livemap record of the restart point; nothing at the restart point of a binding (R90, R104, R509). -/
def State.readLivemap (s : State) (l : Launch) (idx : Nat) : Option (Nat × State) :=
  if idx = 0xFFFF then some (0, s)
  else (s.vread l.asid (l.kimage + l.lmoff + 128 * idx) 128).map fun r => (ofBytes r.1, r.2)

/-- Relative planes of a context that own a nest, queued ones too (R363). -/
def State.ownedPlanes (s : State) (k c : Nat) : List Nat :=
  let b := (s.ctx k c).bnd
  (List.range b.carr).filter fun i => ((s.cluster k).plane (b.arr0 + i)).owner.any fun n => n.ctx == c

/-- What the record does not hold of the nests that pre-emption stopped, by relative plane (R65, log 93). -/
def State.stoppedNests (s : State) (k : Nat) (b : Binding) : List (Nat × Nat × Nest × BitVec 48) :=
  (List.range b.carr).filterMap fun i =>
    let p := (s.cluster k).plane (b.arr0 + i)
    if p.stopped then p.last.map fun n => (b.group, i, n, p.seb) else none

/-- The sections of a group's galleys, and the numbers of the free values in them (R104, log 61). -/
def State.galleySections (s : State) (cl : Cluster) (b : Binding) (gals : List Nat) : List Byte × List (Nat × Nat × Nat) × State :=
  gals.foldl (fun t i =>
    let g := t.2.2.galleySection (cl.galleys.lookup (b.gal0 + i))
    (t.1 ++ g.1, t.2.1 ++ [(b.group, i, t.2.2.free)], g.2)) ([], [], s)

/-- Write the save record of the context's group; none when it cannot be written (R104, R465) (DESIGN CHOICE, log 61). -/
def State.writeRecord (s : State) (l : Launch) (k c rsn : Nat) : Option State :=
  let x := s.ctx k c
  let b := x.bnd
  (s.readLivemap l x.lmidx.toNat).bind fun m =>
    let stopped := x.nestsAt.getD []
    let all := !stopped.isEmpty
    let v := (liveOf m.1 b.carr b.ctile b.creg b.cgal).withPlanes stopped all
    let cl := m.2.cluster k
    let planes := (v.planes.map fun i =>
      let p := cl.plane (b.arr0 + i)
      p.position ++ p.accBytes).flatten
    let gals := m.2.galleySections cl b v.gals
    let tiles := (v.tiles.map fun i => (cl.tile (b.tile0 + i)).read 0 0xA000).flatten
    let regs := (v.regs.map fun i => (cl.region (b.reg0 + i)).section).flatten
    let bs := m.2.saveHeader k c rsn v all ++ x.regs.sections v ++ x.regs.streamSection b.ctile ++ planes ++ gals.1 ++ tiles ++ regs
    if l.savstride < bs.length then none
    else
      let modes := v.regs.map fun i => (b.group, i, (cl.region (b.reg0 + i)).mode)
      (gals.2.2.vwrite l.asid (l.recordAt b.group) bs).map fun s1 => s1.modLaunch l.id fun l =>
        { l with galleys := l.galleys.filter (fun e => e.1 != b.group) ++ gals.2.1,
                 nests := l.nests.filter (fun e => e.1 != b.group) ++ s.stoppedNests k b,
                 modes := l.modes.filter (fun e => e.1 != b.group) ++ modes }

/-! ## SAVE_RECORD_WRITTEN (R101 to R104, R124, R474) -/

/-- Have the engines finished with what a stopped context owns (R102, R103, R169, R387)? -/
def State.saveReady (s : State) (k c : Nat) : Bool :=
  s.exitDone k c &&
    (s.cluster k).galleys.all (fun e => e.2.ctx != c || e.2.q.all fun q => q.2.isSome) &&
    s.accs.all fun a => !(a.cl == k && a.ctx == c && a.gen == (s.ctx k c).bnd.gen && !a.over && match a.dst with
      | .loc _ => true
      | _ => false)

/-- The released stores and the copies of a stopped group that are in flight become owed (R103). -/
def State.markOwed (s : State) (k c : Nat) : State :=
  let b := (s.ctx k c).bnd
  let mine (y : Copy) : Bool := y.ctx == c && y.bnd.launch == b.launch && y.bnd.group == b.group
  let s1 := s.modAccs (fun a => a.cl == k && a.ctx == c && a.gen == b.gen && a.isStore && a.eng == 0 && !a.over && a.st != .held)
    fun a => { a with owed := true }
  s1.modCluster k fun x => { x with copies := mapIf mine (fun y => { y with owed := true }) x.copies }

/-- The contexts of a launch's bound groups. -/
def Launch.bound (l : Launch) : List (Nat × Nat × Nat) :=
  l.groups.filterMap fun e => match e.2 with
    | .bound k c => some (e.1, k, c)
    | _ => none

/-- A stopped context is free: its group has this state now, and the requests to stop it are met (R123, R126). -/
def State.groupLeft (s : State) (k c : Nat) (g : GroupSt) : State :=
  let b := (s.ctx k c).bnd
  let s1 := s.modLaunch (b.launch - 1) fun l => { l with groups := sset .unbound l.groups b.group g }
  let mine (q : StopReq) : Bool := q.cl == k && q.ctx == c
  (s1.modForme fun m =>
    { m with stops := m.stops.filter fun q => !mine q,
             holds := m.holds ++ (m.stops.filter mine).filterMap fun q => q.by'.map fun l => ⟨l, k, c, b⟩ }).freeCtx k c
    (match g with
      | .saved _ => true
      | _ => false)

/-- Does a stopped member of a COR launch still hold for the others (R101)? -/
def State.corHolds (s : State) (l : Launch) : Bool :=
  l.cor && l.bound.any fun e => (s.ctx e.2.1 e.2.2).st != .saving

/-- The end of a save: the record is written and the group is saved, or, after an unrestartable fault, gone; a launch
that has faulted frees its other groups without a record; a record that cannot be written ends the launch
(DEDUCED, log 84). -/
def State.finishSave (s : State) (l : Launch) (k c : Nat) : State :=
  let x := s.ctx k c
  if l.faulted.isSome ∧ x.srsn ≠ 2 then s.groupLeft k c .exited
  else
    let s1 := (s.deliverAtoms k c 0xFFFF).markOwed k c
    match s1.writeRecord l k c x.srsn with
    | some s2 => s2.groupLeft k c (if x.srsn = 2 then .exited else .saved k)
    | none => (s1.groupLeft k c .exited).soon [.launchFault l.id]

/-- The regions of a stopped group are written back, each line by its virtual address, as writes of the group; ENGINE for
one that faults (R103, R165, R468). None while a writeback must wait. -/
def State.saveDrain (s : State) (k c : Nat) : Option State :=
  (s.drainClaims k (s.ctx k c).bnd).map fun t => t.2.foldl (fun s va =>
    s.wbFault k c va) t.1

/-- SAVE_RECORD_WRITTEN: once its nests have stopped, its local copies have landed, its regions are written back and its
fellow members have stopped, the context's record is written and the context is FREE. The planes that own a nest at the stop
are noted first (R363). Nothing is written while the chiplet's arc stop injects nothing (R22). -/
def execSaveRecordWritten (k : ClusterNo) (c : CtxNo) (s : State) : Out :=
  let x := s.ctx k.toNat c.toNat
  if s.nclus ≤ k.toNat then noUnit
  else if x.st ≠ .saving ∨ s.injects k.toNat = false then .next s
  else match s.launch? (x.bnd.launch - 1) with
    | none => .next (s.freeCtx k.toNat c.toNat false)
    | some l =>
      let s0 := s.modCtx k.toNat c.toNat fun y => { y with nestsAt := some (y.nestsAt.getD (s.ownedPlanes k.toNat c.toNat)) }
      if x.srsn = 1 ∧ l.faulted.isNone ∧ s.corHolds l then .next s0
      else
        let s1 := s0.modCluster k.toNat fun y => y.stopNests c.toNat false
        if s1.saveReady k.toNat c.toNat && s1.spanFree l.asid (l.recordAt x.bnd.group) l.savstride then
          match s1.saveDrain k.toNat c.toNat with
          | some s2 => .next ((s2.finishSave l k.toNat c.toNat).soon [.launchRetirement l.id])
          | none => .next s1
        else .next s1

/-! ## OWED_WRITE_PERFORMED (R103) -/

/-- OWED_WRITE_PERFORMED: a released store of a saved group has performed at MOD; its count falls. -/
def execOwedWritePerformed (n : Nat) (s : State) : Out :=
  match s.acc? n with
  | none => .next s
  | some a =>
    if a.owed && a.overAt 3 && a.eng == 0 && a.st != .refused && s.owedFree a.launch a.group then
      .next ((if a.accepted then s.setAcc n fun b => { b with owed := false }
        else { s with accs := s.accs.filter fun b => b.id != n }).owedDown a.launch a.group a.cls)
    else .next s

/-! ## Resumption (R105, R508) -/

/-- A field of a header or section read as a number. -/
def fieldAt (x o n : Nat) : Nat := bitsAt x (8 * o) (8 * n)

/-- The registers of a section, each with its value, and the bytes after it (R504). -/
def readSection (w : Nat) (is : List Nat) (bs : List Byte) : List (Nat × Nat) × List Byte :=
  (is.zipIdx.map fun e => (e.1, ofBytes ((bs.drop (w * e.2)).take w)), bs.drop (up64 (w * is.length)))

/-- The banks of a record: those of the header and the sections; registers not live are zero (R104, R105, R504, R505).
`base` is the state of R81 where the record was written before the first MARK (R509). -/
def restoreBanks (base : Banks) (h : Nat) (v : Live) (ctile : Nat) (bs : List Byte) : Banks × List Byte :=
  let r1 := readSection 8 v.s bs
  let r2 := readSection 8 v.a r1.2
  let r3 := readSection 4 v.k r2.2
  let r4 := readSection 8 v.l r3.2
  let r5 := readSection 128 v.v r4.2
  let r6 := readSection 16 v.hm r5.2
  let r7 := readSection 16 v.n r6.2
  let r8 := readSection 128 v.hc r7.2
  let sc := ofBytes (r8.2.take 256)
  let val (xs : List (Nat × Nat)) (i d : Nat) : Nat := (xs.lookup i).getD d
  let put {w : Nat} (xs : List (Nat × Nat)) (f : Nat → Nat) : Sparse (BitVec w) :=
    xs.foldl (fun m e => sset 0 m e.1 (.ofNat w (f e.2))) []
  let words (xs : List (Nat × Nat)) (lo : Nat) : Sparse Word :=
    xs.foldl (fun m e => (List.range 8).foldl (fun m w => sset 0 m (8 * e.1 + w) (.ofNat 64 (fieldAt e.2 (lo + 8 * w) 8))) m) []
  let ctl := fieldAt h 0x58 8
  ({ s := (List.range 64).foldl (fun m i => sset ⟨0, false⟩ m i
        ⟨.ofNat 64 (val r1.1 i (sget ⟨0, false⟩ base.s i).val.toNat), bitAt (fieldAt h 0x68 8) i⟩) [],
     v := (List.range 512).foldl (fun m i => sset ⟨0, false⟩ m i ⟨.ofNat 1024 (val r5.1 i 0), bitAt (fieldAt h 0x70 64) i⟩) [],
     k := put r3.1 id, a := put r2.1 id, l := put r4.1 id, p := .ofNat 16 (bitsAt ctl 0 15 * 2), f := .ofNat 64 (fieldAt h 0x50 8),
     z := (List.range 8).foldl (fun m i => sset 0 m i (.ofNat 9 (fieldAt h 0xB0 16 / 2 ^ (9 * i)))) [],
     hm := put r6.1 fun x => fieldAt x 0 8, hmSh := put r6.1 fun x => fieldAt x 8 8,
     n := put r7.1 fun x => fieldAt x 0 8, nSh := put r7.1 fun x => fieldAt x 8 8, hc := words r8.1 0, hcSh := words r8.1 64,
     slen := .ofNat 5 (fieldAt sc 0 4), seedb := .ofNat 32 (fieldAt sc 4 4), smode := .ofNat 10 (fieldAt sc 8 4),
     eref := .ofNat 10 (fieldAt sc 12 4), smarg := .ofNat 28 (fieldAt sc 16 4), svmrg := .ofNat 11 (fieldAt sc 20 4),
     sflg := .ofNat 32 (fieldAt sc 24 4), sqry := .ofNat 64 (fieldAt sc 32 8), fstat := .ofNat 32 (fieldAt h 0x60 4),
     cstat := .ofNat 32 (fieldAt sc 28 4),
     tshape := (List.range ctile).foldl (fun m t => sset 0 m t (.ofNat 32 (fieldAt sc (0x80 + 4 * t) 4))) [],
     dom := .ofNat 3 (bitsAt ctl 15 3), lead := .ofNat 7 (bitsAt ctl 18 7), leadpos := .ofNat 11 (bitsAt ctl 25 11) },
   r8.2.drop 256)

/-- The accumulators of a section (R506). -/
def readAcc (bs : List Byte) : Sparse (BitVec 48) :=
  (List.range (2 ^ 18)).filterMap fun i =>
    let v : BitVec 48 := .ofNat 48 (ofBytes ((bs.drop (6 * i)).take 6))
    if v = 0 then none else some (i, v)

/-- PSTAT's sticky bits from NST. -/
def pstatOfNst (n : Nat) : Nat := bitsAt n 3 1 * 32 + bitsAt n 2 1 * 16 + bitsAt n 1 1 * 8 + bitsAt n 0 1 * 64

/-- A nest goes on from its saved position: it owns its plane from now, holds its operand tiles, and is charged
(R105, R170, R432, R508). -/
def State.restartNest (s : State) (k pl : Nat) (n : Nest) : State :=
  let tiles := ((reachA n.hmv n.nv (shapeOf n.ashape).cols ++ reachB n.hmv n.nv (shapeOf n.bshape).rows).eraseDups).map (n.tile0 + ·)
  let s1 := s.modCluster k fun c =>
    { c.modPlane pl fun p => { p with nest := some (({ n with sstop := false, pstop := false } : Nest).timed s.cycle), stopped := false } with
      rsb := c.rsb ++ tiles.map fun t => RsEntry.of (4 * k + n.ctx) n.id false 2 (t * 0xA000) ((t + 1) * 0xA000) }
  (s1.chargeNest k n.new).soon [.nestKstep (.ofNat 9 k) (.ofNat 2 pl)]

/-- Restore one plane from its section (R508). The shapes of SGO, SEBn, the order and place of the SGO, and whether a sticky
bit has been set since it, come from beside the record, which does not hold them (R65, R73, R362) (DEDUCED, log 93). -/
def State.restorePlane (s : State) (l : Launch) (k c rel : Nat) (bs : List Byte) : State :=
  let x := s.ctx k c
  let b := x.bnd
  let pl := b.arr0 + rel
  let h := ofBytes (bs.take 64)
  let ncfg := fieldAt h 0x2C 4
  let nst := fieldAt h 0x34 4
  let psave := fieldAt h 0x3C 4
  let i := (List.range 4).map (fun j => bitsAt (fieldAt h 0 8) (16 * j) 16) ++ [bitsAt (fieldAt h 8 4) 0 16, bitsAt (fieldAt h 8 4) 16 16]
  let pass := bitsAt ncfg 22 5
  let smode : BitVec 10 := .ofNat 10 (bitsAt ncfg 2 10)
  let eref : BitVec 10 := .ofNat 10 (bitsAt ncfg 12 10)
  let p0 : Plane := { Plane.reset with acc := readAcc (bs.drop 64), eb := .ofNat 56 (fieldAt h 0x18 8), leref := eref, lsmode := smode }
  if bitAt (fieldAt h 0x38 4) 0 then
    let hmv := sget 0 x.regs.hm (ncfg % 4)
    let old := (l.nests.find? fun e => e.1 == b.group && e.2.1 == rel).map fun e => e.2.2
    let of {α : Type} (d : α) (g : Nest × BitVec 48 → α) : α := (old.map g).getD d
    let n : Nest :=
      { id := s.nextId, ctx := c, hm := .ofNat 2 ncfg, hmv := hmv, nv := (List.range 6).map fun l => sget 0 x.regs.n l,
        ashape := of (sget 0 x.regs.tshape (atileOf hmv)) (·.1.ashape), bshape := of (sget 0 x.regs.tshape (btileOf hmv)) (·.1.bshape),
        tile0 := b.tile0,
        skip := .ofNat 64 (fieldAt h 0x20 8), seed := .ofNat 32 (fieldAt h 0x28 4), j := bitsAt ncfg 27 5, eref := eref,
        smode := smode, g := bitsAt (fieldAt h 0x30 4) 29 3, smarg := .ofNat 28 (fieldAt h 0x30 4), new := bitsAt nst 11 8,
        flag := if bitAt nst 4 then some (.ofNat 6 (bitsAt nst 5 6)) else none, i := i, q := fieldAt h 12 4, pass := pass,
        seb := fieldAt h 0x10 8 % 2 ^ 48, endPass := false, sstop := false, pstop := false, apar := false,
        dirty := of (bitsAt nst 1 3 != 0) (·.1.dirty),
        bpc := of x.rpc (·.1.bpc), ord := of x.ord (·.1.ord), retries := 0, due := 0 }
    let done := if smode.getLsbD 3 ∧ 6 < pass then pass - 1 else 0
    ({ s with nextId := s.nextId + 1 }.modCluster k fun cl => cl.modPlane pl fun _ =>
      { p0 with pstat := .ofNat 32 (2 + pstatOfNst nst + done * 2 ^ 16), seb := of 0 (·.2) }).restartNest k pl n
  else
    s.modCluster k fun cl => cl.modPlane pl fun _ =>
      { p0 with pstat := .ofNat 32 psave &&& ~~~2, seb := .ofNat 48 (fieldAt h 0x10 8), lpass := pass, lq := fieldAt h 12 4, li := i }

/-- Restore one region: its bytes, or its mode and mapping (R165). -/
def restoreRegion (mode : RegMode) (asid : Nat) (bs : List Byte) (r : Region) : Region :=
  let map := if ofBytes ((bs.drop 1).take 1) % 2 = 1 then some (ofBytes ((bs.drop 8).take 8), asid) else none
  match mode with
  | .plain => { r with store := r.store.write 0 bs }
  | m => { r with mode := m, map := map }

/-- Restore the galleys of a group: each bound again from its section, an LDX galley with its entries (R105, R169). -/
def State.restoreGalley (s : State) (l : Launch) (k c rel : Nat) (bs : List Byte) : State :=
  let b := (s.ctx k c).bnd
  let key := ((l.galleys.find? fun e => e.1 == b.group && e.2.1 == rel).map (·.2.2)).getD 0
  match galleyOf (BitVec.ofNat 480 (ofBytes (bs.take 0x3C)) ^^^ Config.freeBits 480 key).toNat c s.nextId with
  | none => s
  | some g =>
    let n := ofBytes ((bs.drop 0x3C).take 4)
    let q : List (Nat × Option VWord) := if g.kind = .ldx then
        (List.range (min n 8)).map fun i => (s.nextId + i, some (.ofNat 1024 (ofBytes ((bs.drop (64 + 128 * i)).take 128)))) else []
    let s1 := s.modCluster k fun cl => { cl with galleys := sinsert (serase cl.galleys (b.gal0 + rel)) (b.gal0 + rel) { g with q := q } }
    ({ s1 with nextId := s.nextId + 8 } : State).soon [.galleyFill (.ofNat 9 k) (.ofNat 4 (b.gal0 + rel))]

/-- The mode of a saved region. -/
def Launch.modeOf (l : Launch) (g r : Nat) : RegMode := ((l.modes.find? fun e => e.1 == g && e.2.1 == r).map (·.2.2)).getD .plain

/-- A deferred-fault entry of the record: one reported from a destination is due at the first MARK (R104, R446). -/
def readDefer (h i : Nat) : Option Defer :=
  let o := 0xF0 + 16 * i
  if bitAt (fieldAt h (o + 12) 4) 0 then
    let dest := bitAt (fieldAt h (o + 12) 4) 1
    let page := if !dest && fieldAt h (o + 8) 2 == 0x22 then some (bitsAt (fieldAt h o 8) 0 36) else none
    some ⟨.ofNat 32 (fieldAt h (o + 8) 4), .ofNat 64 (fieldAt h o 8), dest, i, page, false⟩
  else none

/-- The context's own fields (R85, R104, R105). -/
def Ctx.restore (x : Ctx) (h : Nat) (r : Banks) : Ctx :=
  let blk := fieldAt h 0x64 4
  let ds := (List.range 8).filterMap (readDefer h)
  { x with
    regs := r, shadow := r, nr := false, rpc := fieldAt h 0x18 8, rmpc := fieldAt h 0x20 8, lmidx := .ofNat 16 (fieldAt h 0x28 2),
    pc := fieldAt h 0x18 8, mpc := fieldAt h 0x20 8,
    blk := if blk = 0 then Block.off else ⟨true, blk / 2 ^ 16, blk % 2 ^ 16, 0, blk % 2 ^ 16 < blk / 2 ^ 16, ds.any Defer.isBovr⟩,
    defer := ds, owed := (List.range 16).foldl (fun m i => sset 0 m i (fieldAt h (0x30 + 2 * i) 2)) [],
    tvec := .ofNat 64 (fieldAt h 0xC0 8), erpc := .ofNat 64 (fieldAt h 0xC8 8), ermpc := .ofNat 64 (fieldAt h 0xD0 8),
    tcause := .ofNat 32 (fieldAt h 0xD8 4), trapm := bitAt (fieldAt h 0xDC 4) 0, tinfo := .ofNat 64 (fieldAt h 0xE0 8), ord := 8 }

/-- What reached the group while it was saved: flags, what its owed copies leave in CSTAT, and faults kept for it (R103, R277,
R348, R447). -/
def State.catchUp (s : State) (l : Launch) (k c g : Nat) : State :=
  let mine (e : Nat × Nat × FReg) : Bool := e.1 == l.id + 1 && e.2.1 == g
  let s1 := (s.forme.savedFlags.filter mine).foldl (fun s e => s.setFlag k c e.2.2.toNat true) s
  let ours (e : Nat × Nat × BitVec 32 × BitVec 32) : Bool := e.1 == l.id + 1 && e.2.1 == g
  let cstat := (s1.forme.savedCstat.filter ours).foldl (fun v e => (v &&& e.2.2.1) ||| e.2.2.2) (s1.ctx k c).regs.cstat
  let s2 := (s1.modForme fun m => { m with
    savedFlags := m.savedFlags.filter fun e => !mine e, savedCstat := m.savedCstat.filter fun e => !ours e }).modCtx k c fun x =>
      { x with regs := { x.regs with cstat := cstat }, shadow := { x.shadow with f := x.regs.f, cstat := cstat } }
  ((l.kept.filter fun e => e.1 == g).foldl (fun s e => s.defer k c { e.2 with ord := 8 }) s2).modLaunch l.id fun l =>
    { l with kept := l.kept.filter fun e => e.1 != g, galleys := l.galleys.filter (fun e => e.1 != g), nests := l.nests.filter (fun e => e.1 != g),
             modes := l.modes.filter fun e => e.1 != g }

/-- Resume the group bound to context c of cluster k from its record; none when it cannot be read (R105, R465). -/
def State.resume (s : State) (l : Launch) (k c : Nat) : Option State :=
  let x := s.ctx k c
  let b := x.bnd
  (s.vread l.asid (l.recordAt b.group) 0x1000).bind fun hd =>
    let h := ofBytes hd.1
    let idx := fieldAt h 0x28 2
    (hd.2.readLivemap l idx).bind fun m =>
      let v0 := liveOf m.1 b.carr b.ctile b.creg b.cgal
      let v := { v0.withPlanes [] (bitAt (fieldAt h 0xE8 4) 4) with planes := setBits (fieldAt h 0xE8 4) 0 4 }
      (m.2.vread l.asid (l.recordAt b.group + 0x1000) (v.size - 0x1000)).map fun body =>
        let r := restoreBanks (if idx = 0xFFFF then x.regs else Banks.zero) h v b.ctile body.1
        let s1 := body.2.modCtx k c fun x => x.restore h r.1
        let p := v.planes.foldl (fun (t : List Byte × State) i =>
          (t.1.drop (64 + 6 * 2 ^ 18), t.2.restorePlane l k c i (t.1.take (64 + 6 * 2 ^ 18)))) (r.2, s1)
        let g := v.gals.foldl (fun (t : List Byte × State) i =>
          (t.1.drop 1088, t.2.restoreGalley l k c i (t.1.take 1088))) p
        let t := v.tiles.foldl (fun (t : List Byte × State) i =>
          (t.1.drop 0xA000, t.2.modCluster k fun cl => cl.tileWrite ((b.tile0 + i) * 0xA000) (t.1.take 0xA000))) g
        let q := v.regs.foldl (fun (t : List Byte × State) i =>
          let bs := t.1.take (2 ^ 17)
          (t.1.drop (2 ^ 17), t.2.modCluster k fun cl => cl.modRegion (b.reg0 + i) (restoreRegion (l.modeOf b.group i) b.asid bs))) t
        q.2.catchUp l k c b.group

end Sys2Proof.Machine
end

