-- ==== Sys2Proof/Machine/Batch.lean ====
section
/-!
DEFINITION. The conflict-batching units (R129 to R149, R476, R477): publication, admission, the scan that forms a group,
opening, handing out, counting done.
-/
namespace Sys2Proof.Machine

/-- CBERR is set and recorded: the error bits, with CBHEAD (R464, R476). -/
def State.cbFail (s : State) (u bits : Nat) : State :=
  let x := s.unit u
  let e := x.cberr ||| .ofNat 32 bits
  let h := ((x.launch.bind s.launch?).map (·.handle)).getD 0
  (s.modUnit u fun x => { x with cberr := e }).logErr
    ⟨0x0020, 0, u, h, 0xFFFFFFFF, 1, 0, .ofNat 192 (e.toNat % 32 + x.head.toNat * 2 ^ 64)⟩

/-- CBTAIL_WRITE: publishes records, or sets TOVR when the tail would pass the ring; ignored while the unit is unbound
(R131, R133, R476). -/
def execCbtailWrite (u : BitVec 2) (v : BitVec 64) (s : State) : Out :=
  let x := s.unit u.toNat
  let t : BitVec 32 := v.setWidth 32
  if x.launch.isNone then .next s
  else if 2 ^ x.rlog < (t - x.head).toNat then .next (s.cbFail u.toNat 8)
  else .next ((s.modUnit u.toNat fun x => { x with tail := t }).soon [.cbRecordAdmit u])

/-- CBERR_WRITE: clears the bits written as 1; admission resumes when none is left (R476). -/
def execCberrWrite (u : BitVec 2) (v : BitVec 64) (s : State) : Out :=
  if (s.unit u.toNat).launch.isNone then .next s
  else .next ((s.modUnit u.toNat fun x => { x with cberr := x.cberr &&& ~~~(v.setWidth 32) }).soon [.cbRecordAdmit u])

/-- The CBERR bits of a record's failed checks: SEQ, NB, RSV (R134, R476). -/
def recordErrs (r n : Nat) : Nat :=
  (decide (bitsAt r 48 16 ≠ n % 2 ^ 16)).toNat + (decide (bitsAt r 32 3 = 0 ∨ 4 < bitsAt r 32 3)).toNat * 2 +
    (decide (bitsAt r 35 5 ≠ 0 ∨ bitsAt r 41 7 ≠ 0 ∨ bitsAt r 160 32 ≠ 0)).toNat * 4

/-- CB_RECORD_ADMIT: the record at CBHEAD is checked and enters the window (R135). -/
def execCbRecordAdmit (u : BitVec 2) (s : State) : Out :=
  let x := s.unit u.toNat
  if x.launch.isNone || x.cberr != 0 || x.sealed || x.head == x.tail || x.win ≤ x.window.length then .next s
  else
    let a := x.rbase + 32 * (x.head.toNat % 2 ^ x.rlog)
    match s.agentRead a 32 with
    | none => .next s
    | some rd =>
    let s := rd.2
    if a < 0x200000000000 && s.linePoison (s.linear a) then .next (s.cbFail u.toNat 16)
    else
      let r := ofBytes rd.1
      let e := recordErrs r x.head.toNat
      if e ≠ 0 then .next (s.cbFail u.toNat e)
      else
        let c : Constraint := ⟨.ofNat 32 r, bitsAt r 32 3, .ofNat 96 (r / 2 ^ 64), .ofNat 64 (r / 2 ^ 192)⟩
        .next ((s.modUnit u.toNat fun x => { x with head := x.head + 1, sealed := bitAt r 40, window := x.window ++ [c] }).soon
          [.cbGroupScan u, .cbRecordAdmit u])

/-- The scan of R137: the members placed so far, the bodies held and blocked, and the constraints left. -/
structure Scan where
  grp : List Constraint
  held : List Nat
  blocked : List Nat
  left : List Constraint
deriving DecidableEq, Repr

/-- One constraint examined: placed unless it meets a body held or blocked, or the group is full. -/
def Scan.examine (g : Nat) (t : Scan) (c : Constraint) : Scan :=
  if t.grp.length = g then { t with left := t.left ++ [c] }
  else if c.bodies.any fun b => t.held.contains b || t.blocked.contains b then
    { t with blocked := t.blocked ++ c.bodies, left := t.left ++ [c] }
  else { t with grp := t.grp ++ [c], held := t.held ++ c.bodies }

/-- The group that a scan of a window forms, and the window left. -/
def scanWindow (g : Nat) (w : List Constraint) : Scan := w.foldl (Scan.examine g) ⟨[], [], [], []⟩

/-- Placed constraints not yet retired (R136). -/
def CbUnit.stored (x : CbUnit) : Nat := x.groups.foldl (fun n g => n + g.members.length) 0

/-- May a scan start (R136)? -/
def CbUnit.mayScan (x : CbUnit) : Bool :=
  x.launch.isSome && x.cberr == 0 && !x.window.isEmpty && (x.window.length == x.win || x.sealed) &&
    decide (x.stored + x.gmax ≤ 4096) && decide (x.nfq < 32)

/-- CB_GROUP_SCAN: the window is scanned and one group formed (R137). -/
def execCbGroupScan (u : BitVec 2) (s : State) : Out :=
  let x := s.unit u.toNat
  if !x.mayScan then .next s
  else
    let t := scanWindow x.gmax x.window
    let g : CbGroup := ⟨x.gform.toNat, false, t.grp.map fun c => (c, false, false)⟩
    .next ((s.modUnit u.toNat fun x => { x with window := t.left, groups := x.groups ++ [g], gform := x.gform + 1 }).soon
      [.cbGroupOpen u, .cbRecordAdmit u])

/-- The bodies of a group. -/
def CbGroup.bodies (g : CbGroup) : List Nat := (g.members.map fun m => m.1.bodies).flatten

/-- CB_GROUP_OPEN: the next group opens when fewer than 16 are open and none of its bodies is held (R140). -/
def execCbGroupOpen (u : BitVec 2) (s : State) : Out :=
  let x := s.unit u.toNat
  match x.groups.find? fun g => !g.isOpen with
  | none => .next s
  | some g =>
    if x.nopen < 16 && g.bodies.all fun b => !x.held.contains b then
      .next ((s.modUnit u.toNat fun x =>
        { x with groups := mapIf (fun h => h.gno == g.gno) (fun h => { h with isOpen := true }) x.groups,
                 held := x.held ++ g.bodies.eraseDups, gopen := x.gopen + 1 }).soon [.cbGroupScan u, .cbGroupOpen u, .cbHandout u])
    else .next s

/-- The handout of member i of group g, 32 bytes (R141). -/
def handout (g : CbGroup) (i : Nat) (c : Constraint) : List Byte :=
  toBytes 4 c.cid.toNat ++ toBytes 1 c.nb ++ toBytes 1 0 ++ toBytes 2 0 ++ toBytes 12 c.body.toNat ++
    toBytes 4 (g.gno % 2 ^ 23 * 512 + i) ++ toBytes 8 c.pay.toNat

/-- The first member not handed out of an open group, with its index. -/
def CbGroup.next (g : CbGroup) : Option (Nat × Constraint) :=
  if g.isOpen then (g.members.zipIdx.find? fun m => !m.1.2.1).map fun m => (m.2, m.1.1) else none

/-- Mark a member. -/
def CbGroup.mark (g : CbGroup) (i : Nat) (f : Bool × Bool → Bool × Bool) : CbGroup :=
  { g with members := g.members.zipIdx.map fun m => if m.2 = i then (m.1.1, f m.1.2) else m.1 }

/-- The answer of a unit to a CBTAKE, and the unit after it (R141). -/
def CbUnit.answer (x : CbUnit) : List Byte × CbUnit :=
  match x.groups.findSome? fun g => g.next.map fun m => (g, m) with
  | some (g, i, c) =>
    (handout g i c, { x with groups := mapIf (fun h => h.gno == g.gno) (fun h => h.mark i fun b => (true, b.2)) x.groups })
  | none => (toBytes 5 0 ++ toBytes 1 (if x.exhausted then 2 else 1) ++ toBytes 26 0, x)

/-- The plane of a message of cluster k: its stop number mod 4 (R16). -/
def State.msgPlane (s : State) (k : Nat) : Nat := s.arcStop (k / 4) % 4

/-- The request that a unit answers next: of those that arrived in an earlier cycle the first, within a cycle that of the
lowest plane (R141) (DEDUCED, log 90). -/
def State.nextTake (s : State) (x : CbUnit) : Option Access :=
  let xs := x.takes.filterMap fun r => match r.arrived, s.acc? r.access with
    | some t, some a => if t < s.cycle then some (t, s.msgPlane a.cl, a) else none
    | _, _ => none
  (xs.foldl (fun o e => match o with
    | some y => if e.1 < y.1 ∨ (e.1 = y.1 ∧ e.2.1 < y.2.1) then some e else some y
    | none => some e) none).map (·.2.2)

/-- CB_HANDOUT: the CBTAKE that arrived first is answered (R141, R142). -/
def execCbHandout (u : BitVec 2) (s : State) : Out :=
  let x := s.unit u.toNat
  match s.nextTake x with
  | none => .next (s.modUnit u.toNat fun x => { x with takes := x.takes.filter fun r => (s.acc? r.access).isSome })
  | some a =>
    let t := x.answer
    .next (((s.modUnit u.toNat fun _ => { t.2 with takes := t.2.takes.filter fun r => r.access != a.id }).setAcc a.id
      fun b => { b with data := t.1 }).performed { a with data := t.1 })

/-- Does a TAG name a handed-out, unfinished member of an open group: the group and the index (R143)? -/
def CbUnit.member? (x : CbUnit) (tag : Nat) : Option (CbGroup × Nat) :=
  (x.groups.find? fun g => g.isOpen && g.gno % 2 ^ 23 == bitsAt tag 9 23).bind fun g =>
    (g.members[tag % 512]?).bind fun m => if m.2.1 && !m.2.2 then some (g, tag % 512) else none

/-- A member is counted done; the group retires with its last (R143, R144). -/
def CbUnit.countDone (x : CbUnit) (g : CbGroup) (i : Nat) : CbUnit :=
  let g' := g.mark i fun b => (b.1, true)
  if g'.members.all fun m => m.2.2 then
    { x with groups := x.groups.filter (fun h => h.gno != g.gno), held := x.held.filter (fun b => !g.bodies.contains b),
             gret := x.gret + 1, cdone := x.cdone + 1 }
  else { x with groups := mapIf (fun h => h.gno == g.gno) (fun _ => g') x.groups, cdone := x.cdone + 1 }

/-- CBDONE_COUNT: the oldest report is counted, or refused with CBTAG (R143, R477). -/
def execCbdoneCount (u : BitVec 2) (s : State) : Out :=
  let x := s.unit u.toNat
  match x.dones with
  | [] => .next s
  | r :: rest =>
    let s1 := s.modUnit u.toNat fun x => { x with dones := rest }
    match s.acc? r.access with
    | none => .next s1
    | some a =>
      let tag := (r.tag.map BitVec.toNat).getD 0
      match x.member? tag with
      | some (g, i) =>
        .next (((s1.modUnit u.toNat fun x => x.countDone g i).performed a).soon [.cbGroupOpen u, .cbGroupScan u])
      | none =>
        .next ((s1.logErr ⟨0x0021, 0, u.toNat, a.handle, a.group, 1, 0, .ofNat 192 tag⟩).noEffect a)

end Sys2Proof.Machine
end

