-- ==== Sys2Proof/Machine/Compositor.lean ====
section
/-!
DEFINITION. The compositor (R107 to R125, R129, R148, R386, R471 to R475): publication and fetch, selection and binding,
pre-emption, retirement, and the end of a launch with FAULT.
-/
namespace Sys2Proof.Machine

/-! ## Publication (R109, R110, R471) -/

/-- QTAIL_WRITE: publishes records; with EN clear it sets both indices; one that would exceed 256 is refused. -/
def execQtailWrite (q : BitVec 6) (v : BitVec 64) (s : State) : Out :=
  let x := s.queue q.toNat
  let n : BitVec 32 := v.setWidth 32
  if !s.isReady then .next s
  else if !x.qctl.getLsbD 31 then .next (s.modQueue q.toNat fun x => { x with qtail := n, qhead := n })
  else if 256 < (n - x.qhead).toNat then .next (s.logUnit 0x0010 0 q.toNat n.toNat)
  else .next ((s.modQueue q.toNat fun x => { x with qtail := n }).soon [.recordFetch q])

/-- QCTL_WRITE: EN, QPRI and LENDMAX. -/
def execQctlWrite (q : BitVec 6) (v : BitVec 64) (s : State) : Out :=
  if !s.isReady then .next s
  else .next ((s.modQueue q.toNat fun x => { x with qctl := v.setWidth 32 &&& 0x80071FFF }).soon [.recordFetch q, .selection])

/-! ## The checks of a fetched record (R113, R130) -/

/-- Does a record r, of index n, break a check of BADREC that the record alone decides? -/
def recordBad (nclus r n : Nat) : Bool :=
  fieldAt r 0 2 != n % 2 ^ 16 || fieldAt r 2 1 != 1 || bitsAt r 30 2 != 0 || fieldAt r 8 8 % 64 != 0 ||
    fieldAt r 0x20 4 == 0 || decide (2 ^ 24 < fieldAt r 0x20 4) || decide (32767 < fieldAt r 0x24 2) ||
    decide (4096 ≤ fieldAt r 0x26 2) || decide (16 ≤ fieldAt r 0x2C 1) ||
    bitsAt (fieldAt r 0x2D 1) 2 1 != 0 || decide (16 ≤ fieldAt r 0x2D 1) || decide (8 < fieldAt r 0x2E 1) ||
    fieldAt r 0x2F 1 != 0 || fieldAt r 0x58 8 % 16 != 0 || fieldAt r 0x62 30 != 0 ||
    (fieldAt r 0x2A 2 != 0 && decide (nclus < fieldAt r 0x28 2 + fieldAt r 0x2A 2))

/-- The batching descriptor's values, when it keeps every limit (R130). A reserved field that is not 0 breaks one
(DESIGN CHOICE, log 96). -/
def descOf (d : Nat) : Option (Nat × Nat × Nat × Nat × Nat) :=
  let win := fieldAt d 4 2
  let gmax := fieldAt d 6 2
  let rbase := fieldAt d 8 8
  let rlog := fieldAt d 0x10 1
  let tail := fieldAt d 0x14 4
  if fieldAt d 0 4 = 1 ∧ 8 ≤ win ∧ win ≤ 1024 ∧ 1 ≤ gmax ∧ gmax ≤ 512 ∧ 6 ≤ rlog ∧ rlog ≤ 16 ∧
      rbase % (32 * 2 ^ rlog) = 0 ∧ tail ≤ 2 ^ rlog ∧ fieldAt d 0x11 3 = 0 ∧ fieldAt d 0x18 40 = 0 then
    some (win, gmax, rbase, rlog, tail)
  else none

/-- Does a header h break a check of BADIMG that it alone decides? `cor` is RFL.COR. -/
def headerBad (h : Nat) (cor : Bool) : Bool :=
  let kcor := bitAt (fieldAt h 4 4) 0
  let dom := bitsAt (fieldAt h 4 4) 1 3
  fieldAt h 0 4 != 1 || decide (16 ≤ fieldAt h 4 4) || fieldAt h 8 8 % 64 != 0 || fieldAt h 0x20 2 == 0 ||
    decide (4 < fieldAt h 0x22 1) || decide (32 < fieldAt h 0x23 1) || decide (64 < fieldAt h 0x24 1) ||
    decide (16 < fieldAt h 0x25 1) || fieldAt h 0x26 2 != 0 || fieldAt h 0x28 8 % 4096 != 0 || fieldAt h 0x30 16 != 0 ||
    decide (5 < dom) || (kcor && !cor) || (dom != 0 && !cor) || (dom != 0 && !kcor)

/-- Does a livemap record break a check: a reserved bit, or a save record larger than SAVSTRIDE? The record holds every section
that the livemap names, within the claims or not (R113). -/
def livemapBad (h lm : Nat) : Bool :=
  let carr := fieldAt h 0x22 1
  let v := liveOf lm 4 32 64 16
  liveBad lm || decide (fieldAt h 0x28 8 < (v.withPlanes (List.range carr) (carr != 0)).size)

/-- The 128-byte records of a table. -/
def tableRecords : Nat → List Byte → List Nat
  | 0, _ => []
  | n + 1, bs => ofBytes (bs.take 128) :: tableRecords n (bs.drop 128)

/-- A cluster's capacity when empty (R120). -/
def capacity (carr ctile creg cgal : Nat) : Nat :=
  let lim (n c : Nat) : Nat := if c = 0 then 4 else n / c
  min 4 (min (min (lim 4 carr) (lim 32 ctile)) (min (lim 64 creg) (lim 16 cgal)))

/-- The image header and livemap table of a record, checked: the header, 0 when it cannot be read, and whether the
image is bad (R113, R465). -/
def State.imageOf (s : State) (r : Nat) : Nat × Bool × State :=
  let asid := fieldAt r 0x26 2
  match s.vread asid (fieldAt r 8 8) 64 with
  | none => (0, true, s)
  | some t =>
    let h := ofBytes t.1
    if headerBad h (bitAt r 24) then (h, true, t.2)
    else match t.2.vread asid (fieldAt r 8 8 + fieldAt h 0x18 8) (128 * fieldAt h 0x20 2) with
      | none => (h, true, t.2)
      | some m => (h, (tableRecords (fieldAt h 0x20 2) m.1).any (livemapBad h), m.2)

/-- The batching descriptor of a record: bad, or its values when a unit is required. -/
def State.batchOf (s : State) (r : Nat) : Option (Option (Nat × Nat × Nat × Nat × Nat)) × State :=
  if bitAt (fieldAt r 0x2D 1) 3 then
    match s.vread (fieldAt r 0x26 2) (fieldAt r 0x10 8) 64 with
    | none => (none, s)
    | some t => ((descOf (ofBytes t.1)).map some, t.2)
  else (some none, s)

/-- The launch of a record r and its image header h. One that is refused for its NSUCC credits the eight handles of SUCC
(DESIGN CHOICE, log 96). -/
def launchOf (id q r h : Nat) (cbdesc : Option (Nat × Nat × Nat × Nat × Nat)) (counter : Int) (status : Nat) : Launch :=
  { id := id, st := if status = 0 then .pending else .retiring, queue := q,
    pri := if bitAt r 25 then some (bitsAt r 26 3) else none, cor := bitAt r 24, npe := bitAt r 29,
    handle := fieldAt r 4 4, kimage := fieldAt r 8 8, param := fieldAt r 0x10 8, savea := fieldAt r 0x18 8,
    gcount := fieldAt r 0x20 4, asid := fieldAt r 0x26 2 % 4096, firstcl := fieldAt r 0x28 2, ncl := fieldAt r 0x2A 2,
    tenant := fieldAt r 0x2C 1 % 16, cbu := if bitAt (fieldAt r 0x2D 1) 3 then some (fieldAt r 0x2D 1 % 4) else none,
    succ := ((List.range (min 8 (fieldAt r 0x2E 1))).map fun i => fieldAt r (0x30 + 4 * i) 4).filter (· ≠ 0),
    cookie := .ofNat 64 (fieldAt r 0x50 8), cpladdr := fieldAt r 0x58 8, cplvec := fieldAt r 0x60 2,
    dom := bitsAt (fieldAt h 4 4) 1 3, entry := fieldAt h 8 8, metaoff := fieldAt h 0x10 8, lmoff := fieldAt h 0x18 8,
    lmcount := fieldAt h 0x20 2, carr := fieldAt h 0x22 1, ctile := fieldAt h 0x23 1, creg := fieldAt h 0x24 1,
    cgal := fieldAt h 0x25 1, savstride := fieldAt h 0x28 8, cbdesc := cbdesc, counter := counter, status := status,
    groups := [], nbound := 0, nexited := 0, selOrd := 0, step := 0, credits := [], kept := [], galleys := [], nests := [], modes := [],
    faulted := none, everRun := false }

/-- The status of a fetched record and the launch's image and descriptor (R113) (DEDUCED, log 62). Of several checks that fail,
BADREC, the descriptor's too, comes before BADIMG, and that before NOFIT (DESIGN CHOICE, log 96). -/
def State.checkRecord (s : State) (r n : Nat) (poison : Bool) :
    Nat × Nat × Option (Nat × Nat × Nat × Nat × Nat) × State :=
  if poison || recordBad s.nclus r n then (1, 0, none, s)
  else match s.batchOf r with
    | (none, s1) => (1, 0, none, s1)
    | (some d, s1) =>
      let i := s1.imageOf r
      let h := i.1
      let cap := capacity (fieldAt h 0x22 1) (fieldAt h 0x23 1) (fieldAt h 0x24 1) (fieldAt h 0x25 1)
      let ncl := if fieldAt r 0x2A 2 = 0 then s.nclus else fieldAt r 0x2A 2
      (if i.2.1 then 2 else if bitAt r 24 ∧ cap * ncl < fieldAt r 0x20 4 then 3 else 0, h, d, i.2.2)

/-- Does the module accept launches (R423, R485, R494)? -/
def State.accepts (s : State) : Bool := s.isReady && !s.forme.noLaunch && s.forme.memDown.isEmpty

/-- May the queue's next record be fetched (R111)? -/
def State.mayFetch (s : State) (q : Nat) : Bool :=
  let x := s.queue q
  s.accepts && x.qctl.getLsbD 31 && x.qhead != x.qtail &&
    (decide (s.pendOf q < 256) || (decide (s.loanOf q < min 4096 (x.qctl.toNat % 8192)) && decide (0 < s.poolFree)))

/-- Can a record, and the image and the descriptor that it names, be read now (R220)? -/
def State.recordFree (s : State) (a : Nat) : Bool :=
  s.agentFree a 128 &&
    (let r := s.peekNum a 128
     let asid := fieldAt r 0x26 2 % 4096
     let img := fieldAt r 8 8
     s.spanFree asid img 64 && (!bitAt (fieldAt r 0x2D 1) 3 || s.spanFree asid (fieldAt r 0x10 8) 64) &&
       (match s.vread asid img 64 with
        | some t =>
          let h := ofBytes t.1
          headerBad h (bitAt r 24) || s.spanFree asid (img + fieldAt h 0x18 8) (128 * fieldAt h 0x20 2)
        | none => true))

/-- RECORD_FETCH: the next record of the queue is copied into a pending entry and checked, its counter set with its
pre-credit, and QHEAD advances (R111, R113, R115). The words of a record that is poison-marked are undefined
(DEDUCED, log 62). -/
def execRecordFetch (q : BitVec 6) (s : State) : Out :=
  if !s.mayFetch q.toNat ||
    !s.recordFree ((s.queue q.toNat).qbase.toNat + 128 * ((s.queue q.toNat).qhead.toNat % 256)) then .next s
  else
    let x := s.queue q.toNat
    let n := x.qhead.toNat
    let a := x.qbase.toNat + 128 * (n % 256)
    let poison := decide (a < 0x200000000000) && s.linePoison (s.linear a)
    match s.agentRead a 128 with
    | none => .next s
    | some rd =>
    let f := rd.2.freshBits 1024
    let r := if poison then f.1.toNat else ofBytes rd.1
    let s1 := if poison then f.2 else rd.2
    let t := s1.checkRecord r n poison
    let h := fieldAt r 4 4
    let pre := if h = 0 then none else s.forme.precredit.lookup h
    let id := s.forme.nextLaunch
    let l := launchOf id q.toNat r t.2.1 t.2.2.1 (fieldAt r 0x24 2 + pre.getD 0) t.1
    let s2 := (t.2.2.2.modForme fun m =>
      { m with launches := m.launches ++ [l], nextLaunch := id + 1,
               precredit := if h = 0 then m.precredit else m.precredit.filter fun e => e.1 != h }).modQueue q.toNat
      fun x => { x with qhead := x.qhead + 1 }
    .next (s2.soon ((if t.1 = 0 then [.selection] else [.launchRetirement id]) ++
      (if pre.isSome then s.forme.heldCredits.map fun e => .heldCreditApply e.1 else []) ++ [.recordFetch q]))

/-! ## Placement (R80, R98, R100, R120, R121) -/

/-- The priority in force (R112, R118). -/
def State.priOf (s : State) (l : Launch) : Nat := l.pri.getD (bitsAt (s.queue l.queue).qctl.toNat 16 3)

/-- The unit of a level that a cluster lies in: an arc holds an eighth of the form's clusters (R2, R13, R96, R98). -/
def State.unitAt (s : State) (k : Nat) : Nat → Nat
  | 1 => k
  | 2 => k / 4
  | 3 => k / (s.nclus / 8)
  | _ => 0

/-- The levels of a launch's domain instances. -/
def Launch.levels (l : Launch) : List Nat := (List.range l.dom).map (· + 1)

/-- A group placed: its cluster, context, and granted runs. -/
structure Spot where
  group : Nat
  cl : Nat
  ctx : Nat
  arr : Nat
  tile : Nat
  reg : Nat
  gal : Nat
deriving DecidableEq, Repr

/-- A run in use: base and length. -/
abbrev Run' := Nat × Nat

/-- What is taken in a cluster: a context, and runs of arrays, tiles, regions, galleys. -/
structure Taken where
  ctx : Nat
  arr : Run'
  tile : Run'
  reg : Run'
  gal : Run'
deriving DecidableEq, Repr

def Taken.of (c : Nat) (b : Binding) : Taken :=
  ⟨c, (b.arr0, b.carr), (b.tile0, b.ctile), (b.reg0, b.creg), (b.gal0, b.cgal)⟩

/-- What is taken in cluster k for launch l: by its contexts but those in `gone`, by what is held for other launches
(R123), and by the groups placed so far. -/
def State.takenIn (s : State) (l : Launch) (gone : List (Nat × Nat)) (spots : List Spot) (k : Nat) : List Taken :=
  (((List.range 4).filter fun c => (s.ctx k c).st != .free && !gone.contains (k, c)).map fun c => Taken.of c (s.ctx k c).bnd) ++
  ((s.forme.holds.filter fun h => h.cl == k && h.launch != l.id).map fun h => Taken.of h.ctx h.bnd) ++
  ((spots.filter fun p => p.cl == k).map fun p => ⟨p.ctx, (p.arr, l.carr), (p.tile, l.ctile), (p.reg, l.creg), (p.gal, l.cgal)⟩)

/-- The lowest free run of n among lim units; a claim of 0 takes none (DESIGN CHOICE, log 60). -/
def freeRun (lim n : Nat) (used : List Run') : Option Nat :=
  if n = 0 then some 0
  else (List.range (lim + 1 - n)).find? fun b => used.all fun u => u.2 = 0 || b + n ≤ u.1 || u.1 + u.2 ≤ b

/-- Barrier instances whose lines other launches hold, or this one for members that are not being placed. -/
def State.otherBars (s : State) (l : Launch) (batch : List Nat) : List Barrier :=
  s.forme.bars.filter fun r => !(r.launch == l.id && r.members.any batch.contains)

/-- The room that cluster k has for a group (R80, R98, R120) (DESIGN CHOICE, log 60). -/
def State.room (s : State) (l : Launch) (batch : List Nat) (gone : List (Nat × Nat)) (spots : List Spot) (g k : Nat) : Option Spot :=
  let used := s.takenIn l gone spots k
  let lines := l.levels.all fun v =>
    spots.any (fun p => s.unitAt p.cl v == s.unitAt k v) ||
      decide (((s.otherBars l batch).filter fun r => r.lvl == v && r.unit == s.unitAt k v).length < 16)
  if s.chip (chipOf k) != .on || !lines then none
  else ((List.range 4).find? fun c => used.all fun u => u.ctx != c).bind fun c =>
    (freeRun 4 l.carr (used.map (·.arr))).bind fun a =>
      (freeRun 32 l.ctile (used.map (·.tile))).bind fun t =>
        (freeRun 64 l.creg (used.map (·.reg))).bind fun r =>
          (freeRun 16 l.cgal (used.map (·.gal))).map fun y => ⟨g, k, c, a, t, r, y⟩

/-- The membership rule of a resumption: two groups share a unit at a level up to DOM exactly when they did before
(R100). -/
def State.keepsMembers (s : State) (l : Launch) (spots : List Spot) (g k : Nat) : Bool :=
  match sget .unbound l.groups g with
  | .saved old => spots.all fun p => match sget .unbound l.groups p.group with
    | .saved old' => l.levels.all fun v => (s.unitAt k v == s.unitAt p.cl v) == (s.unitAt old v == s.unitAt old' v)
    | _ => true
  | _ => true

/-- The allowed range (R112). -/
def State.rangeOf (s : State) (l : Launch) : List Nat :=
  if l.ncl = 0 then List.range s.nclus else (List.range l.ncl).map (l.firstcl + ·)

/-- The reservation in force: its launch is still to be bound (R121). -/
def State.reserved (s : State) : Option Launch :=
  (s.forme.reserve.bind s.launch?).bind fun l => if l.faulted.isNone then some l else none

/-- The clusters that a launch may use now: its range, without that of a reservation of its priority or higher (R121). -/
def State.usable (s : State) (l : Launch) : List Nat :=
  match s.reserved with
  | some r => if r.id ≠ l.id ∧ s.priOf l ≤ s.priOf r then (s.rangeOf l).filter fun k => !(s.rangeOf r).contains k else s.rangeOf l
  | none => s.rangeOf l

/-- Groups placed one after another, each at the lowest cluster with room, until one finds none (R100, R120). -/
def State.placeAll (s : State) (l : Launch) (batch : List Nat) (gone : List (Nat × Nat)) : List Nat → List Spot → List Spot
  | [], spots => spots
  | g :: gs, spots =>
    match (s.usable l).findSome? fun k => if s.keepsMembers l spots g k then s.room l batch gone spots g k else none with
    | some p => s.placeAll l batch gone gs (spots ++ [p])
    | none => spots

/-- The groups that the next selection binds: saved ones first, then those not yet bound; at most 16 without COR, all
with it (R120, R125). -/
def Launch.batch (l : Launch) : List Nat :=
  let saved := l.groups.filterMap fun e => match e.2 with
    | .saved _ => some e.1
    | _ => none
  if l.cor then saved ++ (List.range (l.gcount - l.nbound)).map (l.nbound + ·)
  else (saved ++ (List.range (min 16 (l.gcount - l.nbound))).map (l.nbound + ·)).take 16

/-- The placement of a launch's next batch: what of it fits, nothing of a COR launch unless all fits. -/
def State.plan (s : State) (l : Launch) (gone : List (Nat × Nat)) : List Spot :=
  let p := s.placeAll l l.batch gone l.batch []
  if l.cor ∧ p.length < l.batch.length then [] else p

/-! ## Candidates (R119) -/

/-- Insertion sort. -/
def insertBy {α : Type} (lt : α → α → Bool) (x : α) : List α → List α
  | [] => [x]
  | y :: ys => if lt x y then x :: y :: ys else y :: insertBy lt x ys
def sortBy {α : Type} (lt : α → α → Bool) (xs : List α) : List α := xs.foldr (insertBy lt) []

/-- Can the records of a launch's saved groups, and its livemaps, be read now (R220)? -/
def State.imageFree (s : State) (l : Launch) : Bool :=
  s.spanFree l.asid (l.kimage + l.lmoff) (128 * l.lmcount) &&
    l.groups.all fun e => match e.2 with
      | .saved _ => s.spanFree l.asid (l.recordAt e.1) l.savstride
      | _ => true

/-- Is a launch one to select: ready, its queue enabled, with groups to bind, its unit free, the only piece of a span, and
a running-table entry for it (R117, R119, R129, R386)? A COR launch with saved members is resumed whole, once every member
is saved (R100, R125). -/
def State.eligible (s : State) (l : Launch) : Bool :=
  l.st != .retiring && l.faulted.isNone && decide (l.counter ≤ 0) && (s.queue l.queue).qctl.getLsbD 31 && !l.batch.isEmpty &&
    (l.everRun || decide (0 < s.runFree)) && (!l.cor || l.bound.isEmpty) && s.imageFree l &&
    (match l.cbu with
      | some u => (s.unit u).launch.isNone || (s.unit u).launch == some l.id
      | none => true) &&
    (l.dom != 5 || l.everRun || !s.forme.launches.any Launch.isSpan)

/-- The order of R119: priority, queue after the one last selected at that priority, age. -/
def State.candLt (s : State) (a b : Launch) : Bool :=
  let turn (l : Launch) : Nat := (l.queue + 63 - sget 63 s.forme.lastq (s.priOf l)) % 64
  decide (s.priOf b < s.priOf a) || (s.priOf a == s.priOf b &&
    (decide (turn a < turn b) || (turn a == turn b && decide (a.id < b.id))))

def State.candidates (s : State) : List Launch := sortBy s.candLt (s.forme.launches.filter s.eligible)

/-! ## Binding (R98, R118, R120, R125, R129) -/

/-- Bind or resume one placed group; a resumption that cannot read its record ends the launch (R465). -/
def State.bindOne (s : State) (id : Nat) (p : Spot) : State :=
  match s.launch? id with
  | none => s
  | some l =>
    let s1 := s.bindCtx l p.group p.cl p.ctx (l.binding p.group 0 p.arr p.tile p.reg p.gal)
    match sget .unbound l.groups p.group with
    | .saved _ =>
      match s1.resume l p.cl p.ctx with
      | some s2 => s2
      | none => (s1.groupLeft p.cl p.ctx .exited).soon [.launchFault id]
    | _ => s1.modLaunch id fun l => { l with nbound := max l.nbound (p.group + 1) }

/-- The lowest line of a level and unit that none of the instances holds (R98). -/
def freeLine (bars : List Barrier) (lvl unit : Nat) : Nat :=
  ((List.range 16).find? fun i => !bars.any fun r => r.lvl == lvl && r.unit == unit && r.line == i).getD 0

/-- The instances of a launch first bound by these placements: one per level and unit, its members in order of group
(R96, R98). -/
def State.newBars (s : State) (l : Launch) (spots : List Spot) : List Barrier :=
  (l.levels.map fun v => ((spots.map fun p => s.unitAt p.cl v).eraseDups.map fun u =>
    ({ launch := l.id, lvl := v, unit := u, line := 0,
       members := (spots.filter fun p => s.unitAt p.cl v == u).map (·.group), arrived := [], since := 0, high := 0,
       sent := false, recvd := [] } : Barrier))).flatten

/-- The instances of a resumed launch: the same members, where they lie now. -/
def State.movedBars (s : State) (old : List Barrier) (spots : List Spot) : List Barrier :=
  old.map fun r => match spots.find? fun p => r.members.contains p.group with
    | some p => { r with unit := s.unitAt p.cl r.lvl }
    | none => r

/-- A line for every instance. -/
def State.lineBars (s : State) (l : Launch) (spots : List Spot) : State :=
  let batch := spots.map (·.group)
  let rest := s.otherBars l batch
  let old := s.forme.bars.filter fun r => r.launch == l.id && r.members.any batch.contains
  let mine := if old.isEmpty then s.newBars l spots else s.movedBars old spots
  s.modForme fun m => { m with
    bars := mine.foldl (fun bs r => bs ++ [{ r with line := freeLine bs r.lvl r.unit }]) rest }

/-- A unit taken by a launch (R129, R130). -/
def CbUnit.taken (id : Nat) (d : Nat × Nat × Nat × Nat × Nat) : CbUnit :=
  { CbUnit.reset with launch := some id, win := d.1, gmax := d.2.1, rbase := d.2.2.1, rlog := d.2.2.2.1,
                      tail := .ofNat 32 d.2.2.2.2 }

/-- The running-table entry and the unit of a launch bound for the first time; the channels are its own (R117, R129,
R386). -/
def State.firstBound (s : State) (l : Launch) : State :=
  if l.everRun then s
  else
    let s1 := match l.cbu, l.cbdesc with
      | some u, some d => s.modUnit u fun _ => CbUnit.taken l.id d
      | _, _ => s
    let s2 := s1.modLaunch l.id fun l => { l with everRun := true }
    if l.dom = 5 then s2.modForme fun m => { m with chans := [], spanGone := m.spanGone.filter fun h => h != l.handle } else s2

/-- Bind the placed groups of the chosen launch in one step. Its queue counts as the one last selected at its priority (R119);
a launch that is chosen but not bound does not change that (DESIGN CHOICE, log 96). -/
def State.bindAll (s : State) (l : Launch) (spots : List Spot) : State :=
  let s1 := (s.firstBound l).lineBars l spots
  let s2 := s1.modForme fun m =>
    { m with selOrd := m.selOrd + 1, lastq := sset 63 m.lastq (s.priOf l) l.queue,
             reserve := if m.reserve = some l.id then none else m.reserve, holds := m.holds.filter fun h => h.launch != l.id }
  let s3 := spots.foldl (fun s p => s.bindOne l.id p) s2
  (s3.modLaunch l.id fun l =>
    { l with selOrd := s2.forme.selOrd, st := if l.st = .pending ∧ l.nbound = l.gcount then .running else l.st }).soon
    ([.selection] ++ (if l.cbu.isSome ∧ !l.everRun then (l.cbu.map fun u => [.cbRecordAdmit (.ofNat 2 u)]).getD [] else []))

/-! ## Pre-emption (R121, R123) -/

/-- A bound group that may be a victim: launch, group, cluster, context. -/
structure Victim where
  l : Launch
  group : Nat
  cl : Nat
  ctx : Nat
deriving DecidableEq, Repr

/-- The victims' order: lowest priority, most recently selected, highest group index. -/
def State.victimLt (s : State) (a b : Victim) : Bool :=
  decide (s.priOf a.l < s.priOf b.l) || (s.priOf a.l == s.priOf b.l &&
    (decide (b.l.selOrd < a.l.selOrd) || (a.l.selOrd == b.l.selOrd && decide (b.group < a.group))))

/-- Is the group of a context already asked to stop, or stopping? -/
def State.stopping (s : State) (k c : Nat) : Bool :=
  (s.ctx k c).preempt || (s.ctx k c).st == .saving || s.forme.stops.any fun q => q.cl == k && q.ctx == c

/-- The victims that launch l may take, in order: groups bound in its allowed range (R123). -/
def State.victims (s : State) (l : Launch) : List Victim :=
  let us := s.rangeOf l
  sortBy s.victimLt ((s.forme.launches.filter fun v =>
    v.id != l.id && decide (s.priOf v < s.priOf l) && !v.npe && v.faulted.isNone && v.st != .retiring).map fun v =>
      (v.bound.filter fun e => us.contains e.2.1 && !s.stopping e.2.1 e.2.2).map fun e => (⟨v, e.1, e.2.1, e.2.2⟩ : Victim)).flatten

/-- What taking a victim stops: the group, or its whole launch when that has COR (R100). -/
def State.stopSet (s : State) (v : Victim) : List Victim :=
  if v.l.cor then (v.l.bound.filter fun e => !s.stopping e.2.1 e.2.2).map fun e => ⟨v.l, e.1, e.2.1, e.2.2⟩ else [v]

/-- Take victims in order until the batch fits or none remains. -/
def State.takeVictims (s : State) (l : Launch) : List Victim → List Victim → List Victim
  | [], got => got
  | v :: vs, got =>
    if got.any fun w => w.cl == v.cl && w.ctx == v.ctx then s.takeVictims l vs got
    else
      let got' := got ++ s.stopSet v
      if (s.plan l (got'.map fun w => (w.cl, w.ctx))).length = l.batch.length then got' else s.takeVictims l vs got'

/-- Ask a group to stop, for a launch or for the forme die itself (DEDUCED, log 58). -/
def State.askStop (s : State) (launch k c : Nat) (by' : Option Nat) : State :=
  ((s.modCtx k c fun x => { x with preempt := true }).modForme fun m =>
    { m with stops := m.stops ++ [⟨launch, k, c, by', s.timer⟩] }).soon [.preemptStopAtWait (.ofNat 9 k) (.ofNat 2 c)]

/-- Pre-empt for a chosen launch that does not fit, when that makes room (DEDUCED, log 58). -/
def State.preemptFor (s : State) (l : Launch) : State :=
  let got := s.takeVictims l (s.victims l) []
  let p := s.plan l (got.map fun w => (w.cl, w.ctx))
  if got.isEmpty ∨ p.isEmpty then s
  else got.foldl (fun s w => s.askStop w.l.id w.cl w.ctx (some l.id)) s

/-- The reservation of a COR launch that does not fit: at most one, of the highest priority (R121). -/
def State.reserveFor (s : State) (l : Launch) : State :=
  let take := match s.reserved with
    | some r => r.id == l.id || decide (s.priOf r < s.priOf l)
    | none => true
  if l.cor && take then s.modForme fun m => { m with reserve := some l.id } else s

/-- Does a launch wait for its victims (R123)? -/
def State.awaitsVictims (s : State) (l : Launch) : Bool := s.forme.stops.any fun q => q.by' == some l.id

/-- Go through the candidates: the first that fits is bound; one that does not may pre-empt and reserve, and the next
candidate, a younger one of its queue too, is tried (DESIGN CHOICE, log 96). -/
def State.choose (s : State) : List Launch → State
  | [] => s
  | l :: ls =>
    if s.awaitsVictims l then (s.reserveFor l).choose ls
    else
      let p := s.plan l []
      if p.isEmpty then ((s.preemptFor l).reserveFor l).choose ls else s.bindAll l p

/-- Have the victims of a launch all been saved (R123)? -/
def State.victimsGone (s : State) (l : Launch) : Bool := (s.forme.holds.any fun h => h.launch == l.id) && !s.awaitsVictims l

/-- SELECTION: one launch is chosen from the state as it stands, and its next batch bound in the same step (R118 to
R125). One whose victims have all been saved comes first (R123). -/
def execSelection (s : State) : Out :=
  if s.accepts then
    let s1 := s.modForme fun m => { m with holds := m.holds.filter fun h => m.launches.any fun l => l.id == h.launch && l.faulted.isNone }
    .next (s1.choose (s1.candidates.filter s1.victimsGone ++ s1.candidates.filter fun l => !s1.victimsGone l))
  else .next s

/-! ## Retirement and credits (R114 to R116, R148, R177, R386, R472) -/

/-- Are the writes of a launch performed or refused, its copies ended and its refusals reported (R82, R474)?
(DEDUCED, log 64) -/
def State.writesOver (s : State) (id : Nat) : Bool :=
  s.accs.all (fun a => a.launch != id + 1 || a.op == .fence || ((!a.isStore || a.over) && (a.st != .refused || s.forme.late.contains a.id))) &&
    s.clusters.all (fun c => c.2.copies.all fun y => y.bnd.launch != id + 1) && s.forme.posts.all fun r => r.launch != id + 1

/-- Is a launch refused, or complete? (DEDUCED, log 64) -/
def State.mayRetire (s : State) (l : Launch) : Bool :=
  (l.st == .retiring && l.step == 0) ||
    (l.st != .retiring && l.bound.isEmpty && s.writesOver l.id &&
      (l.faulted.isSome || (l.nbound == l.gcount && l.nexited == l.gcount)))

/-- Apply a credit; none when it needs a pre-credit entry and none is free (R115). -/
def State.credit (s : State) (h : Nat) : Option State :=
  match s.forme.launches.find? fun l => l.handle == h with
  | some t => some (s.modLaunch t.id fun l => { l with counter := l.counter - 1 })
  | none =>
    if (s.forme.precredit.lookup h).isSome then
      some (s.modForme fun m => { m with precredit := mapIf (fun e => e.1 == h) (fun e => (e.1, e.2 - 1)) m.precredit })
    else if s.forme.precredit.length < 4096 then some (s.modForme fun m => { m with precredit := m.precredit ++ [(h, -1)] })
    else none

/-- Apply the credits of a launch in order, up to one that is held; those left (DEDUCED, log 63). -/
def State.creditAll (s : State) : List Nat → State × List Nat
  | [] => (s, [])
  | h :: hs =>
    match s.credit h with
    | some s1 => s1.creditAll hs
    | none => (s, h :: hs)

/-- Step 3, and everything of the launch is free: its entries, unit, lines, windows and channels. -/
def State.dropLaunch (s : State) (l : Launch) : State :=
  let s1 := if 2048 < l.cplvec then s.logErr ⟨0x0012, 0, 0, l.handle, 0xFFFFFFFF, 1, 0, .ofNat 192 l.cplvec⟩ else s.raiseIrq l.cplvec
  let s2 := match l.cbu with
    | some u => if (s1.unit u).launch = some l.id then s1.modUnit u fun _ => CbUnit.reset else s1
    | none => s1
  let span := l.isSpan
  s2.modForme fun m =>
    { m with launches := m.launches.filter (fun x => x.id != l.id), bars := m.bars.filter (fun r => r.launch != l.id),
             windows := m.windows.filter (fun w => w.launch != l.id + 1),
             heldCredits := m.heldCredits.filter (fun e => e.1 != l.id),
             savedFlags := m.savedFlags.filter (fun e => e.1 != l.id + 1),
             reserve := if m.reserve = some l.id then none else m.reserve,
             stops := m.stops.filter (fun q => q.launch != l.id), holds := m.holds.filter (fun h => h.launch != l.id),
             chans := if span then [] else m.chans, spanGone := if span then m.spanGone ++ [l.handle] else m.spanGone }

/-- Steps 2 and 3 as far as they go: a credit that is held stops the launch here, and is recorded once (DEDUCED, log 63). -/
def State.finishRetire (s : State) (l : Launch) (hs : List Nat) (again : Bool) : State :=
  let t := s.creditAll hs
  match t.2 with
  | [] => ((t.1.dropLaunch l).soon ([.selection] ++ (List.range 64).map fun q => .recordFetch (.ofNat 6 q)))
  | h :: rest =>
    let held := again && rest.length + 1 == hs.length
    let s1 := if held then t.1 else t.1.logErr ⟨0x0011, 0, 0, l.handle, 0xFFFFFFFF, 1, 0, .ofNat 192 h⟩
    (s1.modLaunch l.id fun l => { l with credits := h :: rest }).modForme fun m =>
      { m with heldCredits := m.heldCredits.filter (fun e => e.1 != l.id) ++ [(l.id, h)] }

/-- The completion record (R114). -/
def Launch.completion (l : Launch) : List Byte :=
  toBytes 4 l.handle ++ toBytes 2 l.status ++ toBytes 2 0 ++ toBytes 8 l.cookie.toNat

/-- LAUNCH_RETIREMENT: a launch that is refused or complete writes its completion record, credits its successors,
raises its interrupt and is gone. -/
def execLaunchRetirement (n : Nat) (s : State) : Out :=
  match s.launch? n with
  | none => .next s
  | some l =>
    if !s.mayRetire l then .next s
    else
      let l' := { l with st := .retiring, step := 1, status := if l.faulted.isSome then 4 else l.status }
      match (if l.cpladdr = 0 then some s else s.agentStore l.cpladdr l'.completion) with
      | none => .next s
      | some s1 => .next ((s1.modLaunch n fun _ => l').finishRetire l' l.succ false)

/-- HELD_CREDIT_APPLY: a pre-credit entry has become free: the launch's held credit is applied and its retirement goes
on. -/
def execHeldCreditApply (n : Nat) (s : State) : Out :=
  match s.launch? n with
  | some l => if (s.forme.heldCredits.lookup n).isSome then .next (s.finishRetire l l.credits true) else .next s
  | none => .next s

/-! ## The end of a launch with FAULT (R474), the timeouts (R475) -/

/-- LAUNCH_FAULT: LFAULT is recorded; the other bound groups stop and are freed without a record; saved groups are
discarded; groups not bound never are (DEDUCED, log 84). The launch leaves the pending state (DESIGN CHOICE, log 96). -/
def execLaunchFault (n : Nat) (s : State) : Out :=
  match s.launch? n with
  | none => .next s
  | some l =>
    if l.faulted.isSome || l.st == .retiring then .next s
    else
      let bad := l.bound.find? fun e => (s.ctx e.2.1 e.2.2).st == .saving && (s.ctx e.2.1 e.2.2).srsn == 2
      let unit := (bad.map fun e => e.2.1).getD 0
      let cause := (bad.map fun e => (s.ctx e.2.1 e.2.2).tcause.toNat % 65536).getD 0
      let s1 := s.logErr ⟨0x0017, 0, unit, l.handle, (bad.map (·.1)).getD 0xFFFFFFFF, 1, 0, .ofNat 192 cause⟩
      let gone (e : Nat × GroupSt) : Nat × GroupSt := match e.2 with
        | .saved _ => (e.1, .exited)
        | _ => e
      let s2 := (s1.modLaunch n fun l =>
        { l with faulted := some s.cycle, groups := l.groups.map gone, kept := [], galleys := [], nests := [], modes := [],
                 st := .running }).modForme fun m =>
        { m with savedFlags := m.savedFlags.filter (fun e => e.1 != n + 1),
                 savedCstat := m.savedCstat.filter (fun e => e.1 != n + 1), holds := m.holds.filter (fun h => h.launch != n),
                 reserve := if m.reserve = some n then none else m.reserve }
      let s3 := l.bound.foldl (fun s e => if some e.1 = bad.map (·.1) then s else s.modCtx e.2.1 e.2.2 fun x => { x with preempt := true }) s2
      let moves := (l.bound.map fun e =>
        [.preemptStopAtWait (.ofNat 9 e.2.1) (.ofNat 2 e.2.2), .saveRecordWritten (.ofNat 9 e.2.1) (.ofNat 2 e.2.2)]).flatten
      .next (s3.soon (moves ++ [.launchRetirement n]))

/-- What a context that is forced to stop leaves: its nests and queued plane operations end, and the loads in flight to its
tiles and local store; its released writes and owed copies continue. -/
def State.abandonCtx (s : State) (k c : Nat) : State :=
  let gen := (s.ctx k c).bnd.gen
  let s1 := s.modCluster k fun y =>
    { y with planes := y.planes.map (fun e => (e.1, ({ e.2 with
               nest := e.2.nest.filter fun n => n.ctx != c, queue := e.2.queue.filter fun o => o.ctx != c } : Plane))),
             rsb := y.rsb.filter fun e => e.owner != 4 * k + c || y.copies.any fun q => q.id == e.who }
  { s1 with accs := s1.accs.filter fun a => !(a.cl == k && a.ctx == c && a.gen == gen && a.eng == 0 && !a.isStore) }

/-- FAULT_STOP_TIMEOUT: a group of a faulted launch that has not stopped in 2^24 cycles is forced to FREE: its held writes
are discarded (R474); the timers that a debug hold freezes do not include this one (R491). -/
def execFaultStopTimeout (k : ClusterNo) (c : CtxNo) (s : State) : Out :=
  let x := s.ctx k.toNat c.toNat
  if s.nclus ≤ k.toNat then noUnit
  else match s.launch? (x.bnd.launch - 1) with
    | none => .next s
    | some l =>
      match l.faulted with
      | none => .next s
      | some t =>
        if x.bnd.launch ≠ 0 ∧ x.st ≠ .free ∧ t + 2 ^ 24 ≤ s.cycle ∧ s.slots.isEmpty then
          .next (((s.abandonCtx k.toNat c.toNat).groupLeft k.toNat c.toNat .exited).soon [.launchRetirement l.id])
        else .next s

/-- A stop is withdrawn: the request ends; a context that has stopped and holds goes on from its stop point, and its
nests with it (R475) (DEDUCED, log 59). -/
def State.withdrawStop (s : State) (k c : Nat) : State :=
  let x := s.ctx k c
  let b := x.bnd
  let s1 := s.modForme fun m => { m with stops := m.stops.filter fun q => !(q.cl == k && q.ctx == c) }
  if x.st = .saving ∧ x.srsn = 1 then
    let go (n : Nest) : Nest := if n.ctx = c then { n with pstop := false } else n
    let s2 := (s1.modCtx k c fun x => { x with st := .ready, wait := .none, preempt := false, srsn := 0, nestsAt := none }).modCluster k fun y =>
      { y with planes := y.planes.map fun e => (e.1, ({ e.2 with nest := e.2.nest.map go, queue := e.2.queue.map fun o => match o with
        | .sgo n => .sgo (go n)
        | o => o } : Plane)) }
    (List.range b.carr).foldl (fun s i =>
      let p := (s.cluster k).plane (b.arr0 + i)
      match p.last with
      | some n => if p.stopped && p.nest.isNone then s.restartNest k (b.arr0 + i) n else s
      | none => s) (s2.keepHalted k c)
  else s1.modCtx k c fun x => { x with preempt := false }

/-- PREEMPT_TIMEOUT: 2^24 cycles after launch n asked its victims to stop, the requests not yet met are withdrawn, and the
reservation is dropped (R475); a debug hold freezes the time (R491) (DEDUCED, log 59). -/
def execPreemptTimeout (n : Nat) (s : State) : Out :=
  let mine := s.forme.stops.filter fun q => q.by' == some n
  if mine.any (fun q => q.since + 2 ^ 24 ≤ s.timer) && s.slots.isEmpty then
    let h := ((s.launch? n).map (·.handle)).getD 0
    let unit := ((mine.find? fun q => (s.ctx q.cl q.ctx).st != .saving).map (·.cl)).getD 0
    let s1 := mine.foldl (fun s q => s.withdrawStop q.cl q.ctx) s
    let s2 := s1.modForme fun m =>
      { m with reserve := if m.reserve = some n then none else m.reserve, holds := m.holds.filter fun h => h.launch != n }
    .next ((s2.logErr ⟨0x0015, 0, unit, h, 0xFFFFFFFF, 1, 0, 0⟩).soon [.selection])
  else .next s

end Sys2Proof.Machine
end

