-- ==== Sys2Proof/Machine/Paging.lean ====
section
/-!
DEFINITION. Walks, invalidation, the bounce buffer and the pager (R150 to R152, R172 to R176, R448, R467), and the
granules of stash regions (R162 to R164, R500).
-/
namespace Sys2Proof.Machine

/-- PAGE_WALK: a pending access is translated; a page the pager holds is walked again later (R152, R172)
(DEDUCED, log 76). -/
def execPageWalk (n : Nat) (s : State) : Out :=
  match s.acc? n with
  | none => .next s
  | some a =>
    if a.tr ≠ .pending ∨ s.injects a.cl = false then .next s
    else match s.xlate a.cl a.asid a.va a.needs with
      | (.pending, _) => .next s
      | (t, s1) => .next (s1.setTr a t)

/-! ## Invalidation (R173, R174) -/

/-- Does an entry match: every one, those of an ASID, those of it that overlap a range? -/
def invMatch (scope asid lo len a va size : Nat) : Bool :=
  match scope with
  | 0 => true
  | 1 => a == asid
  | _ => a == asid && len != 0 && decide (va < lo + len) && decide (lo < va + size)

/-- The page of the entry that an access was translated through: that of the TLB entry which covers its address, or, where
the TLB has given it up, the widest one (R172, R174). -/
def State.accPage (s : State) (a : Access) : Nat × Nat :=
  match (s.cluster a.cl).tlb.find? fun e => e.asid == a.asid && a.va / 2 ^ pageBits e.big == e.vpage with
  | some e => (e.vpage * 2 ^ pageBits e.big, 2 ^ pageBits e.big)
  | none => (a.va / 2 ^ 25 * 2 ^ 25, 2 ^ 25)

/-- An invalidation starts: every TLB drops its matching entries; BUSY stays set for the accesses already translated through
one (DEDUCED, log 81). -/
def State.invalidate (s : State) (scope asid : Nat) : State :=
  let m := s.forme
  let hit := invMatch scope asid m.invaddr.toNat m.invlen.toNat
  if !s.isReady || m.invbusy then s
  else
    let open' := s.accs.filter fun a => !a.overAt 3 && (match a.tr with
      | .ok _ 3 => false
      | .ok .. => a.op != .fence && a.op != .cbtake && hit a.asid (s.accPage a).1 (s.accPage a).2
      | _ => false)
    let drop (c : Cluster) : Cluster :=
      { c with tlb := c.tlb.filter fun e => !hit e.asid (e.vpage * 2 ^ pageBits e.big) (2 ^ pageBits e.big) }
    let s1 := { s with clusters := s.clusters.map fun (c : Nat × Cluster) => (c.1, drop c.2) }
    (s1.modForme fun f => { f with
      invbusy := true, invwait := open'.map Access.id, invcmd := .ofNat 32 (scope * 4096 + asid) }).soon [.invalidationDone]

/-- INV_ALL. -/
def execInvAll (s : State) : Out := .next (s.invalidate 0 0)
/-- INV_ASID. -/
def execInvAsid (asid : BitVec 12) (s : State) : Out := .next (s.invalidate 1 asid.toNat)
/-- INV_RANGE. -/
def execInvRange (asid : BitVec 12) (s : State) : Out := .next (s.invalidate 2 asid.toNat)

/-- INVALIDATION_DONE: every access translated through a dropped entry is performed (DEDUCED, log 81). -/
def execInvalidationDone (s : State) : Out :=
  let left := s.forme.invwait.filter fun id => (s.acc? id).any fun a => !a.overAt 3
  if s.forme.invbusy && left.isEmpty then .next (s.modForme fun m => { m with invbusy := false, invwait := [] })
  else .next s

/-! ## The bounce buffer (R175, R467) -/

/-- BOUNCE_WRITE: an engine's write to a page that is not resident lands in the bounce buffer, where it is performed, or
waits for a free line. The page is walked again: one that has become resident, or is held, takes no bounce write (R176). -/
def execBounceWrite (n : Nat) (s : State) : Out :=
  match s.acc? n with
  | none => .next s
  | some a =>
    if a.tr ≠ .nonres ∨ a.eng = 0 ∨ a.op ≠ .store ∨ a.over = true then .next s
    else match s.walk a.asid a.va with
      | .nonres .. =>
        if s.forme.bbWait.any fun w => w.1 < n && (s.acc? w.1).any fun b => b.eng == a.eng then .next s
        else match bounceMerge s.forme.bounce a.asid a.va a.data with
          | some bb =>
            .next ((s.modForme fun m => { m with bounce := bb, bbWait := m.bbWait.filter fun w => w.1 != n }).performed a)
          | none =>
            if s.forme.bbWait.any fun w => w.1 == n then .next s
            else .next ((s.logUnit 0x0031 0 0 0).modForme fun m => { m with bbWait := m.bbWait ++ [(n, s.cycle)] })
      | _ =>
        .next (((s.modForme fun m => { m with bbWait := m.bbWait.filter fun w => w.1 != n }).setAcc n fun b =>
          { b with tr := .pending }).soon [.pageWalk n])

/-- BBFULL_RECORD: a further record for each 2^20 cycles of waiting. -/
def execBbfullRecord (n : Nat) (s : State) : Out :=
  match s.forme.bbWait.find? fun w => w.1 == n with
  | none => .next s
  | some w =>
    if w.2 + 2 ^ 20 ≤ s.cycle then
      .next ((s.logUnit 0x0031 0 0 0).modForme fun m =>
        { m with bbWait := mapIf (fun v => v.1 == n) (fun _ => (n, w.2 + 2 ^ 20)) m.bbWait })
    else .next s

/-! ## The pager (R176, R448) -/

/-- Host bytes from h on become undefined (R6). -/
def State.freeHost (s : State) (h n : Nat) : State :=
  (List.range n).foldl (fun s i => let r := s.freshBits 8; r.2.setHostByte (h + i) r.1) s

/-- The frame of a page is filled by firmware from a source the spec does not name: its bytes are free (R176, log 27). -/
def State.fillFrame (s : State) (pa size : Nat) : State :=
  if 0x200000000000 ≤ pa then s.freeHost (pa - 0x200000000000) size
  else (List.range (size / 256)).foldl (fun s i => s.undefine (s.linear (pa + 256 * i)) (s.linear (pa + 256 * i) + 256))
    (s.takeBack pa size false)

/-- The bounce lines of a page are merged into its frame under their masks, and freed. -/
def State.mergeBounce (s : State) (asid va pa size : Nat) : State :=
  let mine (b : Bounce) : Bool := b.asid == asid && decide (va ≤ b.vline * 256) && decide (b.vline * 256 < va + size)
  let one (s : State) (b : Bounce) : State :=
    (List.range 256).foldl (fun s i =>
      if b.mask.getLsbD i then
        s.setPhysByte (pa + (b.vline * 256 - va) + i) (.ofNat 8 (b.data.toNat / 2 ^ (8 * i)))
      else s) s
  ((s.forme.bounce.filter mine).foldl one s).modForme fun m => { m with bounce := m.bounce.filter fun b => !mine b }

/-- Granules filled from the bounce lines of a page go: their page is resident now (R162, R175). -/
def State.dropBounced (s : State) (asid va size : Nat) : State :=
  let gone (r : Region) (g : Granule) : Bool := g.pa.isNone && r.map.any fun m =>
    m.2 == asid && decide (va ≤ m.1 + g.idx * 4096) && decide (m.1 + g.idx * 4096 < va + size)
  s.clusters.foldl (fun s c => c.2.regions.foldl (fun s r =>
    if r.2.gran.any (gone r.2) then
      s.modCluster c.1 fun y => y.modRegion r.1 fun x => { x with gran := x.gran.filter fun g => !gone r.2 g }
    else s) s) s

/-- The frame that an entry names (log 27). -/
def framePa (pte size : Nat) : Nat := bitsAt pte 12 34 * 4096 / size * size

/-- The page becomes resident: its lines leave the slices, its frame is filled, its bounce lines are merged, its leaf
turns valid. -/
def State.makeResident (s : State) (r : PagerReq) (a pte size : Nat) : State :=
  let va := r.vpage * 2 ^ 16 / size * size
  let pa := framePa pte size
  let ours (l : Nat) : Bool := decide (pa < 0x200000000000) && (List.range (size / 256)).any fun i => s.linear (pa + 256 * i) / 256 == l
  let drop (x : Slice) : Slice := { x with lines := x.lines.filter fun l => !ours l.line }
  let s1 := { s with slices := s.slices.map fun (x : Nat × Slice) => (x.1, drop x.2) }
  let s2 := ((s1.fillFrame pa size).mergeBounce r.asid va pa size).dropBounced r.asid va size
  let leaf := pte - bitsAt pte 10 2 * 1024 - bitsAt pte 0 1 + 1
  s2.agentWrite a (toBytes 8 leaf)

/-- The page is to be made resident: its entry is held, and its translations are invalidated (R176). -/
def State.holdPage (s : State) (r : PagerReq) (a pte size : Nat) : State :=
  let held := pte - bitsAt pte 10 2 * 1024 - bitsAt pte 0 1 + 3 * 1024
  ((s.agentWrite a (toBytes 8 held)).modForme fun m => { m with
    pager := mapIf (fun q => q.id == r.id) (fun q => { q with leaf := some (a, pte, size) }) m.pager,
    invaddr := .ofNat 64 (r.vpage * 2 ^ 16 / size * size), invlen := .ofNat 64 size }).invalidate 2 r.asid

/-- Accesses of engines that wait for a page. -/
def Access.awaits (r : PagerReq) (a : Access) : Bool :=
  a.tr == .pending && a.asid == r.asid && a.va / 2 ^ 16 == r.vpage && (a.eng != 0 || a.isLdx)

/-- The contexts that wait for a request of the pager. -/
def State.pagerWaits (s : State) (id : Nat) : Sparse Ctx :=
  s.ctxs.filter fun e => match e.2.wait with
    | .pager n .. => n == id
    | _ => false

/-- A request of the pager ends: whoever waits goes on (R448). -/
def State.pagerWake (s : State) (r : PagerReq) : State :=
  ((s.pagerWaits r.id).foldl (fun s e =>
    (s.modCtx (e.1 / 4) (e.1 % 4) fun x => { x with st := .ready, wait := .none }).keepHalted (e.1 / 4) (e.1 % 4))
    (s.modForme fun m => { m with pager := m.pager.filter fun q => q.id != r.id })).soon
      ((s.accs.filter (Access.awaits r)).map fun a => .pageWalk a.id)

/-- The pager declines a request: the contexts that wait take PAGE, with LOST when a fault was lost (R447), an engine's access
and its granule fail (R448, R468). -/
def State.pagerDecline (s : State) (r : PagerReq) : State :=
  let s1 := (s.pagerWaits r.id).foldl (fun s e => match e.2.wait with
    | .pager _ tc ti =>
      ((s.modCtx (e.1 / 4) (e.1 % 4) fun x => { x with lost := false }).deliver (e.1 / 4) (e.1 % 4)
        (if e.2.lost then tc ||| 0x10000000 else tc) ti none).keepHalted (e.1 / 4) (e.1 % 4)
    | _ => s) (s.modForme fun m => { m with pager := m.pager.filter fun q => q.id != r.id })
  let fail (q : StashReq) : StashReq :=
    if q.eng && q.asid == r.asid && q.va / 2 ^ 16 == r.vpage then { q with failed := some 0x22 } else q
  let s2 := s1.clusters.foldl (fun s c =>
    if c.2.stashReqs.isEmpty then s else s.modCluster c.1 fun y => { y with stashReqs := y.stashReqs.map fail }) s1
  (s.accs.filter (Access.awaits r)).foldl (fun s a =>
    (s.setAcc a.id fun b => { b with tr := .fault 0x22 }).accFault a 0x0022 none) s2

/-- PAGER_RESOLVE: firmware makes the page of a request resident, or declines; whoever waits goes on, or takes PAGE
(R176, R448). Whether it can is the firmware's (log 27). A frame with a locked line, or a copy whose writeback must wait, is waited
for (R220). -/
def execPagerResolve (n : Nat) (s : State) : Out :=
  match s.forme.pager.find? fun r => r.id == n with
  | none => .next s
  | some r =>
    match r.leaf with
    | some (a, pte, size) =>
      let pa := framePa pte size
      if s.forme.invbusy || !s.agentFree a 8 || !s.agentFree pa size then .next s
      else match s.reclaimAll (s.linesOf pa size) none false with
        | none => .next s
        | some s1 => .next ((s1.makeResident r a pte size).pagerWake r)
    | none =>
      match s.walk r.asid (r.vpage * 2 ^ 16) with
      | .page .. => .next (s.pagerWake r)
      | .hold => .next s
      | .nonres a pte lvl =>
        if s.forme.invbusy then .next s
        else
          let f := s.freshBits 1
          if lvl ≤ 1 ∧ f.1 = 1 then .next (f.2.holdPage r a pte (2 ^ pageBits (lvl == 1))) else .next (f.2.pagerDecline r)
      | .fault => .next (s.pagerWake r)

/-! ## Granules (R162 to R164, R500) -/

/-- The request of a granule's line (DEDUCED, log 50). -/
def StashReq.req (q : StashReq) (k : Nat) (hint : Hint) (line : Nat) : Req :=
  { id := q.id, cl := k, tenant := some q.tenant, kind := 4, asid := q.asid, hint := hint, off := 0, isStore := false,
    bySlice := false, noev := false, missDone := q.missDone.contains line, redirect := q.redirect.lookup line }

def State.modReq (s : State) (k id : Nat) (f : StashReq → StashReq) : State :=
  s.modCluster k fun c => { c with stashReqs := mapIf (fun q => q.id == id) f c.stashReqs }

/-- A fill that fails: the stall ends, and the access issues with the fault (R500). -/
def State.failReq (s : State) (k id cause : Nat) : State := s.modReq k id fun q => { q with failed := some cause }

/-- The 16 lines of a granule at their homes: the lines that serve them, when every home is ready. -/
def State.gatherLines (s : State) (k : Nat) (q : StashReq) (hint : Hint) (pa : Nat) : State × Option (List Nat) :=
  (List.range 16).foldl (fun t i =>
    let line := t.1.granLine pa i / 256
    let h := t.1.home (line * 256)
    if (t.1.slice h).locked line then (t.1, none)
    else
      let r := t.1.atHome h line (q.req k hint line)
      (r.1, match t.2, r.2 with
        | some ls, some src => some (ls ++ [src])
        | _, _ => none)) (s, some [])

/-- The granule enters the region. -/
def State.putGranule (s : State) (k : Nat) (q : StashReq) (pa : Option Nat) (bs : List Byte) (excl : Bool) : State :=
  let g : Granule := ⟨q.idx, pa, if excl then .exclusive else .shared, 0⟩
  (s.modCluster k fun c => { (c.modRegion q.region fun x =>
      { x with store := x.store.write (q.idx * 4096) bs, gran := (x.gran.filter fun y => y.idx != q.idx) ++ [g] }) with
    stashReqs := c.stashReqs.filter fun y => y.id != q.id })

/-- The request of a granule is gone. -/
def State.reqGone (s : State) (k id : Nat) : State :=
  s.modCluster k fun c => { c with stashReqs := c.stashReqs.filter fun y => y.id != id }

/-- The homes of a granule's lines record the cluster (R164). -/
def State.shareAll (s : State) (k pa : Nat) : State :=
  (s.granHomes (pa / 4096)).foldl (fun s h => s.share h (pa / 4096) (k / 4)) s

/-- The bytes of a granule from the lines that serve its 16 lines. -/
def State.granBytes (s : State) (k r gran : Nat) (lines srcs : List Nat) : List Byte × State :=
  (lines.zip srcs).foldl (fun t e => let x := t.2.fillBytes k r gran e.1 e.2; (t.1 ++ x.1, x.2)) ([], s)

/-- The copies of a granule's lines, and of the lines that serve them, are taken back, and every home's directory can record
the granule; none while one must wait (R164, R211). -/
def State.granReady (s : State) (pa : Nat) (lines : List Nat) (but : Option (Nat × Nat)) (onlyExcl : Bool) : Option State :=
  (s.reclaimAll lines but onlyExcl).bind fun s =>
    (s.granHomes (pa / 4096)).foldl (fun t h => t.bind fun s => s.dirReady h (pa / 4096)) (some s)

/-- A granule of device memory at its homes: a copy that is there becomes Exclusive for a write, every other holder
invalidated; one that is not is filled, Exclusive when no home names another holder (R163, R164). -/
def State.fillGranule (s : State) (k : Nat) (q : StashReq) (pa : Nat) : State :=
  let reg := (s.cluster k).region q.region
  let but := some (k, q.region)
  let lines := (List.range 16).map fun i => s.granLine pa i / 256
  if lines.any fun l => s.lineLocked l then s
  else if reg.gran.any fun g => g.idx == q.idx && g.pa == some pa then
    match s.granReady pa lines but (!q.write) with
    | none => s
    | some s1 =>
      ((s1.modCluster k fun c => c.modRegion q.region fun x =>
        { x with gran := mapIf (fun y => y.idx == q.idx) (fun y => { y with st := .exclusive }) x.gran }).reqGone k q.id).shareAll k pa
  else match s.gatherLines k q reg.hint pa with
    | (s1, none) => s1
    | (s1, some srcs) =>
      match s1.granReady pa (lines ++ srcs).eraseDups but (!q.write) with
      | none => s1
      | some s2 =>
        let alone := lines.all fun l => !s2.namesOther l (k / 4) && !s2.heldLine l but
        if srcs.any fun l => s2.linePoison (l * 256) then s2.failReq k q.id 0x25
        else
          let r := s2.granBytes k q.region (pa / 4096) lines srcs
          (r.2.putGranule k q (some pa) r.1 (q.write || alone)).shareAll k pa

/-- STASH_GRANULE_FILL: the fill, or the request for Exclusive, completes when every home has answered (R163, R164). A page
that is not resident serves from the bounce buffer, is waited for by an engine's request, or faults (R175). A granule served so
is Shared and has no physical address, and a fill for a write is not served so (DESIGN CHOICE, log 103); a page that is not in
device memory fails with PHYS (DESIGN CHOICE, log 91). -/
def execStashGranuleFill (k : ClusterNo) (n : Nat) (s : State) : Out :=
  if s.nclus ≤ k.toNat then noUnit else
  match (s.cluster k.toNat).stashReqs.find? fun q => q.id == n with
  | none => .next s
  | some q =>
    let reg := (s.cluster k.toNat).region q.region
    if q.failed.isSome || !s.injects k.toNat then .next s
    else if reg.mode ≠ .stash ∨ reg.map ≠ some (q.va - q.idx * 4096, q.asid) ∨ reg.hasGran q.idx q.write = true then
      .next (s.reqGone k.toNat n)
    else match s.xlate k.toNat q.asid q.va (if q.write then .write else .read) with
      | (.pending, _) => .next s
      | (.fault c, s1) => .next (s1.failReq k.toNat n c)
      | (.nonres, s1) =>
        match (if q.write then none else s1.bounceBytes q.asid q.va 4096) with
        | some bs => .next (s1.putGranule k.toNat q none bs false)
        | none => .next (if q.eng then s1.askPager q.asid q.va else s1.failReq k.toNat n 0x22)
      | (.ok pa mt, s1) => if mt ≠ 0 then .next (s1.failReq k.toNat n 0x23) else .next (s1.fillGranule k.toNat q pa)

/-- GRANULE_INVALIDATE: the cluster writes back the granule's dirty lines and drops it, with every line of it held in a
CACHE region (R163, R164, R219); it waits while a line that it writes back is locked, or a writeback must wait (R162, R220). -/
def execGranuleInvalidate (k : ClusterNo) (n : Nat) (s : State) : Out :=
  if s.nclus ≤ k.toNat then noUnit
  else if 0x200000000000 ≤ n * 4096 then .next s
  else match s.dropReady k.toNat n with
    | some s1 => .next ((s1.dropGranule k.toNat n).modForme fun m => { m with invals := m.invals.filter (· != (k.toNat, n)) })
    | none =>
      .next (s.modForme fun m => { m with
        invals := if m.invals.contains (k.toNat, n) then m.invals else m.invals ++ [(k.toNat, n)] })

end Sys2Proof.Machine
end

