-- ==== Sys2Proof/Machine/Handler.lean ====
section
/-!
DEFINITION. The handler cores (R205 to R236, R410, R478): dispatch, fetch, budgets, faults, the ends of events, and the
sixteen custom instructions. `State.hart` names the slice whose core executes.
-/
namespace Sys2Proof.Machine

/-! ## Partitions and memory (R206, R207, R212) -/

/-- First and last-plus-one byte of a tenant's code and data partitions. -/
def State.codePart (s : State) (t : Nat) : Nat × Nat :=
  let d := (s.tenantDesc t).toNat
  (bitsAt d 16 8 * 1024, min 0x10000 ((bitsAt d 16 8 + bitsAt d 24 8) * 1024))
def State.dataPart (s : State) (t : Nat) : Nat × Nat :=
  let d := (s.tenantDesc t).toNat
  (0x10000 + bitsAt d 40 8 * 1024, min 0x18000 (0x10000 + (bitsAt d 40 8 + bitsAt d 48 8) * 1024))

def Slice.dataRead (x : Slice) (a n : Nat) : List Byte := x.data.read a n
def Slice.dataWrite (x : Slice) (a : Nat) (bs : List Byte) : Slice := { x with data := x.data.write a bs }
def Slice.codeRead (x : Slice) (a n : Nat) : Nat := ofBytes ((List.range n).map fun i => sget 0 x.code (a + i))

/-- The 128 bytes of an event record (R212) (DEDUCED, log 16). -/
def Ev.record (e : Ev) (seqn : Nat) : List Byte :=
  toBytes 4 (e.kind + e.tenant * 16 + e.cls * 256) ++ toBytes 4 seqn ++ toBytes 8 e.laddr ++
    toBytes 8 (e.reqCl + e.reqSl.toNat * 2 ^ 9 + e.rkind * 2 ^ 10 + e.asid * 2 ^ 14 + e.hint * 2 ^ 26 + e.off * 2 ^ 28) ++
    toBytes 8 e.aux ++ toBytes 8 e.rtoken.toNat ++ toBytes 24 0 ++ toBytes 64 e.msg.toNat

/-! ## The running handler -/

def State.sl (s : State) : Slice := s.slice s.hart
def State.modSl (s : State) (f : Slice → Slice) : State := s.modSlice s.hart f
def State.modRun (s : State) (f : Run → Run) : State := s.modSl fun x => { x with run := x.run.map f }

def Run.reg (r : Run) (n : XReg) : Nat := (sget 0 r.x n.toNat).toNat
def Run.setReg (r : Run) (n : XReg) (v : Nat) : Run :=
  if n = 0 then r else { r with x := sset 0 r.x n.toNat (.ofNat 64 v) }

/-- The tenant's address class of a reachable line, and its linear address: the checks of R218. -/
def State.reachable (s : State) (t a : Nat) : Option Nat :=
  match s.window a with
  | some .linear => if s.home (s.linear a) = s.hart ∧ s.addrClass t (s.linear a) ≠ 0 then some (s.linear a) else none
  | some .interleaved => if s.home (s.linear a) = s.hart ∧ s.addrClass t (s.linear a) ≠ 0 then some (s.linear a) else none
  | _ => none

/-- Accesses held for a line go on, in their order (R215). -/
def State.heldMoves (s : State) (h line : Nat) : List Instr :=
  ((s.slice h).held.filter fun j => s.lineOf j == some line).map fun j => .homeAccess j

/-! ## The end of an event (R211, R215, R220) -/

/-- What an access or a stash request keeps of its MISS event. -/
def State.missEnded (s : State) (line : Nat) (redirect : Option Nat) (id : Nat) : State :=
  let s1 := s.setAcc id fun a => { a with missDone := true, redirect := redirect }
  let put (q : StashReq) : StashReq :=
    { q with missDone := q.missDone ++ [line], redirect := match redirect with
        | some l => sinsert (serase q.redirect line) line l
        | none => q.redirect }
  let one (c : Cluster) : Cluster := { c with stashReqs := mapIf (fun q => q.id == id) put c.stashReqs }
  { s1 with clusters := s1.clusters.map fun (c : Nat × Cluster) => (c.1, one c.2) }

/-- The action of an event: code 0, or the code that its handler gave. Requests that joined a missed one are served
after it, from their own line (R215). A VETO keeps its line from the request that the eviction is for; one that finds no other
way waits until one can be given up (R211). -/
def State.eventAction (s : State) (h : Nat) (e : Ev) (code : Nat) (a1 : Nat) : State :=
  let line := e.laddr / 256
  match e.kind with
  | 0 =>
    let red := if code = 1 then some (s.linear a1 / 256) else none
    let joined := (e.waiters.drop 1 ++
      (s.slice h).held.filter fun j => s.lineOf j == some line) |>.filter fun j => !(e.waiters.take 1).contains j
    let s1 := (e.waiters.take 1).foldl (fun s id => s.missEnded line red id) s
    let s2 := joined.foldl (fun s id => s.missEnded line none id) s1
    s2.soon ((e.waiters.map s2.poke).flatten ++ s2.heldMoves h line)
  | 1 =>
    let s1 := s.modSlice h fun x => x.modLine line fun l => { l with evLock := false, dirty := code == 1 }
    s1.soon ((e.waiters.map s1.poke).flatten ++ s1.heldMoves h line)
  | 2 =>
    let id := e.waiters.headD 0
    let s1 := s.modSlice h fun x => x.modLine line fun l =>
      { l with evLock := false, vetoed := if code = 1 then l.vetoed ++ [id] else l.vetoed }
    let out := if code = 1 then (s1.slice h).victim line id else (s1.slice h).line? line
    let s2 := match out with
      | some v => (s1.evictLine h v).modSlice h fun x => x.endVeto line id
      | none => s1
    s2.soon ((e.waiters.map s2.poke).flatten ++ s2.heldMoves h line)
  | _ => s

/-- The event in progress ends: locks are released, its action follows, the next event is taken up. -/
def State.endEvent (s : State) (h code a1 : Nat) : State :=
  match (s.slice h).run with
  | none => s
  | some r =>
    let s1 := s.modSlice h fun x => { x with run := none }
    let s2 := s1.eventAction h r.ev code a1
    (s2.soon (r.locks.map (s2.heldMoves h)).flatten).soon [.handlerDispatch (.ofNat 9 h)]

/-- EDETAIL of R478. -/
def State.evDetail (s : State) (r : Run) (kind : Nat) (fetch : Bool) : Nat :=
  let pc := ((r.pc : Int) - (s.codePart r.ev.tenant).1) % 65536
  r.ev.kind + r.ev.tenant * 16 + r.ev.cls * 256 + pc.toNat * 2 ^ 16 + kind * 2 ^ 32 + fetch.toNat * 2 ^ 40

/-- A handler fault: counted, recorded, and the event takes its default action (R217, R478). Kinds: 0 illegal
instruction, 1 access outside the partition or misaligned, 2 failed check, 3 invalid action code, 4 uncorrectable error. -/
def State.handlerFault (s : State) (h kind : Nat) (fetch : Bool) : State :=
  match (s.slice h).run with
  | none => s
  | some r => (s.countSlice h r.ev.tenant 1 0x0041 r.ev.laddr (s.evDetail r kind fetch)).endEvent h 0 0

/-- HANDLER_DISPATCH: the next queued event starts its handler, or takes its default action (R209, R213, R214)
(DEDUCED, log 16). -/
def execHandlerDispatch (sl : BitVec 9) (s : State) : Out :=
  let h := sl.toNat
  let x := s.slice h
  match x.run, x.events with
  | none, e :: rest =>
    if x.down then .next s
    else
      let s1 := s.modSlice h fun y => { y with events := rest, seqn := y.seqn + 1 }
      let d := (s.dataPart e.tenant).1
      let run : Run := ⟨e, (s.codePart e.tenant).1, [(10, .ofNat 64 d), (11, .ofNat 64 e.laddr)], 0, 64, none, [], .none, [], s.cycle⟩
      match s.handlerFor h e.tenant e.kind e.cls with
      | none => .next ((s1.modSlice h fun y => { y with run := some run }).endEvent h 0 0)
      | some (bud, ent) =>
        .next ((s1.modSlice h fun y => { y.dataWrite d (e.record x.seqn.toNat) with
          run := some { run with pc := run.pc + ent, bud := bud, x := sset 0 (sset 0 [] 10 (.ofNat 64 d)) 11 (.ofNat 64 e.laddr) } }))
  | _, _ => .next s

/-- HANDLER_BUDGET_ABORT: the count has reached BUD (R216, R478). -/
def execHandlerBudgetAbort (sl : BitVec 9) (s : State) : Out :=
  let h := sl.toNat
  match (s.slice h).run with
  | none => .next s
  | some r =>
    if r.used < r.bud then .next s
    else .next ((s.countSlice h r.ev.tenant 0 0x0040 r.ev.laddr (s.evDetail r 0 false)).endEvent h 0 0)

/-! ## Execution (R206, R216, R226, R410) -/

/-- The budget is used up at the end of this cycle: what has not been performed is not (R216). -/
def State.overrun (s : State) : State :=
  (s.modRun fun r => { r with used := r.bud }).soon [.handlerBudgetAbort (.ofNat 9 s.hart)]

/-- An instruction of n bytes and a cost ends: its effect, unless the budget ends before it; the PC goes on. -/
def State.hdone (s : State) (r : Run) (n cost : Nat) (eff : State → State) (upd : Run → Run) : State :=
  if r.bud < r.used + cost then s.overrun
  else
    let s1 := (eff s).modRun fun q => upd { q with
      used := q.used + cost, pc := q.pc + n, wait := .none, next := q.next + 2 * cost }
    if r.used + cost = r.bud then s1.soon [.handlerBudgetAbort (.ofNat 9 s.hart)] else s1

/-- One handler cycle of waiting. -/
def State.tick (s : State) : State :=
  match s.sl.run with
  | none => s
  | some r => if r.bud ≤ r.used + 1 then s.overrun else s.modRun fun q => { q with used := q.used + 1, next := q.next + 2 }

/-- The handler waits for a line's fill. -/
def State.waitFill (s : State) (line : Nat) : State := s.modRun fun r => { r with wait := .fill line }

/-- A custom instruction acts on the running handler; with none running it does nothing. -/
def State.withRun (s : State) (f : Run → State) : Out :=
  match s.sl.run with
  | none => .next s
  | some r => .next (f r)

/-- What the core does in its turn: a fetched instruction, or a wait or a fault already had. -/
inductive HartStep where
  | run (i : Instr)
  | done (s : State)

/-- The core's turn (R205, R206): it waits for a fill, or fetches from the tenant's code partition. -/
def State.hartStep (s : State) : HartStep :=
  match s.sl.run with
  | none => .done s
  | some r =>
    let filling := match r.wait with
      | .fill l => s.sl.filling l
      | .none => false
    if filling then .done s.tick
    else
      let p := s.codePart r.ev.tenant
      if r.pc < p.1 ∨ p.2 < r.pc + 2 then .done (s.handlerFault s.hart 1 true)
      else
        let lo := s.sl.codeRead r.pc 2
        if lo % 4 = 3 ∧ p.2 < r.pc + 4 then .done (s.handlerFault s.hart 1 true)
        else match decodeHandler (if lo % 4 = 3 then s.sl.codeRead r.pc 4 else lo) with
          | some i => .run i
          | none => .done (s.handlerFault s.hart 0 false)

/-! ## Line instructions (R218, R219, R227 to R234) -/

/-- The request of a handler's fill. -/
def State.hreq (s : State) (t id off : Nat) (noev : Bool) : Req :=
  { id := id, cl := s.hart, tenant := some t, kind := 7, asid := 0, hint := .none, off := off, isStore := false,
    bySlice := true, noev := noev, missDone := true, redirect := none }

/-- A fill for the handler, that starts `cost` handler cycles from now; none when the set has no way to give yet (R157). -/
def State.hfill (s : State) (t lin : Nat) (noev : Bool) (cost : Nat) : Option State :=
  let r := s.freshId
  let s1 := r.2.startFill s.hart (lin / 256) (s.hreq t r.1 (lin % 256) noev)
  if s1.sl.filling (lin / 256) then
    some (s1.modSl fun x => { x with
      fills := mapIf (fun f => f.line == lin / 256) (fun f => { f with since := f.since + 2 * cost }) x.fills })
  else none

/-- An access of the handler to the word at an address: the checks, the implicit fill, then the effect on a line that is
present (R218, R227). A misaligned word is recorded as a failed check of the instruction (DESIGN CHOICE, log 104). -/
def State.onWord (s : State) (r : Run) (a : Nat) (f : Nat → State) : State :=
  match s.reachable r.ev.tenant a with
  | none => s.handlerFault s.hart 2 false
  | some lin =>
    if lin % 8 ≠ 0 then s.handlerFault s.hart 2 false
    else match s.sl.line? (lin / 256) with
      | some l => if l.poison then s.handlerFault s.hart 2 false else f lin
      | none =>
        if s.sl.filling (lin / 256) then (s.waitFill (lin / 256)).tick
        else match s.hfill r.ev.tenant lin true 0 with
          | some s1 => (s1.waitFill (lin / 256)).tick
          | none => s.tick

/-- Must a line be taken back before the handler's access: for a read from one who holds it for writing, for a write from
every holder, the host too (R200, R219)? -/
def State.mustRecall (s : State) (line : Nat) (read : Bool) : Bool :=
  ((s.otherRegions none).any fun e =>
    let n := s.namedBy ((s.cluster e.1).region e.2) line read
    !n.1.isEmpty || !n.2.isEmpty) ||
  (!read && s.sl.dir.any fun d => s.granHas d.gran line && d.mask.getLsbD 96)

/-- The recalls of a line for the running handler (R162, R219); none while one must wait. -/
def State.reclaimOwn (s : State) (line : Nat) (read : Bool) : Option State :=
  if (s.recallLines line none read).any fun l => s.home (l * 256) != s.hart && s.lineLocked l then none
  else (s.flushLine line none read (some s.hart)).map fun t => t.recall line none read

/-- The recalls before the handler's access to a line, whose time counts against the budget, then the access (R216, R219).
How long they take is a free value (DESIGN CHOICE, log 99). A line that they write back and another handler has locked, or a
writeback that must wait, is waited for; the handler's own locks do not hold them back (DEDUCED, log 47). -/
def State.withRecall (s : State) (r : Run) (line : Nat) (read : Bool) (f : State → Run → State) : State :=
  if !s.mustRecall line read then f s r
  else match s.reclaimOwn line read with
  | none => s.tick
  | some s0 =>
    let w := s0.freshBits 13
    let n := w.1.toNat
    let s1 := w.2.modRun fun q => { q with used := q.used + n, next := q.next + 2 * n }
    if r.bud < r.used + n then s1.overrun else f s1 { r with used := r.used + n }

/-- The value of a word at its home (R219). -/
def State.hread (s : State) (lin : Nat) : Nat := ofBytes (s.homeRead lin 8)

/-- A write of a word at its home; in a FILL event the event's own line stays clean (R219, R227). -/
def State.hwrite (s : State) (r : Run) (lin v : Nat) : State :=
  let line := lin / 256
  let was := (s.sl.line? line).map Line.dirty
  let s2 := s.homeWrite lin (toBytes 8 v)
  let s3 := if r.ev.kind = 1 ∧ r.ev.laddr = line * 256 then
      s2.modSl fun x => x.modLine line fun l => { l with dirty := was.getD false }
    else s2
  s3.soon s3.watchers

/-- slrd. -/
def execSlrd (rd rs1 : XReg) (s : State) : Out :=
  s.withRun fun r => s.onWord r (r.reg rs1) fun lin =>
    s.withRecall r (lin / 256) true fun t r => t.hdone r 4 4 id fun q => q.setReg rd (t.hread lin)

/-- slwr. -/
def execSlwr (rs1 rs2 : XReg) (s : State) : Out :=
  s.withRun fun r => s.onWord r (r.reg rs1) fun lin =>
    s.withRecall r (lin / 256) false fun t r => t.hdone r 4 4 (fun u => u.hwrite r lin (r.reg rs2)) id

/-- The new value of slamo (R227). -/
def amoNew (op : AmoOp) (old v : Nat) : Nat :=
  match op with
  | .add => (old + v) % 2 ^ 64
  | .and => Nat.land old v
  | .or => Nat.lor old v
  | .xor => Nat.xor old v
  | .min => if toSigned 64 old ≤ toSigned 64 v then old else v
  | .max => if toSigned 64 v ≤ toSigned 64 old then old else v
  | .minn => Nat.min old v
  | .maxn => Nat.max old v
  | .swap => v

/-- slamo: reads and writes with nothing between. -/
def execSlamo (op : AmoOp) (rd rs1 rs2 : XReg) (s : State) : Out :=
  s.withRun fun r => s.onWord r (r.reg rs1) fun lin =>
    s.withRecall r (lin / 256) false fun t r =>
      t.hdone r 4 6 (fun u => u.hwrite r lin (amoNew op (t.hread lin) (r.reg rs2))) fun q => q.setReg rd (t.hread lin)

/-- Is a line the event's own, locked without counting (R220)? -/
def Ev.ownLine (e : Ev) (line : Nat) : Bool := (e.kind == 1 || e.kind == 2) && e.laddr == line * 256

/-- sllk (R228). -/
def execSllk (rd rs1 : XReg) (s : State) : Out :=
  s.withRun fun r => match s.reachable r.ev.tenant (r.reg rs1) with
    | none => s.handlerFault s.hart 2 false
    | some lin =>
      let line := lin / 256
      if (s.sl.line? line).isNone then s.hdone r 4 2 id fun q => q.setReg rd 1
      else if r.locks.contains line || r.ev.ownLine line then s.hdone r 4 2 id fun q => q.setReg rd 0
      else if 4 ≤ r.locks.length then s.handlerFault s.hart 2 false
      else s.hdone r 4 2 id fun q => { q with locks := q.locks ++ [line] }.setReg rd 0

/-- Release a lock; the accesses it held go on (R215, R220). -/
def State.unlockLine (s : State) (line : Nat) : State :=
  let s1 := s.modRun fun r => { r with locks := r.locks.filter fun l => l != line }
  s1.soon (s1.heldMoves s1.hart line)

/-- slunlk (R228). -/
def execSlunlk (rs1 : XReg) (s : State) : Out :=
  s.withRun fun r => match s.reachable r.ev.tenant (r.reg rs1) with
    | none => s.handlerFault s.hart 2 false
    | some lin => s.hdone r 4 1 (fun t => if r.locks.contains (lin / 256) then t.unlockLine (lin / 256) else t) id

/-- Fills that handlers have pending. -/
def Slice.handlerFills (x : Slice) : Nat := (x.fills.filter Fill.handler).length

/-- slfill (R229). -/
def execSlfill (noev : Bool) (rd rs1 : XReg) (s : State) : Out :=
  s.withRun fun r =>
    let st (n : Nat) : State := s.hdone r 4 2 id fun q => q.setReg rd n
    match s.reachable r.ev.tenant (r.reg rs1) with
    | none => st 3
    | some lin =>
      if (s.sl.line? (lin / 256)).isSome then st 1
      else if s.sl.filling (lin / 256) then st 2
      else if 16 ≤ s.sl.handlerFills then st 4
      else if r.bud < r.used + 2 then s.overrun
      else match s.hfill r.ev.tenant lin noev 2 with
        | some s1 => s1.hdone r 4 2 id fun q => q.setReg rd 0
        | none => s.tick

/-- sldrop (R232). -/
def execSldrop (rs1 : XReg) (s : State) : Out :=
  s.withRun fun r => match s.reachable r.ev.tenant (r.reg rs1) with
    | none => s.handlerFault s.hart 2 false
    | some lin =>
      let line := lin / 256
      if r.ev.ownLine line then s.handlerFault s.hart 2 false
      else if (s.sl.line? line).isNone then s.hdone r 4 4 id id
      else
        s.withRecall r line false fun t r => t.hdone r 4 4 (fun t =>
          match t.sl.line? line with
          | some l => (t.evictLine t.hart l).unlockLine line
          | none => t) id

/-- slwb (R232). -/
def execSlwb (rs1 : XReg) (s : State) : Out :=
  s.withRun fun r => match s.reachable r.ev.tenant (r.reg rs1) with
    | none => s.handlerFault s.hart 2 false
    | some lin =>
      s.hdone r 4 4 (fun t => match t.sl.line? (lin / 256) with
        | some l => t.cleanLine t.hart l
        | none => t) id

/-- slnext (R230): the word, and a fill of the line it names when this slice may; it waits for a way as slfill does. -/
def execSlnext (noev : Bool) (rd rs1 : XReg) (s : State) : Out :=
  s.withRun fun r => s.onWord r (r.reg rs1) fun lin => s.withRecall r (lin / 256) true fun t r =>
    let v := t.hread lin
    let ends (u : State) : State := u.hdone r 4 4 id fun q => q.setReg rd v
    if r.bud < r.used + 4 then t.overrun
    else match t.reachable r.ev.tenant v with
      | some l =>
        if (t.sl.line? (l / 256)).isSome || t.sl.filling (l / 256) || decide (16 ≤ t.sl.handlerFills) then ends t
        else match t.hfill r.ev.tenant l noev 4 with
          | some u => ends u
          | none => t.tick
      | none => ends t

/-- slwait (R231): status 1 when the fill brought an uncorrectable error (log 28). One that has waited takes the time of its
wait, and no cycle more (R415). -/
def execSlwait (rd rs1 : XReg) (s : State) : Out :=
  s.withRun fun r => match s.reachable r.ev.tenant (r.reg rs1) with
    | none => s.hdone r 4 1 id fun q => q.setReg rd 2
    | some lin =>
      let line := lin / 256
      let cost := if r.wait = .fill line then 0 else 1
      if (s.sl.line? line).isSome then s.hdone r 4 cost id fun q => q.setReg rd (r.failed.contains line).toNat
      else if s.sl.filling line then (s.waitFill line).tick
      else s.hdone r 4 cost id fun q => q.setReg rd 2

/-- slage (R233). -/
def execSlage (rs1 rs2 : XReg) (s : State) : Out :=
  s.withRun fun r => match s.reachable r.ev.tenant (r.reg rs1) with
    | none => s.handlerFault s.hart 2 false
    | some lin =>
      if 4 ≤ r.reg rs2 then s.handlerFault s.hart 2 false
      else
        let p := [0, 5, 10, 15].getD (r.reg rs2) 0
        s.hdone r 4 1 (fun t => t.modSl fun x => if (x.line? (lin / 256)).isSome then x.moveTo (lin / 256) p else x) id

/-- slhas (R234). -/
def execSlhas (rd rs1 : XReg) (s : State) : Out :=
  s.withRun fun r =>
    let v := match s.reachable r.ev.tenant (r.reg rs1) with
      | none => 2 ^ 63
      | some lin =>
        let line := lin / 256
        let held := (s.heldLine line none).toNat * 16
        match s.sl.line? line with
        | some l => 1 + l.dirty.toNat * 2 + (r.locks.contains line).toNat * 8 + held + l.way * 256
        | none => (s.sl.filling line).toNat * 4 + held
    s.hdone r 4 2 id fun q => q.setReg rd v

/-! ## Events, budget, messages (R235, R236) -/

/-- Do n bytes at a multiple of `al` lie in the handler's data partition? -/
def State.inData (s : State) (r : Run) (a n al : Nat) : Bool :=
  let p := s.dataPart r.ev.tenant
  a % al == 0 && p.1 ≤ a && a + n ≤ p.2

/-- slevt. A record's place that is misaligned or outside the data partition is recorded as such an access, not as a failed check
(DESIGN CHOICE, log 104). -/
def execSlevt (rd rs1 : XReg) (s : State) : Out :=
  s.withRun fun r =>
    let a := r.reg rs1
    if s.inData r a 128 8 then
      let bs := r.ev.record ((s.sl.seqn.toNat + 2 ^ 32 - 1) % 2 ^ 32)
      s.hdone r 4 8 (fun t => t.modSl fun x => x.dataWrite a bs) fun q => q.setReg rd (ofBytes (bs.take 4))
    else s.handlerFault s.hart 1 false

/-- slbud. -/
def execSlbud (rd : XReg) (s : State) : Out :=
  s.withRun fun r => s.hdone r 4 1 id fun q => q.setReg rd (r.bud - r.used)

/-- Is an action code one that R211 lists for the event? A REDIRECT also needs its line homed here with class 1 to 3, a VETO that
the eviction has had none. -/
def State.codeOk (s : State) (r : Run) (code : Nat) : Bool :=
  code == 0 ||
    (code == 1 && match r.ev.kind with
      | 0 => (r.ev.rkind == 0 || r.ev.rkind == 2 || r.ev.rkind == 4) && (s.reachable r.ev.tenant (r.reg 11)).isSome
      | 1 => true
      | 2 => !((s.sl.line? (r.ev.laddr / 256)).any fun l => r.ev.waiters.any l.vetoed.contains)
      | _ => false)

/-- slret. A word beyond the codes' 8 bits is recorded as a failed check, a code of them that does not fit as an invalid action
code (DESIGN CHOICE, log 104). -/
def execSlret (rs1 : XReg) (s : State) : Out :=
  s.withRun fun r =>
    let c := r.reg rs1
    if r.bud < r.used + 1 then s.overrun
    else if 256 ≤ c then s.handlerFault s.hart 2 false
    else if s.codeOk r c then s.endEvent s.hart c (r.reg 11)
    else s.handlerFault s.hart 3 false

/-- slmsg: to a reply token, or to the home of a line. A message that is misaligned or outside the data partition is recorded as
such an access (DESIGN CHOICE, log 104). -/
def execSlmsg (rd rs1 rs2 : XReg) (s : State) : Out :=
  s.withRun fun r =>
    let d := r.reg rs2
    let st (n : Nat) (f : State → State) : State := s.hdone r 4 8 f fun q => q.setReg rd n
    if !s.inData r (r.reg rs1) 64 64 then s.handlerFault s.hart 1 false
    else
      let bs := s.sl.dataRead (r.reg rs1) 64
      if bitAt d 63 then
        if bitsAt d 23 7 ≠ 0 ∨ bitsAt d 0 6 ≠ 0 then st 2 id
        else st 0 fun t =>
          (t.modForme fun m => { m with replies := m.replies ++ [⟨.ofNat 64 d, .ofNat 512 (ofBytes bs), t.hart, r.ev.tenant⟩] }).soon
            [.replyDelivery t.forme.replies.length]
      else
        let dev := match s.window d with
          | some .linear => true
          | some .interleaved => true
          | _ => false
        let lin := s.linear d
        if !dev || s.addrClass r.ev.tenant lin == 0 then st 2 id
        else if 32 ≤ (s.slice (s.home lin)).inbound then st 1 id
        else st 0 fun t =>
          let e : Ev := ⟨3, r.ev.tenant, t.addrClass r.ev.tenant lin, lin / 256 * 256, t.hart, true, 9, 0, 0, d % 256, 0, 0,
            .ofNat 512 (ofBytes bs), []⟩
          match t.raiseEv (t.home lin) e with
          | some u => u
          | none => t.queueFullRec (t.home lin) e

end Sys2Proof.Machine
end

