-- ==== Sys2Proof/Machine/Resets.lean ====
section
/-!
DEFINITION. The error log's consumer index (R462), resets of stream and memory chiplets (R20 to R22, R493, R494), soft
errors (R479, R483), ring links (R484, R485), and the host's accesses to device memory (R200, R417).
-/
namespace Sys2Proof.Machine

/-- ELHEAD_WRITE: a value beyond ELTAIL is ignored (R462). -/
def execElheadWrite (v : BitVec 64) (s : State) : Out :=
  let m := s.forme
  let n : BitVec 32 := v.setWidth 32
  if (m.eltail - m.elhead).toNat < (n - m.elhead).toNat then .next s
  else .next (s.modForme fun m => { m with elhead := n })

/-! ## Stream chiplets (R21, R22, R493) -/

/-- The bound groups on a chiplet: launch, group, cluster, context. -/
def State.boundOn (s : State) (x : Nat) : List Victim :=
  (s.forme.launches.map fun l => (l.bound.filter fun e => e.2.1 / 4 == x).map fun e => (⟨l, e.1, e.2.1, e.2.2⟩ : Victim)).flatten

/-- CHIPLET_RESET_CONTROLLED: every group bound there is asked to stop, a COR launch as a whole, the forme die being the
requester; nothing more is bound there, and the stop is quiesced when all are saved (R493). -/
def execChipletResetControlled (x : BitVec 7) (s : State) : Out :=
  if s.nchips ≤ x.toNat then noUnit
  else if s.chip x.toNat ≠ .on then .next s
  else
    let vs := ((s.boundOn x.toNat).map s.stopSet).flatten
    let ask (s : State) (v : Victim) : State := if s.stopping v.cl v.ctx then s else s.askStop v.l.id v.cl v.ctx none
    .next ((vs.foldl ask (s.setChip x.toNat .draining)).soon [.arcStopQuiesce x])

/-- The launches that lose a request in an uncontrolled reset of a chiplet: one that no memory chiplet has accepted, of a
bound group or of a saved one (R22). -/
def State.lostOn (s : State) (x : Nat) : List Nat :=
  (s.accs.filterMap fun a =>
    if a.cl / 4 == x && (a.st == .held || a.st == .sent) && a.op != .fence then some (a.launch - 1) else none) ++
  ((([0, 1, 2, 3] : List Nat).map fun i => (s.cluster (4 * x + i)).copies.map fun y => y.bnd.launch - 1).flatten) ++
  (s.forme.sends.filterMap fun r => if r.cl / 4 == x && r.bytes.isNone then some (r.launch - 1) else none)

/-- CHIPLET_RESET_UNCONTROLLED: every launch with a group there, or with a request that is lost, ends with FAULT, and the
stop is quiesced; the engines of the chiplet send nothing more (R22, R493). -/
def execChipletResetUncontrolled (x : BitVec 7) (s : State) : Out :=
  if s.nchips ≤ x.toNat then noUnit
  else if s.chip x.toNat ≠ .on ∧ s.chip x.toNat ≠ .draining then .next s
  else
    let ids := (((s.boundOn x.toNat).map fun v => v.l.id) ++ s.lostOn x.toNat).eraseDups
    let s1 := ([0, 1, 2, 3] : List Nat).foldl (fun s i => s.modCluster (4 * x.toNat + i) fun c => { c with copies := [], stashReqs := [] }) s
    let s2 : State := { s1 with accs := s1.accs.filter fun a => !(a.cl / 4 == x.toNat && a.st == AccSt.held) }
    let s3 := if s2.cur.cl.toNat / 4 = x.toNat then s2.endBundle else s2
    .next ((s3.setChip x.toNat (.quiesce s.timer false)).soon (ids.map (fun i => .launchFault i) ++ [.arcStopQuiesce x]))

/-- Have all the groups of a draining chiplet left, and has everything of theirs been accepted (R22)? -/
def State.drained (s : State) (x : Nat) : Bool :=
  ((List.range 16).all fun i => (s.ctx (4 * x + i / 4) (i % 4)).st == .free) &&
    ((List.range 4).all fun i => (s.cluster (4 * x + i)).copies.isEmpty) &&
    (s.forme.sends.all fun r => !(r.cl / 4 == x && r.bytes.isNone)) &&
    s.accs.all fun a => !(a.cl / 4 == x && (a.st == .sent || a.st == .held))

/-- Are responses still owed to a chiplet: has a request been accepted that is not answered? -/
def State.respOwed (s : State) (x : Nat) : Bool :=
  s.accs.any fun a => a.cl / 4 == x && a.op != .fence && a.st != .sent && a.st != .held

/-- The units of a chiplet in reset are named as those of no cluster: 512 above (log 29). -/
def detached (x k : Nat) : Nat := if k / 4 = x then k + 512 else k

/-- The reset of a chiplet: its state is zero; requests that a memory chiplet has accepted go on there, their responses
are late; the others are lost, and the groups still bound are gone (R20, R22) (DESIGN CHOICE, log 29). -/
def State.assertReset (s : State) (x : Nat) (controlled : Bool) : State :=
  let on (k : Nat) : Bool := k / 4 == x
  let vs := s.boundOn x
  let s1 := vs.foldl (fun s v => s.modLaunch v.l.id fun l => { l with groups := sset .unbound l.groups v.group .exited }) s
  let keep := s1.accs.filter fun a => !(on a.cl && (a.st == .held || a.st == .sent || a.op == .fence))
  let late := (keep.filter fun a => on a.cl && !a.owed).map (·.id)
  let s2 : State :=
    { s1 with
      accs := mapIf (fun a => on a.cl) (fun a => { a with cl := detached x a.cl, eng := 0 }) keep,
      ctxs := s1.ctxs.filter fun e => !on (e.1 / 4), clusters := s1.clusters.filter fun e => !on e.1,
      locPoison := s1.locPoison.filter fun e => !on e.1 }
  let s3 := s2.modForme fun m =>
    { m with late := m.late ++ late, stops := m.stops.filter (fun q => !on q.cl),
             posts := m.posts.map (fun r => { r with cl := detached x r.cl }),
             sends := (m.sends.filter fun r => !(on r.cl && r.bytes.isNone)).map fun r => { r with cl := detached x r.cl } }
  (((s3.setChip x .inReset).logUnit 0x0080 0 x controlled.toNat).soon
    ((vs.map fun v => v.l.id).eraseDups.map fun i => .launchRetirement i))

/-- ARC_STOP_QUIESCE: a draining chiplet is quiesced when its groups are saved; the reset is asserted when no response is
owed or after 65,536 cycles, which a debug hold freezes; after it the chiplet is back when its self-test passes, which the
rules leave open (R22, R491, R493) (DESIGN CHOICE, log 66). -/
def execArcStopQuiesce (x : BitVec 7) (s : State) : Out :=
  if s.nchips ≤ x.toNat then noUnit
  else match s.chip x.toNat with
    | .draining =>
      if s.drained x.toNat && s.slots.isEmpty then .next ((s.setChip x.toNat (.quiesce s.timer true)).soon [.arcStopQuiesce x]) else .next s
    | .quiesce t c =>
      if s.slots.isEmpty && (!s.respOwed x.toNat || decide (t + 65536 ≤ s.timer)) then
        .next (s.assertReset x.toNat c)
      else .next s
    | .inReset =>
      let f := s.freshBits 1
      .next ((f.2.setChip x.toNat (if f.1 = 1 then .on else .down)).soon [.selection])
    | .on | .down => .next s

/-- LATE_RESPONSE_DISCARD: the response of a request that outlived its chiplet's reset is discarded (R22). -/
def execLateResponseDiscard (n : Nat) (s : State) : Out :=
  if !s.forme.late.contains n then .next s
  else
    let s1 := s.modForme fun m => { m with late := m.late.filter fun i => i != n }
    match s.acc? n with
    | none => .next s1
    | some a => if a.over then .next { s1 with accs := s1.accs.filter fun b => b.id != n } else .next s

/-! ## Memory chiplets (R20, R494) -/

/-- A slice whose chiplet is reset: lines, directory, fills and events are gone; requests that wait go on waiting; handler
data are invalid (DEDUCED, log 71). -/
def Slice.afterReset (x : Slice) (tag : Nat) : Slice :=
  { Slice.reset with code := x.code, table := x.table, data := ⟨tag, []⟩, down := true,
                     held := x.held ++ (x.fills.map (·.waiters)).flatten ++ (x.events.map (·.waiters)).flatten ++
                       ((x.run.map fun r => r.ev.waiters).getD []) }

/-- Is any byte of a reduction window homed on memory chiplet m? -/
def State.windowOn (s : State) (m : Nat) (w : RedWin) : Bool :=
  (List.range (w.len / 256 + 2)).any fun i => s.home (s.linear (w.base + min (256 * i) (w.len - 1))) / 48 == m

/-- MEMORY_CHIPLET_RESET: every launch ends with FAULT, every queue is disabled, dirty lines and shadows are lost, the
windows homed there are closed, and MCRST is recorded; which of its two causes it has the event does not say (R494)
(DESIGN CHOICE, log 66). -/
def execMemoryChipletReset (m : BitVec 3) (s : State) : Out :=
  if s.forme.memDown.contains m.toNat then .next s
  else
    let f := s.freshBits 1
    let s1 : State := (List.range 48).foldl (fun s i =>
      let t := s.freshStore
      t.2.modSlice (48 * m.toNat + i) fun x => x.afterReset t.1.tag) f.2
    let s2 := s1.modForme fun y =>
      { y with memDown := y.memDown ++ [m.toNat], windows := y.windows.filter (fun w => !s.windowOn m.toNat w),
               queues := (List.range 64).foldl (fun q i =>
                 let x := sget Queue.reset q i
                 sset Queue.reset q i { x with qctl := x.qctl &&& 0x7FFFFFFF }) y.queues }
    .next ((s2.logUnit 0x0082 1 m.toNat f.1.toNat).soon (s.forme.launches.map fun l => .launchFault l.id))

/-- The stored training values of a slice's channel, its share of them (R20). -/
def Forme.trainOf (m : Forme) (n : Nat) : BitVec 16 := m.training.extractLsb' (16 * n) 16

/-- MEMORY_CHIPLET_RETURN: the chiplet is back with its handlers' code and tables and its training values reloaded; the
module accepts launches again (R20, R494). -/
def execMemoryChipletReturn (m : BitVec 3) (s : State) : Out :=
  if !s.forme.memDown.contains m.toNat then .next s
  else
    let s1 : State := (List.range 48).foldl (fun s i =>
      s.modSlice (48 * m.toNat + i) fun x =>
        { x with down := s.sliceGone (48 * m.toNat + i), code := s.forme.masterCode, table := s.forme.masterTable,
                 train := s.forme.trainOf (48 * m.toNat + i) }) s
    .next ((s1.modForme fun y => { y with memDown := y.memDown.filter fun i => i != m.toNat }).soon
      (((List.range 48).map fun i => (s.slice (48 * m.toNat + i)).held.map fun a => .homeAccess a).flatten ++ [.selection]))

/-! ## Ring links (R484, R485): a plane and direction of the link at a stop is 8 · stop + 2 · plane + direction -/

/-- A plane and direction fails over after 8 failures of one flit; with a second plane of the link every launch ends with
FAULT, and the module accepts no launch until a start (R485). -/
def State.failOver (s : State) (n : Nat) : State :=
  if sget 0 s.forme.links n < 8 || s.forme.failover.contains n then s
  else
    let second := s.forme.failover.any fun i => i / 8 == n / 8 && i / 2 != n / 2
    let s1 := (s.modForme fun m => { m with failover := m.failover ++ [n], links := sset 0 m.links n 0 }).logUnit 0x0060 3 (n / 8)
      (n / 2 % 4 + n % 2 * 4)
    if second then
      ((s1.modForme fun m => { m with noLaunch := true }).logUnit 0x0061 3 (n / 8) 0).soon
        (s.forme.launches.map fun l => .launchFault l.id)
    else s1

/-- LINK_FAILOVER: nothing is lost or reordered (R485). -/
def execLinkFailover (n : Nat) (s : State) : Out := .next (s.failOver n)

/-- FLIT_CRC_REPLAY: the flit is sent again from the retry buffer and nothing else changes; a flit that fails 8 times in
succession fails its plane over. Whether it is the flit that failed last is open (R484, R485). -/
def execFlitCrcReplay (n : Nat) (s : State) : Out :=
  let f := s.freshBits 1
  let k := if f.1 = 1 then sget 0 s.forme.links n + 1 else 1
  .next ((f.2.modForme fun m => { m with links := sset 0 m.links n k }).failOver n)

/-! ## Soft errors (R464, R479, R480, R483) -/

/-- Everything of the module but what its flash, its firmware and the host's memory hold is gone: cycle 0, no context,
no line (R20). -/
def State.wipe (s : State) (f : Forme) : State :=
  { State.reset with mem := s.mem, memFill := s.memFill, memPoison := s.memPoison, hostMem := s.hostMem, nextId := s.nextId,
                     free := s.free, forme := f }

/-- What of the forme die outlives a start: flash, what firmware sets before READY, sensors (R20, R424 to R430)
(DESIGN CHOICE, log 69). -/
def Forme.kept (m : Forme) : Forme :=
  { Forme.reset with
    slots := m.slots, recovery := m.recovery, idrec := m.idrec, rootKey := m.rootKey, training := m.training,
    trainedBy := m.trainedBy, trainedDeg := m.trainedDeg, fitted := m.fitted,
    romId := m.romId, puf := m.puf, handlerImages := m.handlerImages, masterCode := m.masterCode, masterTable := m.masterTable,
    tenants := m.tenants, ranges := m.ranges, degraded := m.degraded, degPend := m.degPend, trained := m.trained,
    coldNext := m.coldNext, temps := m.temps, volts := m.volts, failed := m.failed, starts := m.starts,
    elbase := m.elbase, reserved := m.reserved, bbbase := m.bbbase, degmap := m.degmap, nextLaunch := m.nextLaunch }

/-- The module stops: MSTAT reads FAILED, and a start is required. The error log is kept (R462, R479). -/
def State.stopModule (s : State) : State :=
  let m := s.forme
  s.wipe { m.kept with
    starting := false, mstat := 7, elhead := m.elhead, eltail := m.eltail, ellost := m.ellost, elvec := m.elvec,
    ellostPend := m.ellostPend, msixTable := m.msixTable, msixPend := m.msixPend, irqs := m.irqs }

/-- A parity error in a register of a context: a rollback without a handler; with NR, or in the shadow, the group ends
with FAULT (R483); a context that is being saved stands at its mark (DESIGN CHOICE, log 67). -/
def State.registerParity (s : State) (k c : Nat) (shadow : Bool) : State :=
  let x := s.ctx k c
  let f := s.freshBits 10
  let s1 := f.2.logCtx 0x0052 2 k k c 0 f.1.toNat
  if x.bnd.launch = 0 ∨ (x.st = .saving ∧ (x.srsn = 2 ∨ !(x.nr || shadow))) then s1
  else
    let s2 := if s.cur.cl.toNat = k ∧ s.cur.ctx.toNat = c then s1.endBundle else s1
    if x.nr || shadow then s2.unrestartable k c 0 0 else (s2.rollback k c).keepHalted k c

/-- The handler that runs at a slice meets an uncorrectable error in its data or in its code: a handler fault, and code is
loaded again from the master image before the next event. For code R478 gives the record no fault kind: it is free. -/
def State.handlerMemory (s : State) (h : Nat) (isData : Bool) : State :=
  match (s.slice h).run with
  | none => s
  | some r =>
    if isData then s.handlerFault h 4 false
    else
      let f := s.freshBits 8
      let p := f.2.codePart r.ev.tenant
      let inside (c : Host.Cell) : Bool := decide (p.1 ≤ c.1 ∧ c.1 < p.2)
      (f.2.handlerFault h f.1.toNat false).modSlice h fun x =>
        { x with code := (s.forme.masterCode.filter inside).foldl (fun m c => sset 0 m c.1 c.2) (x.code.filter fun c => !inside c) }

/-- UNCORRECTABLE_ERROR, by storage kind of R479. `unit`: kind 0 the linear line; kind 1 twice the linear line, one more
for the directory entry of its granule; kind 2 (2 · cluster + space) · 2^18 + 32-byte unit, space 0 local store and 1
tiles; kind 3 a context, 4 · cluster + context; kind 4 twice a context, one more for its shadow; kind 5 an array; kind 7, which R478 alone
names, twice a slice, one more for its handler data (DESIGN CHOICE, log 67). -/
def execUncorrectableError (kind unit : Nat) (s : State) : Out :=
  let uecc (s : State) (src u addr : Nat) : State := s.logErr ⟨0x0033, src, u, 0, 0xFFFFFFFF, 1, addr, .ofNat 192 kind⟩
  match kind with
  | 0 =>
    .next (uecc { s with memPoison := if s.memPoison.contains unit then s.memPoison else s.memPoison ++ [unit] } 1
      (unit * 256 / 2 ^ 33) (unit * 256))
  | 1 =>
    let line := unit / 2
    let h := s.home (line * 256)
    let s1 := uecc s 1 h (line * 256)
    if unit % 2 = 0 then .next (s1.modSlice h fun x => x.modLine line fun e => { e with poison := true })
    else
      let mine (d : DirEntry) : Bool := s.granHas d.gran line
      let d := (s.slice h).dir.filter mine
      .next ((s1.modSlice h fun x => { x with dir := x.dir.filter fun e => !mine e }).soon
        ((d.map fun d => ((List.range 384).filter fun k => d.mask.getLsbD (k / 4)).map fun k => .granuleInvalidate (.ofNat 9 k) d.gran).flatten))
  | 2 =>
    let e := (unit / 2 ^ 19, unit / 2 ^ 18 % 2 + 1, unit % 2 ^ 18)
    if s.nclus ≤ unit / 2 ^ 19 then noUnit
    else .next (uecc { s with locPoison := if s.locPoison.contains e then s.locPoison else s.locPoison ++ [e] } 2 (unit / 2 ^ 19) 0)
  | 3 =>
    if s.nclus ≤ unit / 4 then noUnit
    else
      let x := s.ctx (unit / 4) (unit % 4)
      let s1 := uecc s 2 (unit / 4) 0
      if x.bnd.launch = 0 ∨ (x.st = .saving ∧ x.srsn = 2) then .next s1
      else
        let s2 := if s.cur.cl.toNat = unit / 4 ∧ s.cur.ctx.toNat = unit % 4 then s1.endBundle else s1
        .next (s2.unrestartable (unit / 4) (unit % 4) 0 0)
  | 4 => if s.nclus ≤ unit / 8 then noUnit else .next (s.registerParity (unit / 8) (unit / 2 % 4) (unit % 2 == 1))
  | 5 => if s.nclus ≤ unit / 4 then noUnit else .next (s.rowParity (unit / 4) (unit % 4))
  | 6 => .next (uecc s 0 0 0).stopModule
  | 7 => if 768 ≤ unit then noUnit else .next (s.handlerMemory (unit / 2) (unit % 2 == 1))
  | _ => noUnit

/-- CECC of a storage kind and unit: the errors merged in a period that is over (R464) (DESIGN CHOICE, log 68). -/
def State.ceccRecord (s : State) (key : Nat) : State :=
  let e := sget (0, 0) s.forme.cecc key
  if e.2 = 0 ∨ s.cycle / 2 ^ 30 ≤ e.1 then s
  else (s.modForme fun m => { m with cecc := sset (0, 0) m.cecc key (0, 0) }).logErr
    ⟨0x0032, (if key % 16 ≤ 1 then 1 else if key % 16 = 6 then 0 else 2), key / 16, 0, 0xFFFFFFFF, e.2, 0, .ofNat 192 (key % 16)⟩

/-- CORRECTED_ERROR_MERGE: an error of a kind in a unit is counted; from kind 16 upward, the end of the period of kind
less 16: one record holds its count (DESIGN CHOICE, log 68). -/
def execCorrectedErrorMerge (kind unit : Nat) (s : State) : Out :=
  let key := 16 * unit + kind % 16
  let s1 := s.ceccRecord key
  if 16 ≤ kind then .next s1
  else
    let e := sget (0, 0) s1.forme.cecc key
    .next (s1.modForme fun m => { m with cecc := sset (0, 0) m.cecc key (s.cycle / 2 ^ 30, e.2 + 1) })

/-! ## The host's accesses to device memory (R200, R417, R480, R496) -/

/-- May an access of the host be performed at its home now? -/
def State.hdmOpen (s : State) (a : Nat) : Bool :=
  let x := s.slice (s.home a)
  !x.down && !x.locked (a / 256)

/-- The host's memory, and the configuration spaces of its two ports, as HOST_MEM_READ and HOST_MEM_WRITE name them: its
physical address h at 2^45 + h (R419); register o of port p at 2^60 + 4096 · p + o (DESIGN CHOICE, log 100). -/
def hostSpace (a : Nat) : Option Nat := if 0x200000000000 ≤ a ∧ a < 0x300000000000 then some (a - 0x200000000000) else none
def cfgSpace (a : Nat) : Option (Nat × Nat) := if 2 ^ 60 ≤ a ∧ a < 2 ^ 60 + 8192 then some ((a - 2 ^ 60) / 4096, a % 4096) else none

/-- HOST_MEM_READ: eight bytes of HDM at a multiple of 8; poisoned while Memory_Active is 0, on a poison-marked line, and
on a degraded channel. The home notes that the host may hold the line. The host also reads its own memory (R402) and a port's
configuration space (R416). -/
def execHostMemRead (a : Nat) (s : State) : Out :=
  let give (s : State) (bs : List Byte) (p : Bool) : Out := .next (s.modForme fun m => { m with hostRead := some (bs, p) })
  if a % 8 ≠ 0 then noUnit
  else if a < 96 * 2 ^ 33 then
    if !s.isReady || s.badChan (a / 2 ^ 33) || s.linePoison a then
      let f := s.freshBits 64
      give f.2 (toBytes 8 f.1.toNat) true
    else if !s.hdmOpen a then .next s
    else
      match (s.agentRead a 8).bind fun r => (r.2.dirReady (s.home a) (a / 4096)).map fun t => (r.1, t) with
      | none => .next s
      | some r => give (r.2.share (s.home a) (a / 4096) 96) r.1 false
  else match hostSpace a, cfgSpace a with
    | some h, _ => give s ((List.range 8).map fun i => s.hostByte (h + i)) false
    | _, some (p, o) => give s (toBytes 4 (s.cfgWord p o) ++ toBytes 4 (s.cfgWord p (o + 4))) false
    | _, _ => noUnit

/-- HOST_MEM_WRITE: eight bytes of HDM; dropped while Memory_Active is 0 and on a degraded channel. The host also writes its
own memory, which a watch sees (R323, R402, R404), and a port's BAR0 and DOE mailbox (R416). -/
def execHostMemWrite (a : Nat) (v : BitVec 64) (s : State) : Out :=
  if a % 8 ≠ 0 then noUnit
  else if a < 96 * 2 ^ 33 then
    if !s.isReady || s.badChan (a / 2 ^ 33) || !s.hdmOpen a then .next s
    else
      match s.agentStore a (toBytes 8 v.toNat) with
      | none => .next s
      | some s1 => .next (s1.soon s1.watchers)
  else match hostSpace a, cfgSpace a with
    | some h, _ =>
      let s1 := s.hostWrite h (toBytes 8 v.toNat)
      .next (s1.soon s1.watchers)
    | _, some (p, o) => .next ((s.cfgWrite p o (v.toNat % 2 ^ 32)).cfgWrite p (o + 4) (v.toNat / 2 ^ 32))
    | _, _ => noUnit

end Sys2Proof.Machine
end

