-- ==== Sys2Proof/Machine/Start.lean ====
section
/-!
DEFINITION. Starts of the module (R3, R20, R422 to R425, R492, R495).
-/
namespace Sys2Proof.Machine

/-! ## The course of a start (R424, R425, R492) -/

/-- A start begins: what does not outlive it is gone, the rails come up, MSTAT reads RAILS (R20, R417, R424). -/
def State.beginStart (s : State) (kind : Nat) : State :=
  s.wipe { s.forme.kept with starting := true, startKind := kind, mstat := 0 }

/-- A start request: ignored and recorded during a start (R492). The port is the first: no rule says which (log 24). -/
def State.request (s : State) (kind v : Nat) : State :=
  if s.forme.starting then s.logUnit 0x0002 5 0 v else s.beginStart kind

/-- COLD_START: MSTART 1. -/
def execColdStart (s : State) : Out := .next (s.request 1 1)

/-- WARM_START: MSTART 2; memory is not kept. -/
def execWarmStart (s : State) : Out := .next (s.request 2 2)

/-- WARM_START_KEEP: MSTART 3; memory is kept when the conditions hold. -/
def execWarmStartKeep (s : State) : Out := .next (s.request 3 3)

/-- HOST_RESET: a start request; of which kind no rule says: a cold start (log 31). -/
def execHostReset (s : State) : Out := .next (s.request 1 0)

/-- May a warm start run with the accepted firmware (R425, R482)? A unit that this start is to degrade does not prevent it:
the record changes after the stored results are used (R495) (DESIGN CHOICE, log 69). -/
def Forme.warmOk (m : Forme) (i : Image) : Bool :=
  m.startKind != 1 && m.trained && m.trainedBy == i.bytes && m.trainedDeg == m.degraded && !m.coldNext &&
    m.temps.all fun e => decide (e.2.temp - e.2.trim ≤ 15 ∧ e.2.trim - e.2.temp ≤ 15)

/-- The start fails in a state (R492). -/
def State.startFails (s : State) (st : Nat) : State :=
  (s.modForme fun m => { m with mstat := .ofNat 32 st }).soon [.startFailure]

/-- The log's first entries: the ROM, the firmware, the identity record, and the field record when there is one (R428,
R495); DEGMAP is that of the identity record (R422) (DESIGN CHOICE, log 70). -/
def Forme.verified (m : Forme) (i : Image) : Forme :=
  let m1 := (({ m with attLog := [], m := List.replicate 64 0, degmap := m.idrec.degmap }).measure 0 m.romId |>.measure 1 i.bytes).measure 2
    m.idrec.bytes
  if m.degraded.isEmpty then m1 else m1.measure 4 m.fieldRecord

/-- Every slice after LLCINIT: nothing held, the handlers of the master images, the stored training values, data undefined; the
degraded ones, and those of a degraded channel, down (R496) (DEDUCED, log 71). -/
def Forme.freshSlices (m : Forme) (tag : Nat) : Sparse Slice :=
  (List.range 384).map fun n =>
    (n, { Slice.reset with
      code := m.masterCode, table := m.masterTable, data := ⟨tag + n, []⟩,
      down := m.degraded.contains (0, n) || m.degraded.contains (1, n / 4), train := m.trainOf n })

/-- Units that firmware degrades at a warm start (R495) (DESIGN CHOICE, log 69). -/
def State.degrade (s : State) : State :=
  let pend := s.forme.degPend
  pend.foldl (fun s e => s.logUnit 0x0081 0 e.2 e.1)
    (s.modForme fun m => { m with degraded := m.degraded ++ pend, degPend := [] })

/-- The system configuration as firmware finds it at a start: MODID below NMOD, and the routes, all free (R379, R421)
(DESIGN CHOICE, log 10). -/
def State.findModules (s : State) : State :=
  let n := s.freshBits 12
  let i := n.2.freshBits 12
  let r := i.2.freshBits 12288
  r.2.modForme fun m => { m with nmod := .ofNat 13 (n.1.toNat + 1), modid := .ofNat 12 (i.1.toNat % (n.1.toNat + 1)), routes := r.1 }

/-- Device memory loses its contents, but for the first n bytes of the error log's ring (R424, R462). -/
def State.loseMemory (s : State) (n : Nat) : State :=
  let e := s.forme.elbase.toNat
  { (s.undefine 0 e).undefine (e + n) (96 * 2 ^ 33) with
    memPoison := s.memPoison.filter fun l => e ≤ l * 256 && l * 256 + 256 ≤ e + n }

/-- Firmware places the error log's ring: at a free address of device memory, a multiple of 4 KiB, while the ring holds nothing
(R461) (DESIGN CHOICE, log 10). -/
def State.placeRing (s : State) : State :=
  if s.forme.eltail ≠ 0 then s
  else
    let f := s.freshBits 28
    f.2.modForme fun m => { m with elbase := .ofNat 64 (f.1.toNat % (96 * 2 ^ 21 - 63) * 4096) }

/-- LLCINIT: the bounce buffer is placed at a free multiple of 256 MiB, and firmware reserves it, the ring of the error log, and a
free range for the shadows, the entries and the queues (R173, R424, R466) (DESIGN CHOICE, log 10). -/
def State.reserve (s : State) : State :=
  let b := s.freshBits 12
  let lo := b.2.freshBits 32
  let n := lo.2.freshBits 32
  let bb := b.1.toNat % 3072 * 2 ^ 28
  let e := s.forme.elbase.toNat
  n.2.modForme fun m => { m with
    bbbase := .ofNat 64 bb,
    reserved := [(e, e + 2 ^ 18), (bb, bb + 2 ^ 28), (lo.1.toNat * 256, (lo.1.toNat + n.1.toNat) * 256)] }

/-- The last step: READY (R417, R423 to R425). Memory is undefined unless it was kept, but for the records that this start has
appended to the error log. -/
def State.becomeReady (s : State) (warm : Bool) : State :=
  let keep := warm && s.forme.startKind == 3
  let s1 : State := if keep then s else s.loseMemory (64 * min 4096 s.forme.eltail.toNat)
  let s2 : State := { s1 with slices := s1.forme.freshSlices (s1.free + 1), free := s1.free + 384 }
  (s2.modForme fun m =>
    { (m.handlerImages.foldl (fun m i => m.measure 3 (m.masterImage i)) m) with
      mstat := .ofNat 32 (5 + warm.toNat * 256 + keep.toNat * 512), starting := false, failed := 0, trained := true,
      coldNext := if warm then m.coldNext else false }).findModules.reserve

/-! ### The steps of a start (R424): each is one step of the machine, in which MSTAT reads its STATE -/

/-- The first slot, in the ROM's order, whose image it accepts. -/
def Forme.firmware (m : Forme) : Option Image := (slotOrder m.slots).find? m.accepts

/-- MSTAT reads a state. -/
def State.atStep (s : State) (n : Nat) : State := s.modForme fun m => { m with mstat := .ofNat 32 n }

/-- VERIFY: the firmware and the identity, and which kind of start it is to be: a warm one loads what is stored and goes to its
short self-test (R425, R427, R428, R430) (DESIGN CHOICE, log 69). -/
def State.stepVerify (s : State) : State :=
  match s.forme.firmware with
  | none => s.startFails 1
  | some i =>
    if !s.forme.identified then s.startFails 1
    else if s.forme.warmOk i then (s.modForme fun m => m.verified i).atStep 3
    else (s.modForme fun m => { m.verified i with startKind := 1, trained := false, trainedBy := i.bytes }).atStep 2

/-- TRAIN: the channels are trained, and their population is checked; one of another size than 8 GiB ends the start without a
retry (R3, R424, R492). -/
def State.stepTrain (s : State) : State :=
  if !Config.startStepOk s.forme.starts 2 then s.startFails 2
  else match (List.range 96).find? fun n => sget 8 s.forme.fitted n != 8 with
    | some n => (s.modForme fun m => { m with mstat := 7, starting := false }).logUnit 0x0001 0 n 0
    | none =>
      let f := s.freshBits 6144
      (f.2.modForme fun m => { m with training := f.1 }).atStep 3

/-- TEST: the self-test; a cold start searches the columns' voltages, each the lowest that passes and 20 mV, and stores what it
has found (R424, R431). -/
def State.stepTest (s : State) : State :=
  if !Config.startStepOk s.forme.starts 3 then s.startFails 3
  else if s.forme.startKind != 1 then s.degrade.atStep 4
  else
    let f := s.freshBits 12288
    (f.2.modForme fun m => { m with
      volts := f.1, trainedDeg := m.degraded, temps := m.temps.map fun e => (e.1, { e.2 with trim := e.2.temp }) }).atStep 4

/-- RAIL_GOOD: the start in progress goes on by one step: RAILS, VERIFY, TRAIN, TEST, LLCINIT, to READY or to its failure
(R424, R425, R427, R430); a failed start is tried again from RAILS (R492). What a physical step yields is open. -/
def execRailGood (s : State) : Out :=
  if !s.forme.starting then .next s
  else .next (match s.mstate with
    | 0 => (s.placeRing.modForme fun m => { m with starts := m.starts + 1 }).atStep 1
    | 1 => s.stepVerify
    | 2 => s.stepTrain
    | 3 => s.stepTest
    | 4 => if Config.startStepOk s.forme.starts 4 then s.becomeReady (s.forme.startKind != 1) else s.startFails 4
    | _ => s.atStep 0)

/-- START_FAILURE: a start in progress has failed, or has not come to READY in time: it is recorded and retried as a cold
start; the third in a row loads the recovery image, when that verifies (R492). -/
def execStartFailure (s : State) : Out :=
  let m := s.forme
  if !m.starting then .next s
  else
    let s1 := s.logUnit 0x0003 0 0 (m.mstat.toNat % 16)
    if m.failed + 1 < 3 then
      .next (s1.modForme fun m => { m with failed := m.failed + 1, startKind := 1, mstat := 7 })
    else
      .next (s1.modForme fun m =>
        { m with failed := m.failed + 1, starting := false,
                 mstat := if m.accepts m.recovery then 6 else 7 })

end Sys2Proof.Machine
end

