-- ==== Sys2Proof/Machine/Power.lean ====
section
/-!
DEFINITION. Droop (R437), sensors and throttling (R487 to R489), and a debugger's halt (R490, R491).
-/
namespace Sys2Proof.Machine

/-! ## Droop (R437) -/

/-- DROOP_INJECT: the cluster's rail is connected to the auxiliary rail for a cycle; at the limit of 16 in any 256 cycles
its selections carry stall bundles. -/
def execDroopInject (k : ClusterNo) (s : State) : Out :=
  if s.nclus ≤ k.toNat then noUnit
  else
    let recent := (s.cluster k.toNat).duty.filter fun t => s.cycle < t + 256
    if recent.length < 16 then
      .next ((s.modCluster k.toNat fun c => { c with duty := recent ++ [s.cycle] }).modForme fun m => { m with droopcnt := m.droopcnt + 1 })
    else .next (s.modCluster k.toNat fun c => { c with duty := recent, droop := true })

/-- DROOP_CLEAR: the droop is over. -/
def execDroopClear (k : ClusterNo) (s : State) : Out :=
  if s.nclus ≤ k.toNat then noUnit else .next (s.modCluster k.toNat fun c => { c with droop := false })

/-! ## Temperature (R487, R489) -/

/-- A column; one that has not been read yet is at 25 °C (log 32). -/
def State.column (s : State) (n : Nat) : Column := sget ⟨25, 25⟩ s.forme.temps n

/-- Is a reading valid? -/
def validTemp (t : Int) : Bool := decide (-40 ≤ t ∧ t ≤ 150)

/-- The vote of the valid readings: the median of three, the higher of two. -/
def voteTemp : List Int → Option Int
  | [a, b, c] => some (max (min a b) (min (max a b) c))
  | [a, b] => some (max a b)
  | _ => none

/-- The highest, and does every, column of a chiplet lie below a limit? -/
def State.anyColumn (s : State) (x : Nat) (p : Int → Bool) : Bool := (List.range 8).any fun v => p (s.column (8 * x + v)).temp

/-- EGRANT changes at a window boundary; THROT names the chiplet (R433, R489) (DEDUCED, log 79). -/
def State.throttle (s : State) (x : Nat) (on : Bool) : State :=
  (s.modForme fun m => { m with throttled := if on then m.throttled ++ [x] else m.throttled.filter fun y => y != x }).logUnit
    0x0073 0 x on.toNat

/-- THROTTLE_ENTER: a column of chiplet n is at 105 °C or more. -/
def State.throttleUp (s : State) (n : Nat) : State :=
  if !s.forme.throttled.contains n && s.anyColumn n (fun t => decide (105 ≤ t)) then s.throttle n true else s
def execThrottleEnter (n : Nat) (s : State) : Out :=
  if s.nchips ≤ n then noUnit else .next (s.throttleUp n)

/-- THROTTLE_LEAVE: every column of chiplet n is below 95 °C. -/
def State.throttleDown (s : State) (n : Nat) : State :=
  if s.forme.throttled.contains n && !s.anyColumn n (fun t => decide (95 ≤ t)) then s.throttle n false else s
def execThrottleLeave (n : Nat) (s : State) : Out :=
  if s.nchips ≤ n then noUnit else .next (s.throttleDown n)

/-- THERMAL_TRIP: a column at 125 °C or more: TTRIP is recorded, the rails are removed, memory loses its contents but for the ring of the
error log, and a start is required (R462, R489). -/
def State.trip (s : State) (n : Nat) : State :=
  if (s.column n).temp < 125 then s
  else
    ((s.logUnit 0x0074 0 n 0).stopModule).loseMemory (2 ^ 18)
def execThermalTrip (n : Nat) (s : State) : Out :=
  if 8 * s.nchips ≤ n then noUnit else .next (s.trip n)

/-- TEMPERATURE_READING of column n: readings discarded, voted and flagged, and what the voted value calls for. -/
def execTemperatureReading (n : Nat) (t0 t1 t2 : Int) (s : State) : Out :=
  if 8 * s.nchips ≤ n then noUnit
  else
    let rs := [(0, t0), (1, t1), (2, t2)]
    let valid := rs.filter fun r => validTemp r.2
    let v := (voteTemp (valid.map (·.2))).getD 110
    let s1 := (rs.filter fun r => !validTemp r.2).foldl (fun s r => s.logUnit 0x0070 0 n (r.1 + 4)) s
    let s2 := if valid.length < 2 then s1.logUnit 0x0071 0 n 0
      else (valid.filter fun r => decide (15 < r.2 - v ∨ 15 < v - r.2)).foldl (fun s r => s.logUnit 0x0070 0 n r.1) s1
    let s3 := s2.modForme fun m => { m with temps := sset ⟨25, 25⟩ m.temps n { s.column n with temp := v } }
    .next (((s3.throttleUp (n / 8)).throttleDown (n / 8)).trip n)

/-! ## Current (R488, R489) -/

/-- CURRENT_HALVING: above 7,700 A every EGRANT is halved, down to an eighth; the module's throttle is entered with the
first (log 33). -/
def State.halve (s : State) : State :=
  if 7700 < s.forme.railAmps ∧ s.forme.halvings < 3 then
    let s1 := s.modForme fun m => { m with halvings := m.halvings + 1 }
    if s.forme.halvings = 0 then s1.logUnit 0x0073 0 0xFFFFFFFF 1 else s1
  else s
def execCurrentHalving (s : State) : Out := .next s.halve

/-- CURRENT_RESTORE: below 7,000 A for 2^20 cycles one halving is undone. -/
def execCurrentRestore (s : State) : Out :=
  match s.forme.lowSince with
  | none => .next s
  | some t =>
    if t + 2 ^ 20 ≤ s.cycle ∧ 0 < s.forme.halvings then
      let s1 := s.modForme fun m => { m with halvings := m.halvings - 1, lowSince := some s.cycle }
      .next (if s.forme.halvings = 1 then s1.logUnit 0x0073 0 0xFFFFFFFF 0 else s1)
    else .next s

/-- IMON_DISAGREE: the two monitors read a and b amperes. When they differ by more than a fifth of the larger, the larger is
used, and IMON is recorded once in 2^30 cycles of disagreement; the larger is used too when they agree (log 33). -/
def execImonDisagree (a b : Nat) (s : State) : Out :=
  let amps := max a b
  let bad := decide (amps < 5 * (amps - min a b))
  let due := match s.forme.imonAt with
    | some t => decide (t + 2 ^ 30 ≤ s.cycle)
    | none => true
  let s1 := if bad && due then s.logUnit 0x0072 0 0 (a % 2 ^ 32 + b % 2 ^ 32 * 2 ^ 32) else s
  let s2 := s1.modForme fun m =>
    { m with railAmps := amps, imonAt := if bad then (if due then some s.cycle else m.imonAt) else none,
             lowSince := if amps < 7000 then (if m.lowSince.isSome then m.lowSince else some s.cycle) else none }
  .next s2.halve

/-! ## The debugger (R490, R491) -/

/-- DEBUG_HALT: the contexts of the chiplet that may run are halted between two bundles; its nests stop at their k-step
boundary; the timers of R491 are frozen from now. -/
def execDebugHalt (x : BitVec 7) (s : State) : Out :=
  if s.nchips ≤ x.toNat then noUnit
  else if s.forme.haltedChips.contains x.toNat || !s.slots.isEmpty then .next s
  else
    let s1 := s.modForme fun m =>
      { m with haltedChips := m.haltedChips ++ [x.toNat], holdSince := if m.holdSince.isSome then m.holdSince else some s.cycle }
    .next ((List.range 16).foldl (fun s i => s.keepHalted (4 * x.toNat + i / 4) (i % 4)) s1)

/-- The record of a halted group (R104, R490): a group that halted at a wait of R101 is saved as stopped there, its nests in
flight with their planes and positions (R363) (DEDUCED, log 73). -/
def State.saveHalted (s : State) (k c : Nat) : State :=
  let x := s.ctx k c
  if x.st ≠ .halted then s
  else match s.launch? (x.bnd.launch - 1) with
    | none => s
    | some l =>
      let s1 := s.modCtx k c fun x => { x with stopWait := x.wait.isStop, stopNr0 := !x.nr, nestsAt := some (s.ownedPlanes k c) }
      match s1.writeRecord l k c 3 with
      | some s2 => s2.modCtx k c fun y => { y with stopWait := x.stopWait, stopNr0 := x.stopNr0, nestsAt := x.nestsAt }
      | none => s.soon [.launchFault l.id]

/-- Can the record of a halted group be written now: no line of it is locked (R220)? -/
def State.haltedFree (s : State) (k c : Nat) : Bool :=
  let x := s.ctx k c
  x.st != .halted || (s.launch? (x.bnd.launch - 1)).all fun l => s.spanFree l.asid (l.recordAt x.bnd.group) l.savstride

/-- DEBUG_SAVE: save records of the halted groups with SRSN 3; they stay bound (DEDUCED, log 73). -/
def execDebugSave (x : BitVec 7) (s : State) : Out :=
  if s.nchips ≤ x.toNat then noUnit
  else if (List.range 16).any fun i => !s.haltedFree (4 * x.toNat + i / 4) (i % 4) then .next s
  else .next ((List.range 16).foldl (fun s i => s.saveHalted (4 * x.toNat + i / 4) (i % 4)) s)

/-- The frozen timers go on: each began later by the length of the hold (R491). -/
def State.thaw (s : State) (h : Nat) : State :=
  let s1 := s.modForme fun m =>
    { m with holdSince := none, stops := m.stops.map (fun q => { q with since := q.since + h }),
             bars := m.bars.map (fun r => { r with since := r.since + h }) }
  { s1 with
    chips := s1.chips.map fun (e : Nat × ChipSt) => match e.2 with
      | .quiesce t c => (e.1, .quiesce (t + h) c)
      | v => (e.1, v),
    accs := s1.accs.map fun a => match a.dst with
      | .watch n dl => { a with dst := .watch n (dl + h) }
      | _ => a }

/-- DEBUG_RELEASE: the halted contexts go on from the state they left; with no chiplet halted the timers run again. -/
def execDebugRelease (x : BitVec 7) (s : State) : Out :=
  if s.nchips ≤ x.toNat then noUnit
  else if !s.forme.haltedChips.contains x.toNat then .next s
  else
    let s1 := s.modForme fun m => { m with haltedChips := m.haltedChips.filter fun y => y != x.toNat }
    let s2 := (List.range 16).foldl (fun s i => s.modCtx (4 * x.toNat + i / 4) (i % 4) fun c =>
      if c.st = .halted then { c with st := c.haltFrom } else c) s1
    match s2.forme.holdSince with
    | some t => .next (if s2.forme.haltedChips.isEmpty then s2.thaw (s.cycle - t) else s2)
    | none => .next s2

end Sys2Proof.Machine
end

