-- ==== Sys2Proof/Machine/Moves.lean ====
section
/-!
DEFINITION. Whose move is next when nothing is due at once (log 1): the agents' turns; the slot of a bundle; the place
of an instruction that is to be fetched next (log 2).
-/
namespace Sys2Proof.Machine

/-- What the accesses, copies and contexts of cluster k may have to do: each move changes nothing when it is not due. -/
def State.accessMoves (a : Access) : List Instr :=
  [.pageWalk a.id, .homeAccess a.id, .hmsgArrival a.id, .reductionShadowAdd a.id, .hostCompletion a.id, .bounceWrite a.id,
   .farLoadReturn a.id, .destinationFaultReport a.id, .engineAccessAbandon a.id, .owedWritePerformed a.id]

/-- The moves of context c of cluster k. -/
def State.ctxMoves (s : State) (k c : Nat) : List Instr :=
  let x := s.ctx k c
  let kk : ClusterNo := .ofNat 9 k
  let cc : CtxNo := .ofNat 2 c
  (if x.st = .saving then [.saveRecordWritten kk cc] else []) ++
  (if x.preempt then [.preemptStopAtWait kk cc, .faultStopTimeout kk cc] else []) ++
  ((s.accs.filter fun a => a.heldBy k c && a.tr == .pending).map fun a => .pageWalk a.id) ++
  (match x.wait with
    | .dbarRestart _ => [.leadRestart kk cc]
    | .watch _ => [.waitaddrWake kk cc, .waitaddrTimeout kk cc]
    | _ => [])

/-- The turn of cluster k. -/
def State.clusterMoves (s : State) (k : Nat) : List Instr :=
  let c := s.cluster k
  let kk : ClusterNo := .ofNat 9 k
  [.contextSelection kk] ++ (([0, 1, 2, 3] : List Nat).map (s.ctxMoves k)).flatten ++
  (c.planes.map fun e =>
    (match e.2.nest with
      | some n => [if n.endPass then .nestPassEnd kk (.ofNat 2 e.1) else .nestKstep kk (.ofNat 2 e.1)]
      | none => []) ++ (if e.2.queue.isEmpty then [] else [.planeOpComplete kk (.ofNat 2 e.1)])).flatten ++
  (c.copies.map fun y => [.copyDispatch kk y.id, .copyComplete kk y.id, .engineOpComplete kk y.id]).flatten ++
  (c.galleys.map fun e => .galleyFill kk (.ofNat 4 e.1)) ++
  (c.stashReqs.map fun q => .stashGranuleFill kk q.id) ++
  ((s.accs.filter fun a => a.cl == k && a.st != .held).map State.accessMoves).flatten

/-- The turn of the forme die, the slices and the chiplets (DESIGN CHOICE, log 72). -/
def State.formeMoves (s : State) : List Instr :=
  let m := s.forme
  (if m.starting then [.railGood] else []) ++
  ((m.queues.filter fun e => e.2.qhead != e.2.qtail).map fun e => .recordFetch (.ofNat 6 e.1)) ++
  (if m.launches.isEmpty then [] else [.selection]) ++
  (m.launches.map fun l => .launchRetirement l.id) ++
  (m.heldCredits.map fun e => .heldCreditApply e.1) ++
  (m.stops.filterMap fun q => q.by'.map fun l => .preemptTimeout l) ++
  (m.units.map fun e =>
    let u : BitVec 2 := .ofNat 2 e.1
    [.cbRecordAdmit u, .cbGroupScan u, .cbGroupOpen u, .cbHandout u, .cbdoneCount u]).flatten ++
  ((List.range m.bars.length).map fun i => [.barrierRelease i, .barrierTimeout i]).flatten ++
  (m.posts.map fun r => .postFlagDelivery r.id) ++
  (m.sends.map fun r => [.spanMessageArrival r.id, .spanMessageDiscard r.id]).flatten ++
  (m.arriving.map fun e => [.spanMessageArrival e.1, .spanMessageDiscard e.1]).flatten ++
  (if m.nmod = 1 then [] else [.spanMessageArrival s.nextId]) ++
  (if m.replies.isEmpty then [] else [.replyDelivery 0]) ++
  (if m.invbusy then [.invalidationDone] else []) ++
  (if 0 < m.halvings && m.lowSince.any fun t => t + 2 ^ 20 ≤ s.cycle then [.currentRestore] else []) ++
  (m.invals.map fun e => .granuleInvalidate (.ofNat 9 e.1) e.2) ++
  (m.bbWait.map fun w => .bbfullRecord w.1) ++
  (m.pager.map fun r => .pagerResolve r.id) ++
  (s.slices.map fun (e : Nat × Slice) =>
    (if e.2.events.isEmpty then [] else [.handlerDispatch (.ofNat 9 e.1)]) ++
    ((e.2.fills.filter fun f => f.since + 220 ≤ s.cycle).map fun f => .channelFillArrival (.ofNat 9 e.1) f.line) ++
    (e.2.held.map fun a => .homeAccess a)).flatten ++
  (s.chips.filterMap fun (e : Nat × ChipSt) => if e.2 = .on ∨ e.2 = .down then none else some (.arcStopQuiesce (.ofNat 7 e.1))) ++
  ((s.accs.filter fun a => 512 ≤ a.cl).map State.accessMoves).flatten

/-- The agents' moves of the present turn (DESIGN CHOICE, log 72). -/
def State.turnMoves (s : State) : List Move :=
  (if s.turn = 0 then
    s.formeMoves.map .act ++ (s.slices.filterMap fun (e : Nat × Slice) =>
      if e.2.run.any fun r => r.next ≤ s.cycle then some (.hart e.1) else none) else []) ++
  (s.clusterMoves s.turn).map .act

/-- With nothing due at once the agents' moves of this turn are due, and the turn passes on. -/
def State.idle (s : State) : State :=
  { s with agenda := s.turnMoves, turn := if s.turn + 1 < s.nclus then s.turn + 1 else 0 }

/-- The first of the slots that are to issue becomes the slot in issue. -/
def State.nextSlot (s : State) (n : SlotNo) : State :=
  { s with slots := s.slots.tail, slotNos := s.slotNos.tail, cur := { s.cur with slot := n, out := .ran } }

/-- After a slot: the bundle ends with its last one. -/
def State.afterSlot (s : State) : State := if s.slots.isEmpty then s.finishBundle else s

/-! ## An instruction at the place of the next fetch (log 2) -/

/-- The code bytes of an instruction: four, the bits above those of the word 0. -/
def fetchCells (w : Nat) : List Host.Cell :=
  ((List.range 4).map fun i => (i, (BitVec.ofNat 8 (w / 2 ^ (8 * i)) : Byte))).filter fun c => c.2 != 0

/-- A handler of tenant 0 that runs on a message, at the first byte of its code. -/
def fetchRun : Run :=
  { ev := ⟨3, 0, 0, 0, 0, false, 0, 0, 0, 0, 0, 0, 0, []⟩, pc := 0, x := [(10, 0x10000)], used := 0, bud := 4096, resv := none,
    locks := [], wait := .none, failed := [], next := 0 }

/-- The slice whose handler core runs it. -/
def Slice.withWord (x : Slice) (w : Nat) : Slice := { x with code := fetchCells w, run := some fetchRun, down := false }

/-- Tenant 0 has all of the code and data memory. -/
def fetchTenant : BitVec 64 := 0x0020000040000000

/-- The machine about to fetch the word in the handler core of slice 0. -/
def State.placeWord (s : State) (w : Nat) : State :=
  { (s.setSlice 0 ((s.slice 0).withWord w)).modForme (fun m => { m with tenants := sset 0 m.tenants 0 fetchTenant }) with
    slots := [], slotNos := [], agenda := [.hart 0] }

end Sys2Proof.Machine
end

