-- ==== Sys2Proof/Machine/Rv.lean ====
section
/-!
DEFINITION. The handler cores' base instructions, RV64IMAC (R205, R206, R410). Their meaning is that of the RISC-V
unprivileged specification, which R205 names (PRESUMED, log 6); costs are R410's.
-/
namespace Sys2Proof.Machine

def m64 (x : Int) : Nat := (x % 2 ^ 64).toNat
def s64 (x : Nat) : Int := toSigned 64 (x % 2 ^ 64)
def s32 (x : Nat) : Int := toSigned 32 (x % 2 ^ 32)

/-- Division and remainder: by zero all ones and the dividend; overflow gives the dividend and 0. -/
def rvDiv (a b : Int) (w : Nat) : Int := if b = 0 then -1 else if a = -(2 : Int) ^ (w - 1) ∧ b = -1 then a else a.tdiv b
def rvRem (a b : Int) (w : Nat) : Int := if b = 0 then a else if a = -(2 : Int) ^ (w - 1) ∧ b = -1 then 0 else a.tmod b

def rvMul (o : RvMul) (a b : Nat) : Nat :=
  match o with
  | .mul => a * b % 2 ^ 64
  | .mulh => m64 (s64 a * s64 b / 2 ^ 64)
  | .mulhsu => m64 (s64 a * (b : Int) / 2 ^ 64)
  | .mulhu => a * b / 2 ^ 64
  | .div => m64 (rvDiv (s64 a) (s64 b) 64)
  | .divu => if b = 0 then 2 ^ 64 - 1 else a / b
  | .rem => m64 (rvRem (s64 a) (s64 b) 64)
  | .remu => if b = 0 then a else a % b

def rvMulW (o : RvMulW) (a b : Nat) : Nat :=
  let x := a % 2 ^ 32
  let y := b % 2 ^ 32
  match o with
  | .mulw => m64 (s32 (x * y))
  | .divw => m64 (s32 (m64 (rvDiv (s32 a) (s32 b) 32)))
  | .divuw => if y = 0 then 2 ^ 64 - 1 else m64 (s32 (x / y))
  | .remw => m64 (s32 (m64 (rvRem (s32 a) (s32 b) 32)))
  | .remuw => if y = 0 then m64 (s32 x) else m64 (s32 (x % y))

def rvImm (o : RvImm) (a : Nat) (i : Int) : Nat :=
  match o with
  | .addi => m64 (a + i)
  | .slti => (decide (s64 a < i)).toNat
  | .sltiu => (decide (a < m64 i)).toNat
  | .xori => Nat.xor a (m64 i)
  | .ori => Nat.lor a (m64 i)
  | .andi => Nat.land a (m64 i)

def rvShift (o : RvSh) (a n : Nat) : Nat :=
  match o with
  | .sll => a * 2 ^ n % 2 ^ 64
  | .srl => a / 2 ^ n
  | .sra => m64 (s64 a / 2 ^ n)

def rvShiftW (o : RvSh) (a n : Nat) : Nat :=
  match o with
  | .sll => m64 (s32 (a * 2 ^ n))
  | .srl => m64 (s32 (a % 2 ^ 32 / 2 ^ n))
  | .sra => m64 (s32 a / 2 ^ n)

def rvOp (o : RvOpR) (a b : Nat) : Nat :=
  match o with
  | .add => (a + b) % 2 ^ 64
  | .sub => m64 ((a : Int) - b)
  | .sll => rvShift .sll a (b % 64)
  | .slt => (decide (s64 a < s64 b)).toNat
  | .sltu => (decide (a < b)).toNat
  | .xor => Nat.xor a b
  | .srl => rvShift .srl a (b % 64)
  | .sra => rvShift .sra a (b % 64)
  | .or => Nat.lor a b
  | .and => Nat.land a b

def rvOpW (o : RvOpW) (a b : Nat) : Nat :=
  match o with
  | .addw => m64 (s32 (a + b))
  | .subw => m64 (s32 (m64 ((a : Int) - b)))
  | .sllw => rvShiftW .sll a (b % 32)
  | .srlw => rvShiftW .srl a (b % 32)
  | .sraw => rvShiftW .sra a (b % 32)

def rvTaken (c : RvBr) (a b : Nat) : Bool :=
  match c with
  | .beq => a == b
  | .bne => a != b
  | .blt => decide (s64 a < s64 b)
  | .bge => decide (s64 b ≤ s64 a)
  | .bltu => decide (a < b)
  | .bgeu => decide (b ≤ a)

/-- Bytes, and whether the value is sign-extended. -/
def rvLdOf : RvLd → Nat × Bool
  | .lb => (1, true) | .lh => (2, true) | .lw => (4, true) | .ld => (8, false)
  | .lbu => (1, false) | .lhu => (2, false) | .lwu => (4, false)
def rvStOf : RvSt → Nat
  | .sb => 1 | .sh => 2 | .sw => 4 | .sd => 8

def rvLoadVal (n : Nat) (sx : Bool) (x : Nat) : Nat := if sx then m64 (toSigned (8 * n) x) else x

/-- The new value of an AMO of n bytes. -/
def rvAmoNew (o : RvAmo) (n old v : Nat) : Nat :=
  let m := 2 ^ (8 * n)
  let b := v % m
  let sg := toSigned (8 * n)
  match o with
  | .swap => b
  | .add => (old + b) % m
  | .xor => Nat.xor old b
  | .and => Nat.land old b
  | .or => Nat.lor old b
  | .min => if sg old ≤ sg b then old else b
  | .max => if sg b ≤ sg old then old else b
  | .minu => Nat.min old b
  | .maxu => Nat.max old b

/-- A data access of n bytes within the partition, or a handler fault (R206, R217). -/
def State.hdata (s : State) (r : Run) (a n : Nat) (f : State) : State :=
  if s.inData r a n n then f else s.handlerFault s.hart 1 false

/-- Reservation of LR: address and width. -/
def resvKey (a n : Nat) : Nat := a * 16 + n

/-- A base instruction of `len` bytes. -/
def State.rv (s : State) (r : Run) (len : Nat) (o : RvOp) : State :=
  let put (cost : Nat) (rd : XReg) (v : Nat) : State := s.hdone r len cost id fun q => q.setReg rd v
  let goto (cost : Nat) (rd : XReg) (v tgt : Nat) : State :=
    s.hdone r len cost id fun q => { q.setReg rd v with pc := tgt }
  let rd64 (a n : Nat) : Nat := ofBytes (s.sl.dataRead a n)
  match o with
  | .lui rd i => put 1 rd (m64 (i.toInt * 4096))
  | .auipc rd i => put 1 rd (m64 (r.pc + i.toInt * 4096))
  | .jal rd off => goto 2 rd (r.pc + len) (m64 (r.pc + off.toInt * 2))
  | .jalr rd rs1 i => goto 2 rd (r.pc + len) (m64 (r.reg rs1 + i.toInt) / 2 * 2)
  | .branch c a b off =>
    if rvTaken c (r.reg a) (r.reg b) then goto 2 0 0 (m64 (r.pc + off.toInt * 2)) else put 1 0 0
  | .load w rd rs1 i =>
    let a := m64 (r.reg rs1 + i.toInt)
    let n := (rvLdOf w).1
    s.hdata r a n (put 2 rd (rvLoadVal n (rvLdOf w).2 (rd64 a n)))
  | .store w rs1 rs2 i =>
    let a := m64 (r.reg rs1 + i.toInt)
    let n := rvStOf w
    s.hdata r a n (s.hdone r len 2 (fun t => t.modSl fun x => x.dataWrite a (toBytes n (r.reg rs2))) id)
  | .opImm o rd rs1 i => put 1 rd (rvImm o (r.reg rs1) i.toInt)
  | .shImm o rd rs1 sh => put 1 rd (rvShift o (r.reg rs1) sh.toNat)
  | .op o rd a b => put 1 rd (rvOp o (r.reg a) (r.reg b))
  | .addiw rd rs1 i => put 1 rd (m64 (s32 (m64 (r.reg rs1 + i.toInt))))
  | .shImmW o rd rs1 sh => put 1 rd (rvShiftW o (r.reg rs1) sh.toNat)
  | .opW o rd a b => put 1 rd (rvOpW o (r.reg a) (r.reg b))
  | .mulDiv o rd a b =>
    put (match o with | .mul => 3 | .mulh => 3 | .mulhsu => 3 | .mulhu => 3 | _ => 20) rd (rvMul o (r.reg a) (r.reg b))
  | .mulDivW o rd a b => put (if o = .mulw then 3 else 20) rd (rvMulW o (r.reg a) (r.reg b))
  | .lr d _ _ rd rs1 =>
    let n := if d then 8 else 4
    let a := r.reg rs1
    s.hdata r a n (s.hdone r len 4 id fun q => { q.setReg rd (rvLoadVal n true (rd64 a n)) with resv := some (resvKey a n) })
  | .sc d _ _ rd rs1 rs2 =>
    let n := if d then 8 else 4
    let a := r.reg rs1
    let ok := r.resv == some (resvKey a n)
    s.hdata r a n (s.hdone r len 4
      (fun t => if ok then t.modSl fun x => x.dataWrite a (toBytes n (r.reg rs2)) else t)
      fun q => { q.setReg rd (!ok).toNat with resv := none })
  | .amo o d _ _ rd rs1 rs2 =>
    let n := if d then 8 else 4
    let a := r.reg rs1
    let old := rd64 a n
    s.hdata r a n (s.hdone r len 4
      (fun t => t.modSl fun x => x.dataWrite a (toBytes n (rvAmoNew o n old (r.reg rs2))))
      fun q => q.setReg rd (rvLoadVal n true old))
  | .fence .. => put 1 0 0

/-- HANDLER_BASE_INSTRUCTION: an RV64IMAC instruction; a compressed one is its expansion (R205, R410). -/
def execHandlerBase (w : RvWord) (s : State) : Out :=
  s.withRun fun r => match w with
    | .full o => s.rv r 4 o
    | .compressed b => match rvcExpand b.toNat with
      | some o => s.rv r 2 o
      | none => s.handlerFault s.hart 0 false

end Sys2Proof.Machine
end

