-- ==== Sys2Proof/Machine/Dispatch.lean ====
section
/-!
DEFINITION. The meaning of every instruction and event: one arm per constructor of Instr.
-/
namespace Sys2Proof.Machine

/-- The effect of an instruction or event on the machine. -/
def exec (i : Instr) (s : State) : Host.Outcome State Fault Refusal :=
  match i with
  | .nop desc => Sys2Proof.Machine.execNop desc s
  | .br t => Sys2Proof.Machine.execBr t s
  | .bra l => Sys2Proof.Machine.execBra l s
  | .brs cc z t => Sys2Proof.Machine.execBrs cc z t s
  | .brv cc k t => Sys2Proof.Machine.execBrv cc k t s
  | .call l t => Sys2Proof.Machine.execCall l t s
  | .ret l => Sys2Proof.Machine.execRet l s
  | .jmpl ld l => Sys2Proof.Machine.execJmpl ld l s
  | .loopi l count => Sys2Proof.Machine.execLoopi l count s
  | .loope l t => Sys2Proof.Machine.execLoope l t s
  | .chk r t => Sys2Proof.Machine.execChk r t s
  | .wait fs => Sys2Proof.Machine.execWait fs s
  | .waitp es => Sys2Proof.Machine.execWaitp es s
  | .setf f => Sys2Proof.Machine.execSetf f s
  | .clrf f => Sys2Proof.Machine.execClrf f s
  | .setp pd src => Sys2Proof.Machine.execSetp pd src s
  | .post tgt f => Sys2Proof.Machine.execPost tgt f s
  | .dbar lvl lead => Sys2Proof.Machine.execDbar lvl lead s
  | .send dmod ch l nfl => Sys2Proof.Machine.execSend dmod ch l nfl s
  | .recv smod ch l nfl => Sys2Proof.Machine.execRecv smod ch l nfl s
  | .mark lm => Sys2Proof.Machine.execMark lm s
  | .yield => Sys2Proof.Machine.execYield s
  | .exit => Sys2Proof.Machine.execExit s
  | .trap code val => Sys2Proof.Machine.execTrap code val s
  | .tret => Sys2Proof.Machine.execTret s
  | .add sd sa sb sh => Sys2Proof.Machine.execAdd sd sa sb sh s
  | .sub sd sa sb sh => Sys2Proof.Machine.execSub sd sa sb sh s
  | .addi sd sa imm => Sys2Proof.Machine.execAddi sd sa imm s
  | .mul sd sa sb acc => Sys2Proof.Machine.execMul sd sa sb acc s
  | .mulh sd sa sb => Sys2Proof.Machine.execMulh sd sa sb s
  | .mulhn sd sa sb => Sys2Proof.Machine.execMulhn sd sa sb s
  | .div sd sa sb => Sys2Proof.Machine.execDiv sd sa sb s
  | .divn sd sa sb => Sys2Proof.Machine.execDivn sd sa sb s
  | .rem sd sa sb => Sys2Proof.Machine.execRem sd sa sb s
  | .remn sd sa sb => Sys2Proof.Machine.execRemn sd sa sb s
  | .and sd sa sb => Sys2Proof.Machine.execAnd sd sa sb s
  | .or sd sa sb => Sys2Proof.Machine.execOr sd sa sb s
  | .xor sd sa sb => Sys2Proof.Machine.execXor sd sa sb s
  | .andn sd sa sb => Sys2Proof.Machine.execAndn sd sa sb s
  | .shl sd sa amt => Sys2Proof.Machine.execShl sd sa amt s
  | .shr sd sa amt => Sys2Proof.Machine.execShr sd sa amt s
  | .sar sd sa amt => Sys2Proof.Machine.execSar sd sa amt s
  | .rot sd sa amt => Sys2Proof.Machine.execRot sd sa amt s
  | .clz sd sa => Sys2Proof.Machine.execClz sd sa s
  | .ctz sd sa => Sys2Proof.Machine.execCtz sd sa s
  | .popc sd sa => Sys2Proof.Machine.execPopc sd sa s
  | .min sd sa sb => Sys2Proof.Machine.execMin sd sa sb s
  | .max sd sa sb => Sys2Proof.Machine.execMax sd sa sb s
  | .minn sd sa sb => Sys2Proof.Machine.execMinn sd sa sb s
  | .maxn sd sa sb => Sys2Proof.Machine.execMaxn sd sa sb s
  | .cmp cc pd sa sb => Sys2Proof.Machine.execCmp cc pd sa sb s
  | .cmpi cc pd sa imm => Sys2Proof.Machine.execCmpi cc pd sa imm s
  | .sel sd neg p sa sb => Sys2Proof.Machine.execSel sd neg p sa sb s
  | .li sd imm => Sys2Proof.Machine.execLi sd imm s
  | .lih sd imm => Sys2Proof.Machine.execLih sd imm s
  | .mov sd sa => Sys2Proof.Machine.execMov sd sa s
  | .xsv vd lane ss => Sys2Proof.Machine.execXsv vd lane ss s
  | .xvs sd vs lane => Sys2Proof.Machine.execXvs sd vs lane s
  | .xsa ad ss => Sys2Proof.Machine.execXsa ad ss s
  | .xas sd sa => Sys2Proof.Machine.execXas sd sa s
  | .xsl ld ss => Sys2Proof.Machine.execXsl ld ss s
  | .xls sd ls => Sys2Proof.Machine.execXls sd ls s
  | .mfc sd creg => Sys2Proof.Machine.execMfc sd creg s
  | .mtc creg ss => Sys2Proof.Machine.execMtc creg ss s
  | .vadd f vd va vb k => Sys2Proof.Machine.execVadd f vd va vb k s
  | .vsub f vd va vb k => Sys2Proof.Machine.execVsub f vd va vb k s
  | .vmul f vd va vb k => Sys2Proof.Machine.execVmul f vd va vb k s
  | .vmulh w n vd va vb k => Sys2Proof.Machine.execVmulh w n vd va vb k s
  | .vmad f vd va vb vc k => Sys2Proof.Machine.execVmad f vd va vb vc k s
  | .vabs w sat vd va k => Sys2Proof.Machine.execVabs w sat vd va k s
  | .vmin w vd va vb k => Sys2Proof.Machine.execVmin w vd va vb k s
  | .vmax w vd va vb k => Sys2Proof.Machine.execVmax w vd va vb k s
  | .vminn w vd va vb k => Sys2Proof.Machine.execVminn w vd va vb k s
  | .vmaxn w vd va vb k => Sys2Proof.Machine.execVmaxn w vd va vb k s
  | .vand vd va vb k => Sys2Proof.Machine.execVand vd va vb k s
  | .vor vd va vb k => Sys2Proof.Machine.execVor vd va vb k s
  | .vxor vd va vb k => Sys2Proof.Machine.execVxor vd va vb k s
  | .vlut3 tt vd va vb vc k => Sys2Proof.Machine.execVlut3 tt vd va vb vc k s
  | .vshl w vd va amt k => Sys2Proof.Machine.execVshl w vd va amt k s
  | .vshr w vd va amt k => Sys2Proof.Machine.execVshr w vd va amt k s
  | .vsar w vd va amt k => Sys2Proof.Machine.execVsar w vd va amt k s
  | .vfsl w vd va vb amt k => Sys2Proof.Machine.execVfsl w vd va vb amt k s
  | .vfsr w vd va vb amt k => Sys2Proof.Machine.execVfsr w vd va vb amt k s
  | .vrot w vd va amt k => Sys2Proof.Machine.execVrot w vd va amt k s
  | .vpopc w vd va k => Sys2Proof.Machine.execVpopc w vd va k s
  | .vclz w vd va k => Sys2Proof.Machine.execVclz w vd va k s
  | .vcmp cc w agg kd va vb k => Sys2Proof.Machine.execVcmp cc w agg kd va vb k s
  | .vsel neg kn vd va vb k => Sys2Proof.Machine.execVsel neg kn vd va vb k s
  | .vbcst w vd va idx k => Sys2Proof.Machine.execVbcst w vd va idx k s
  | .vperm w vd va vb k => Sys2Proof.Machine.execVperm w vd va vb k s
  | .vrotl w vd va r k => Sys2Proof.Machine.execVrotl w vd va r k s
  | .vreda f vd va k => Sys2Proof.Machine.execVreda f vd va k s
  | .vredm max f vd va k => Sys2Proof.Machine.execVredm max f vd va k s
  | .vtest zd src k => Sys2Proof.Machine.execVtest zd src k s
  | .vfadd t rm vd va vb k => Sys2Proof.Machine.execVfadd t rm vd va vb k s
  | .vfsub t rm vd va vb k => Sys2Proof.Machine.execVfsub t rm vd va vb k s
  | .vfmul t rm vd va vb k => Sys2Proof.Machine.execVfmul t rm vd va vb k s
  | .vfma f t rm vd va vb vc k => Sys2Proof.Machine.execVfma f t rm vd va vb vc k s
  | .vfmin t vd va vb k => Sys2Proof.Machine.execVfmin t vd va vb k s
  | .vfmax t vd va vb k => Sys2Proof.Machine.execVfmax t vd va vb k s
  | .vfcmp cc t agg kd va vb k => Sys2Proof.Machine.execVfcmp cc t agg kd va vb k s
  | .vfrcp t rm vd va k => Sys2Proof.Machine.execVfrcp t rm vd va k s
  | .vfrsq t rm vd va k => Sys2Proof.Machine.execVfrsq t rm vd va k s
  | .vfexp2 t rm vd va k => Sys2Proof.Machine.execVfexp2 t rm vd va k s
  | .vflog2 t rm vd va k => Sys2Proof.Machine.execVflog2 t rm vd va k s
  | .vcvt dt st rm vd va p k => Sys2Proof.Machine.execVcvt dt st rm vd va p k s
  | .vcvti toFloat t n w rm vd va p k => Sys2Proof.Machine.execVcvti toFloat t n w rm vd va p k s
  | .vcvtx fromBlk t bt rm vd va vb p => Sys2Proof.Machine.execVcvtx fromBlk t bt rm vd va vb p s
  | .vpack sw n dn sat vd va vb k => Sys2Proof.Machine.execVpack sw n dn sat vd va vb k s
  | .vunpk dw n vd va p k => Sys2Proof.Machine.execVunpk dw n vd va p k s
  | .vtrd cv vd tile idx seg k => Sys2Proof.Machine.execVtrd cv vd tile idx seg k s
  | .vtcd cv vd tile idx seg k => Sys2Proof.Machine.execVtcd cv vd tile idx seg k s
  | .vtwr cv vs tile idx seg k => Sys2Proof.Machine.execVtwr cv vs tile idx seg k s
  | .vmov vd va k => Sys2Proof.Machine.execVmov vd va k s
  | .viota src vd k => Sys2Proof.Machine.execViota src vd k s
  | .vkop f => Sys2Proof.Machine.execVkop f s
  | .sgo sw hm pl flag => Sys2Proof.Machine.execSgo sw hm pl flag s
  | .slen j => Sys2Proof.Machine.execSlen j s
  | .sseed => Sys2Proof.Machine.execSseed s
  | .smode afmt bfmt bp noshift prog => Sys2Proof.Machine.execSmode afmt bfmt bp noshift prog s
  | .sref e => Sys2Proof.Machine.execSref e s
  | .sclr pls => Sys2Proof.Machine.execSclr pls s
  | .sacc bf tile trow pl prow pcol => Sys2Proof.Machine.execSacc bf tile trow pl prow pcol s
  | .smarg drow col0 ncol => Sys2Proof.Machine.execSmarg drow col0 ncol s
  | .sdrain pls => Sys2Proof.Machine.execSdrain pls s
  | .stest pl => Sys2Proof.Machine.execStest pl s
  | .sstop pls => Sys2Proof.Machine.execSstop pls s
  | .svmrg g new => Sys2Proof.Machine.execSvmrg g new s
  | .spos pl sel => Sys2Proof.Machine.execSpos pl sel s
  | .slit tgt => Sys2Proof.Machine.execSlit tgt s
  | .ld d w sx a => Sys2Proof.Machine.execLd d w sx a s
  | .ldv vd w a => Sys2Proof.Machine.execLdv vd w a s
  | .lds d a => Sys2Proof.Machine.execLds d a s
  | .ldg vd w a => Sys2Proof.Machine.execLdg vd w a s
  | .ldx g hint a => Sys2Proof.Machine.execLdx g hint a s
  | .lda d w scope ab cls mask => Sys2Proof.Machine.execLda d w scope ab cls mask s
  | .pref cls hint a => Sys2Proof.Machine.execPref cls hint a s
  | .waitaddr ad w ab tout cls => Sys2Proof.Machine.execWaitaddr ad w ab tout cls s
  | .ldt a => Sys2Proof.Machine.execLdt a s
  | .cbtake vd cls => Sys2Proof.Machine.execCbtake vd cls s
  | .rfetch sd cls a => Sys2Proof.Machine.execRfetch sd cls a s
  | .st d w a => Sys2Proof.Machine.execSt d w a s
  | .stv vs w a => Sys2Proof.Machine.execStv vs w a s
  | .sts vs w idx loc ab off cls hint => Sys2Proof.Machine.execSts vs w idx loc ab off cls hint s
  | .stx vs w a => Sys2Proof.Machine.execStx vs w a s
  | .strl d w scope ab cls mask => Sys2Proof.Machine.execStrl d w scope ab cls mask s
  | .stt a => Sys2Proof.Machine.execStt a s
  | .atom op w ab ss cls hint ret => Sys2Proof.Machine.execAtom op w ab ss cls hint ret s
  | .red op w ab ss cls hint => Sys2Proof.Machine.execRed op w ab ss cls hint s
  | .rflush cls a => Sys2Proof.Machine.execRflush cls a s
  | .fence b scope mask => Sys2Proof.Machine.execFence b scope mask s
  | .cline op cls a => Sys2Proof.Machine.execCline op cls a s
  | .cbdone ss => Sys2Proof.Machine.execCbdone ss s
  | .hmsg vs ab cls rpl => Sys2Proof.Machine.execHmsg vs ab cls rpl s
  | .cpy a => Sys2Proof.Machine.execCpy a s
  | .cpyc a => Sys2Proof.Machine.execCpyc a s
  | .cpyt a => Sys2Proof.Machine.execCpyt a s
  | .cpye a => Sys2Proof.Machine.execCpye a s
  | .bind sw kind g hc cls hint => Sys2Proof.Machine.execBind sw kind g hc cls hint s
  | .unbind g flag => Sys2Proof.Machine.execUnbind g flag s
  | .reshape mode r cls flag => Sys2Proof.Machine.execReshape mode r cls flag s
  | .stash sw r hc hint flag => Sys2Proof.Machine.execStash sw r hc hint flag s
  | .cwb keep r cls flag => Sys2Proof.Machine.execCwb keep r cls flag s
  | .cqry flag mask => Sys2Proof.Machine.execCqry flag mask s
  | .rwin sw hc len wid flag => Sys2Proof.Machine.execRwin sw hc len wid flag s
  | .slrd rd rs1 => Sys2Proof.Machine.execSlrd rd rs1 s
  | .slwr rs1 rs2 => Sys2Proof.Machine.execSlwr rs1 rs2 s
  | .sllk rd rs1 => Sys2Proof.Machine.execSllk rd rs1 s
  | .slunlk rs1 => Sys2Proof.Machine.execSlunlk rs1 s
  | .slfill noev rd rs1 => Sys2Proof.Machine.execSlfill noev rd rs1 s
  | .sldrop rs1 => Sys2Proof.Machine.execSldrop rs1 s
  | .slwb rs1 => Sys2Proof.Machine.execSlwb rs1 s
  | .slamo op rd rs1 rs2 => Sys2Proof.Machine.execSlamo op rd rs1 rs2 s
  | .slevt rd rs1 => Sys2Proof.Machine.execSlevt rd rs1 s
  | .slmsg rd rs1 rs2 => Sys2Proof.Machine.execSlmsg rd rs1 rs2 s
  | .slret rs1 => Sys2Proof.Machine.execSlret rs1 s
  | .slbud rd => Sys2Proof.Machine.execSlbud rd s
  | .slnext noev rd rs1 => Sys2Proof.Machine.execSlnext noev rd rs1 s
  | .slwait rd rs1 => Sys2Proof.Machine.execSlwait rd rs1 s
  | .slage rs1 rs2 => Sys2Proof.Machine.execSlage rs1 rs2 s
  | .slhas rd rs1 => Sys2Proof.Machine.execSlhas rd rs1 s
  | .handlerBase w => Sys2Proof.Machine.execHandlerBase w s
  | .contextSelection k => Sys2Proof.Machine.execContextSelection k s
  | .blockStart k c => Sys2Proof.Machine.execBlockStart k c s
  | .blockOverrun k c => Sys2Proof.Machine.execBlockOverrun k c s
  | .waitReissue k c => Sys2Proof.Machine.execWaitReissue k c s
  | .flagSetByAgent k c f => Sys2Proof.Machine.execFlagSetByAgent k c f s
  | .postFlagDelivery n => Sys2Proof.Machine.execPostFlagDelivery n s
  | .barrierRelease n => Sys2Proof.Machine.execBarrierRelease n s
  | .leadRestart k c => Sys2Proof.Machine.execLeadRestart k c s
  | .spanBarrierMessage n => Sys2Proof.Machine.execSpanBarrierMessage n s
  | .preemptStopAtWait k c => Sys2Proof.Machine.execPreemptStopAtWait k c s
  | .saveRecordWritten k c => Sys2Proof.Machine.execSaveRecordWritten k c s
  | .owedWritePerformed n => Sys2Proof.Machine.execOwedWritePerformed n s
  | .nestKstep k pl => Sys2Proof.Machine.execNestKstep k pl s
  | .nestPassEnd k pl => Sys2Proof.Machine.execNestPassEnd k pl s
  | .planeOpComplete k pl => Sys2Proof.Machine.execPlaneOpComplete k pl s
  | .qtailWrite q v => Sys2Proof.Machine.execQtailWrite q v s
  | .qctlWrite q v => Sys2Proof.Machine.execQctlWrite q v s
  | .recordFetch q => Sys2Proof.Machine.execRecordFetch q s
  | .launchRetirement n => Sys2Proof.Machine.execLaunchRetirement n s
  | .heldCreditApply n => Sys2Proof.Machine.execHeldCreditApply n s
  | .launchFault n => Sys2Proof.Machine.execLaunchFault n s
  | .faultStopTimeout k c => Sys2Proof.Machine.execFaultStopTimeout k c s
  | .preemptTimeout n => Sys2Proof.Machine.execPreemptTimeout n s
  | .barrierTimeout n => Sys2Proof.Machine.execBarrierTimeout n s
  | .cbtailWrite u v => Sys2Proof.Machine.execCbtailWrite u v s
  | .cbRecordAdmit u => Sys2Proof.Machine.execCbRecordAdmit u s
  | .cbGroupScan u => Sys2Proof.Machine.execCbGroupScan u s
  | .cbGroupOpen u => Sys2Proof.Machine.execCbGroupOpen u s
  | .cbHandout u => Sys2Proof.Machine.execCbHandout u s
  | .cbdoneCount u => Sys2Proof.Machine.execCbdoneCount u s
  | .cberrWrite u v => Sys2Proof.Machine.execCberrWrite u v s
  | .pageWalk n => Sys2Proof.Machine.execPageWalk n s
  | .invAsid asid => Sys2Proof.Machine.execInvAsid asid s
  | .invRange asid => Sys2Proof.Machine.execInvRange asid s
  | .bounceWrite n => Sys2Proof.Machine.execBounceWrite n s
  | .pagerResolve n => Sys2Proof.Machine.execPagerResolve n s
  | .stashGranuleFill k n => Sys2Proof.Machine.execStashGranuleFill k n s
  | .granuleInvalidate k n => Sys2Proof.Machine.execGranuleInvalidate k n s
  | .homeAccess n => Sys2Proof.Machine.execHomeAccess n s
  | .reductionShadowAdd n => Sys2Proof.Machine.execReductionShadowAdd n s
  | .channelFillArrival sl n => Sys2Proof.Machine.execChannelFillArrival sl n s
  | .hmsgArrival n => Sys2Proof.Machine.execHmsgArrival n s
  | .handlerDispatch sl => Sys2Proof.Machine.execHandlerDispatch sl s
  | .handlerBudgetAbort sl => Sys2Proof.Machine.execHandlerBudgetAbort sl s
  | .replyDelivery n => Sys2Proof.Machine.execReplyDelivery n s
  | .farLoadReturn n => Sys2Proof.Machine.execFarLoadReturn n s
  | .destinationFaultReport n => Sys2Proof.Machine.execDestinationFaultReport n s
  | .copyDispatch k n => Sys2Proof.Machine.execCopyDispatch k n s
  | .copyComplete k n => Sys2Proof.Machine.execCopyComplete k n s
  | .engineAccessAbandon n => Sys2Proof.Machine.execEngineAccessAbandon n s
  | .galleyFill k g => Sys2Proof.Machine.execGalleyFill k g s
  | .engineOpComplete k n => Sys2Proof.Machine.execEngineOpComplete k n s
  | .spanMessageArrival n => Sys2Proof.Machine.execSpanMessageArrival n s
  | .spanMessageDiscard n => Sys2Proof.Machine.execSpanMessageDiscard n s
  | .waitaddrWake k c => Sys2Proof.Machine.execWaitaddrWake k c s
  | .waitaddrTimeout k c => Sys2Proof.Machine.execWaitaddrTimeout k c s
  | .arcStopQuiesce x => Sys2Proof.Machine.execArcStopQuiesce x s
  | .elheadWrite v => Sys2Proof.Machine.execElheadWrite v s
  | .unmappedWindowAccess a => Sys2Proof.Machine.execUnmappedWindowAccess a s
  | .energyWindow k => Sys2Proof.Machine.execEnergyWindow k s
  | .hostCompletion n => Sys2Proof.Machine.execHostCompletion n s
  | .segmentReplay k pl => Sys2Proof.Machine.execSegmentReplay k pl s
  | .accumulatorParityError k pl => Sys2Proof.Machine.execAccumulatorParityError k pl s
  | .lateResponseDiscard n => Sys2Proof.Machine.execLateResponseDiscard n s
  | .chipletResetControlled x => Sys2Proof.Machine.execChipletResetControlled x s
  | .chipletResetUncontrolled x => Sys2Proof.Machine.execChipletResetUncontrolled x s
  | .memoryChipletReset m => Sys2Proof.Machine.execMemoryChipletReset m s
  | .flitCrcReplay n => Sys2Proof.Machine.execFlitCrcReplay n s
  | .linkFailover n => Sys2Proof.Machine.execLinkFailover n s
  | .spanLinkDown n => Sys2Proof.Machine.execSpanLinkDown n s
  | .uncorrectableError kind unit => Sys2Proof.Machine.execUncorrectableError kind unit s
  | .correctedErrorMerge kind unit => Sys2Proof.Machine.execCorrectedErrorMerge kind unit s
  | .getMeasurements n => Sys2Proof.Machine.execGetMeasurements n s
  | .hostMemRead a => Sys2Proof.Machine.execHostMemRead a s
  | .hostMemWrite a v => Sys2Proof.Machine.execHostMemWrite a v s
  | .hostErrorCompletion n => Sys2Proof.Machine.execHostErrorCompletion n s
  | .droopInject k => Sys2Proof.Machine.execDroopInject k s
  | .temperatureReading n t0 t1 t2 => Sys2Proof.Machine.execTemperatureReading n t0 t1 t2 s
  | .throttleEnter n => Sys2Proof.Machine.execThrottleEnter n s
  | .throttleLeave n => Sys2Proof.Machine.execThrottleLeave n s
  | .imonDisagree a b => Sys2Proof.Machine.execImonDisagree a b s
  | .thermalTrip n => Sys2Proof.Machine.execThermalTrip n s
  | .debugHalt x => Sys2Proof.Machine.execDebugHalt x s
  | .debugSave x => Sys2Proof.Machine.execDebugSave x s
  | .debugRelease x => Sys2Proof.Machine.execDebugRelease x s
  | .registerWrite a v => Sys2Proof.Machine.execRegisterWrite a v s
  | .memoryChipletReturn m => Sys2Proof.Machine.execMemoryChipletReturn m s
  | .droopClear k => Sys2Proof.Machine.execDroopClear k s
  | .bbfullRecord n => Sys2Proof.Machine.execBbfullRecord n s
  | .invAll => Sys2Proof.Machine.execInvAll s
  | .selection => Sys2Proof.Machine.execSelection s
  | .invalidationDone => Sys2Proof.Machine.execInvalidationDone s
  | .coldStart => Sys2Proof.Machine.execColdStart s
  | .warmStart => Sys2Proof.Machine.execWarmStart s
  | .warmStartKeep => Sys2Proof.Machine.execWarmStartKeep s
  | .hostReset => Sys2Proof.Machine.execHostReset s
  | .startFailure => Sys2Proof.Machine.execStartFailure s
  | .currentHalving => Sys2Proof.Machine.execCurrentHalving s
  | .currentRestore => Sys2Proof.Machine.execCurrentRestore s
  | .railGood => Sys2Proof.Machine.execRailGood s

end Sys2Proof.Machine
end

