-- ==== Sys2Proof/Machine/Step.lean ====
section
/-!
DEFINITION. One step of the machine (log 1): the next slot of the bundle in issue, else the first move that is due, else the
agents' moves of the next turn become due.
-/
namespace Sys2Proof.Machine

/-- The slot of the bundle in issue: its effect when its predicate holds, and the bundle's end after its last slot. -/
def stepSlot (e : Slot) (n : SlotNo) (s : State) : Host.Outcome State Fault Refusal :=
  if (s.nextSlot n).enabled e then
    match exec e.instr (s.nextSlot n) with
    | .next t => .next t.afterSlot
    | .fault r => .fault r
    | .refused r => .refused r
  else .next (s.nextSlot n).afterSlot

/-- The turn of a handler core: the instruction it fetches, or its wait or fault. -/
def stepHart (s : State) : Host.Outcome State Fault Refusal :=
  match s.hartStep with
  | .run i => exec i s
  | .done t => .next t

/-- A move that is due. -/
def stepMove (m : Move) (s : State) : Host.Outcome State Fault Refusal :=
  match m with
  | .act i => exec i s
  | .hart h => stepHart { s with hart := h }

/-- One step. -/
def step (s : State) : Host.Outcome State Fault Refusal :=
  match s.slots, s.slotNos with
  | e :: _, n :: _ => stepSlot e n s
  | _, _ =>
    match s.agenda with
    | m :: ms => stepMove m { s with agenda := ms }
    | [] => .next s.idle

/-- The machine with an instruction of the opcode table, whose bits are w, where the next step fetches (log 2): in the
code memory of slice 0, whose handler core has the next turn. -/
def State.withFetchWord (s : State) (nbits w : Nat) : State := s.placeWord (w % 2 ^ nbits)

end Sys2Proof.Machine
end

