-- ==== Sys2Proof/Certificates/Slice0/Obligations.lean ====
section
/-!
DEFINITION. The statements about the model, each after the rules of the spec that its docstring names, and the words they
are made of: what a rule says an instruction computes, written here again from the rule, and the next state it leaves,
written as the fields of the state that change.
-/
namespace Sys2Proof.Claims
open Sys2Proof.Machine

/-! ## Next states -/

/-- The machine with register s[d] of the context in issue holding v, and nothing else changed. -/
def setSVal (s : State) (d : SReg) (v : SVal) : State :=
  s.modMe fun x => { x with regs := { x.regs with s := sset ⟨0, false⟩ x.regs.s d.toNat v } }

/-- The same, clear of poison. -/
def setS (s : State) (d : SReg) (v : Word) : State := setSVal s d ⟨v, false⟩

/-- The machine with one more result in flight to `d`, which every read sees from the `bound`-th bundle on (R248), and
nothing else changed but the count of such results. -/
def later (s : State) (d : Dst) (v : VWord) (psn : Bool) (bound : Nat) : State :=
  { s.modMe fun x =>
      { x with pend := x.pend ++ [⟨s.nextId, d, v, psn, some (s.cur.bno + bound), true, 0, none⟩] } with
    nextId := s.nextId + 1 }

/-- A scalar result: at once with bound 1, in flight with a greater one (R248). -/
def scalarDone (s : State) (d : SReg) (v : Word) (bound : Nat) : State :=
  if bound = 1 then setS s d v else later s (.s d) (v.setWidth 1024) false bound

/-- The machine with predicate p[d] of the context in issue set; a write to p0 is ignored (R247). -/
def setP (s : State) (d : PReg) (b : Bool) : State :=
  if d = 0 then s
  else s.modMe fun x => { x with regs := { x.regs with p := setBit x.regs.p d.toNat b } }

/-- The machine with register l[d] of the context in issue holding v, and nothing else changed. -/
def setL (s : State) (d : LReg) (v : Word) : State :=
  s.modMe fun x => { x with regs := { x.regs with l := sset 0 x.regs.l d.toNat v } }

/-- No older result to a register is in flight. -/
abbrev quiet (s : State) (d : Dst) : Prop := s.inFlight d = false

/-! ## The S slot (R260 to R263) -/

/-- What a rule of the S slot says: destination, sources whose poison it takes, value, bound. -/
structure ScalarRule where
  dst : SReg
  srcs : List SReg
  val : Word
  bound : Nat

/-- The shift amount of R260, and the sources that it adds. -/
def shiftAmount (s : State) (amt : ShAmt) : Nat × List SReg :=
  match amt with
  | .imm n => (n.toNat, [])
  | .reg sb => ((s.rdS sb).val.toNat % 64, [sb])

/-- The integer quotient and remainder of R261. -/
def quotRem (a b : Int) : Int × Int := if b = 0 then (-1, a) else (a.tdiv b, a.tmod b)

/-- Operands of the S slot, over which the tables below range. -/
structure ScalarOps where
  sd : SReg
  sa : SReg
  sb : SReg
  sc : SReg
  sh : BitVec 6
  amt : ShAmt
  p : PReg
  neg : Bool
  i36 : BitVec 36
  i42 : BitVec 42
  i22 : BitVec 22

/-- The arithmetic of R260, R261 and R263 on numbers: n is a register as N64, z as I64. -/
def scalarTable (s : State) (o : ScalarOps) : List (Instr × ScalarRule) :=
  let w (r : SReg) : Word := (s.rdS r).val
  let n (r : SReg) : Nat := (w r).toNat
  let z (r : SReg) : Int := (w r).toInt
  let m := (shiftAmount s o.amt).1
  let ab := [o.sa, o.sb]
  let am := o.sa :: (shiftAmount s o.amt).2
  [(.add o.sd o.sa o.sb o.sh, ⟨o.sd, ab, .ofNat 64 (n o.sa + n o.sb * 2 ^ o.sh.toNat), 1⟩),
   (.sub o.sd o.sa o.sb o.sh, ⟨o.sd, ab, .ofInt 64 (n o.sa - n o.sb * 2 ^ o.sh.toNat), 1⟩),
   (.addi o.sd o.sa o.i36, ⟨o.sd, [o.sa], .ofInt 64 (n o.sa + o.i36.toInt), 1⟩),
   (.mul o.sd o.sa o.sb none, ⟨o.sd, ab, .ofNat 64 (n o.sa * n o.sb), 3⟩),
   (.mul o.sd o.sa o.sb (some o.sc), ⟨o.sd, [o.sa, o.sb, o.sc], .ofNat 64 (n o.sa * n o.sb + n o.sc), 3⟩),
   (.mulh o.sd o.sa o.sb, ⟨o.sd, ab, .ofInt 64 (z o.sa * z o.sb / 2 ^ 64), 3⟩),
   (.mulhn o.sd o.sa o.sb, ⟨o.sd, ab, .ofNat 64 (n o.sa * n o.sb / 2 ^ 64), 3⟩),
   (.div o.sd o.sa o.sb, ⟨o.sd, ab, .ofInt 64 (quotRem (z o.sa) (z o.sb)).1, 18⟩),
   (.divn o.sd o.sa o.sb, ⟨o.sd, ab, .ofInt 64 (quotRem (n o.sa) (n o.sb)).1, 18⟩),
   (.rem o.sd o.sa o.sb, ⟨o.sd, ab, .ofInt 64 (quotRem (z o.sa) (z o.sb)).2, 18⟩),
   (.remn o.sd o.sa o.sb, ⟨o.sd, ab, .ofInt 64 (quotRem (n o.sa) (n o.sb)).2, 18⟩)] ++
  [(.and o.sd o.sa o.sb, ⟨o.sd, ab, .ofNat 64 (n o.sa &&& n o.sb), 1⟩),
   (.or o.sd o.sa o.sb, ⟨o.sd, ab, .ofNat 64 (n o.sa ||| n o.sb), 1⟩),
   (.xor o.sd o.sa o.sb, ⟨o.sd, ab, .ofNat 64 (n o.sa ^^^ n o.sb), 1⟩),
   (.andn o.sd o.sa o.sb, ⟨o.sd, ab, .ofNat 64 (n o.sa &&& (2 ^ 64 - 1 - n o.sb)), 1⟩),
   (.shl o.sd o.sa o.amt, ⟨o.sd, am, .ofNat 64 (n o.sa * 2 ^ m), 1⟩),
   (.shr o.sd o.sa o.amt, ⟨o.sd, am, .ofNat 64 (n o.sa / 2 ^ m), 1⟩),
   (.sar o.sd o.sa o.amt, ⟨o.sd, am, .ofInt 64 (z o.sa / 2 ^ m), 1⟩),
   (.rot o.sd o.sa o.amt, ⟨o.sd, am, .ofNat 64 (n o.sa * 2 ^ m + n o.sa / 2 ^ (64 - m)), 1⟩),
   (.clz o.sd o.sa, ⟨o.sd, [o.sa], .ofNat 64 (if n o.sa = 0 then 64 else 63 - (n o.sa).log2), 1⟩),
   (.ctz o.sd o.sa,
    ⟨o.sd, [o.sa], .ofNat 64 (((List.range 64).find? fun j => (w o.sa).getLsbD j).getD 64), 1⟩),
   (.popc o.sd o.sa, ⟨o.sd, [o.sa], .ofNat 64 ((List.range 64).countP fun j => (w o.sa).getLsbD j), 1⟩)] ++
  [(.min o.sd o.sa o.sb, ⟨o.sd, ab, .ofInt 64 (min (z o.sa) (z o.sb)), 1⟩),
   (.max o.sd o.sa o.sb, ⟨o.sd, ab, .ofInt 64 (max (z o.sa) (z o.sb)), 1⟩),
   (.minn o.sd o.sa o.sb, ⟨o.sd, ab, .ofNat 64 (min (n o.sa) (n o.sb)), 1⟩),
   (.maxn o.sd o.sa o.sb, ⟨o.sd, ab, .ofNat 64 (max (n o.sa) (n o.sb)), 1⟩),
   (.sel o.sd o.neg o.p o.sa o.sb, ⟨o.sd, ab, if xor (s.rdP o.p) o.neg then w o.sa else w o.sb, 1⟩),
   (.li o.sd o.i42, ⟨o.sd, [], .ofInt 64 o.i42.toInt, 1⟩),
   (.lih o.sd o.i22, ⟨o.sd, [o.sd], .ofNat 64 (o.i22.toNat * 2 ^ 42 + n o.sd % 2 ^ 42), 1⟩),
   (.mov o.sd o.sa, ⟨o.sd, [o.sa], w o.sa, 1⟩)]

/-- A condition of R262 on two 64-bit values. -/
def condition (cc : Cond) (a b : Word) : Prop :=
  match cc with
  | .eq => a = b
  | .ne => a ≠ b
  | .lt => a.toInt < b.toInt
  | .ge => b.toInt ≤ a.toInt
  | .ltn => a.toNat < b.toNat
  | .gen => b.toNat ≤ a.toNat
  | .tst => a &&& b ≠ 0
  | .ntst => a &&& b = 0

/-- The comparisons, each with the values compared and the sources whose poison counts (R262, R263). -/
def compareTable (s : State) (pd : PReg) (cc : Cond) (sa sb : SReg) (imm : BitVec 32) :
    List (Instr × Word × Word × List SReg) :=
  [(.cmp cc pd sa sb, (s.rdS sa).val, (s.rdS sb).val, [sa, sb]),
   (.cmpi cc pd sa imm, (s.rdS sa).val, .ofInt 64 imm.toInt, [sa])]

/-- The transfers of R264 and MFC: what must hold for each, where it delivers, and what. -/
def transferTable (s : State) (sd : SReg) (ad : AReg) (ld : LReg) (vs : VReg) (lane : BitVec 5) (creg : BitVec 12) :
    List (Instr × Prop × Dst × Word) :=
  [(.xsa ad sd, (s.rdS sd).psn = false, .a ad, (s.rdS sd).val),
   (.xas sd ad, True, .s sd, s.rdA ad),
   (.xsl ld sd, (s.rdS sd).psn = false, .l ld, (s.rdS sd).val),
   (.xls sd ld, True, .s sd, s.rdL ld),
   (.xvs sd vs lane, s.galley? vs = none ∧ (s.rdV vs).psn = false, .s sd,
    .ofNat 64 ((s.rdV vs).val.toNat / 2 ^ (32 * lane.toNat) % 2 ^ 32)),
   (.mfc sd creg, 0x0C0 ≤ creg.toNat ∧ creg.toNat ≤ 0x0DF → creg.toNat - 0x0C0 < s.me.bnd.ctile, .s sd,
    .ofNat 64 (s.creg creg.toNat))]

/-- A trap of the slot in issue with a cause of R438 and the detail of R441. -/
def slotTrap (s : State) (cause detail : Nat) : Trap := ⟨cause, some s.cur.slot, detail, none⟩

/-! ## Galleys as operands (R168, R169, R265, R287) -/

/-- What a galley's oldest entry gives to a pop. -/
def headOf (g : Galley) : Option VWord := g.q.head?.bind (·.2)

/-- The reason of R450 with which a pop traps: of a write galley, beyond a pattern's end, of an LDX galley that owes nothing. -/
def popTrap (s : State) (v : VReg) : Option Nat :=
  match s.galley? v with
  | none => none
  | some (_, g) =>
    match g.kind with
    | .wr => some 2
    | .rd => if g.remaining = 0 then some 0 else none
    | .ldx => if g.q = [] then some 5 else none

/-- A pop waits: its entry is not filled yet, or an LDX is owed (R169, R320). -/
def popWaits (s : State) (v : VReg) : Prop :=
  match s.galley? v with
  | none => False
  | some (_, g) => headOf g = none ∨ (g.kind = .ldx ∧ ∃ e ∈ g.q, e.2 = none)

/-- A source can be read: a register without poison, or a galley whose pop neither traps nor waits. -/
def sourceReady (s : State) (v : VReg) : Prop :=
  popTrap s v = none ∧ ¬popWaits s v ∧ (s.galley? v = none → (s.rdV v).psn = false)

/-- What a source gives: its register, or its galley's oldest entry. -/
def sourceVal (s : State) (v : VReg) : VWord :=
  match s.galley? v with
  | none => (s.rdV v).val
  | some (_, g) => (headOf g).getD 0

/-- The galleys after an instruction: each that a source names has lost its oldest entry, once; the one that the destination
names has one entry more, which the result fills when it lands (R250); every other one is as it was. -/
def galleysMoved (s t : State) (srcs : List VReg) (vd : Option VReg) : Prop :=
  ∀ n g, s.cc.galleys.lookup n = some g → ∃ q, t.cc.galleys.lookup n = some { g with q := q } ∧
    ((∃ v ∈ srcs, s.galley? v = some (n, g)) → q = g.q.tail) ∧
    ((∃ v, vd = some v ∧ s.galley? v = some (n, g)) → q = g.q ++ [(s.nextId, none)]) ∧
    ((∀ v ∈ srcs, s.galley? v ≠ some (n, g)) → (∀ v, vd = some v → s.galley? v ≠ some (n, g)) → q = g.q)

/-- A v result is in flight under its bound: to its register, or to the entry of its galley that it fills. -/
def vInFlight (s t : State) (vd : VReg) (v : VWord) (bound : Nat) : Prop :=
  ∃ p ∈ t.me.pend, p.val = v ∧ p.psn = false ∧ p.due = some (s.cur.bno + bound) ∧ p.ready = true ∧
    match s.galley? vd with
    | none => p.dst = .v vd
    | some (n, _) => p.tag = s.nextId ∧ p.dst = .push (.ofNat 4 n)

/-- The slot waits: its context is blocked and nothing of its bundle has had an effect (R126). -/
def waits (s t : State) : Prop :=
  t.me.st = .blocked ∧ t.me.wait = .retry ∧ t.me.regs = s.me.regs ∧ t.clusters = s.clusters ∧ t.accs = s.accs ∧ t.mem = s.mem ∧
    t.slots = []

/-- The control registers that R376 lets MTC write: rw registers, the W1C ones, and ERPC and ERMPC in the trap handler,
TRAPM being what it is at issue (R248, R377). -/
def mtcMayWrite (s : State) (r : Nat) : Prop :=
  r ∈ [0x010, 0x011, 0x012, 0x021, 0x041, 0x080, 0x081, 0x082, 0x083, 0x084, 0x085] ∨ (0x088 ≤ r ∧ r ≤ 0x08B) ∨ (0x090 ≤ r ∧ r ≤ 0x095) ∨
    (0x0A0 ≤ r ∧ r ≤ 0x0BF) ∨
    (0x0C0 ≤ r ∧ r ≤ 0x0DF ∧ r - 0x0C0 < s.me.bnd.ctile) ∨ (r ∈ [0x042, 0x043] ∧ s.snapSys.trapm = true)

end Sys2Proof.Claims

/-- R260, R261, R263: the arithmetic of the S slot. Every such instruction completes, with its stated result under its
bound of R250, and changes nothing else, when no source is poisoned and no older result to its destination is in
flight. -/
def Obligations.ScalarResults : Prop :=
  ∀ (s : Sys2Proof.Machine.State) (o : Sys2Proof.Claims.ScalarOps), ∀ e ∈ Sys2Proof.Claims.scalarTable s o,
    (∀ x ∈ e.2.srcs, (s.rdS x).psn = false) → Sys2Proof.Claims.quiet s (.s e.2.dst) →
    Sys2Proof.Machine.exec e.1 s = .next (Sys2Proof.Claims.scalarDone s e.2.dst e.2.val e.2.bound)

/-- R260, R246: with a poisoned source the instruction completes too; its destination is poisoned, its value is one that
nothing fixes (log 4), and nothing else changes. -/
def Sys2Proof.Claims.scalarPoison : Prop :=
  ∀ (s : Sys2Proof.Machine.State) (o : Sys2Proof.Claims.ScalarOps), ∀ e ∈ Sys2Proof.Claims.scalarTable s o,
    (∃ x ∈ e.2.srcs, (s.rdS x).psn = true) → Sys2Proof.Claims.quiet s (.s e.2.dst) →
    ∃ v : Sys2Proof.VWord, Sys2Proof.Machine.exec e.1 s = .next
      (if e.2.bound = 1 then Sys2Proof.Claims.setSVal { s with free := s.free + 1 } e.2.dst ⟨v.setWidth 64, true⟩
       else Sys2Proof.Claims.later { s with free := s.free + 1 } (.s e.2.dst) v true e.2.bound)

/-- R249: a result whose bound of 1 ends before that of an older result to the same register is visible at once; the
older result is undefined when it lands (its value is then a free one, log 4), and until then reads see the new result or
the older one (R6, R248). -/
def Obligations.ScalarOvertakes : Prop :=
  ∀ (s : Sys2Proof.Machine.State) (o : Sys2Proof.Claims.ScalarOps) (p : Sys2Proof.Machine.Pend),
    ∀ e ∈ Sys2Proof.Claims.scalarTable s o, e.2.bound = 1 → (∀ x ∈ e.2.srcs, (s.rdS x).psn = false) →
    p ∈ s.me.pend → p.dst = .s e.2.dst →
    (∀ q ∈ s.me.pend, q.dst = .s e.2.dst → ∃ d, q.due = some d ∧ s.cur.bno + 1 < d) →
    ∃ t, Sys2Proof.Machine.exec e.1 s = .next t ∧
      Sys2Proof.Machine.sget ⟨0, false⟩ t.me.regs.s e.2.dst.toNat = ⟨e.2.val, false⟩ ∧
      { p with undef := some s.free } ∈ t.me.pend ∧
      (Sys2Proof.Machine.Pend.final { p with undef := some s.free }).val = Sys2Proof.Config.freeBits 1024 s.free

/-- R260, R262, R263: CMP and CMPI complete and set their predicate to the condition; a write to p0 is ignored; with a
poisoned source the predicate is undefined. Nothing else changes. -/
def Obligations.Comparisons : Prop :=
  ∀ (s : Sys2Proof.Machine.State) (pd : Sys2Proof.PReg) (cc : Sys2Proof.Cond) (sa sb : Sys2Proof.SReg) (imm : BitVec 32),
    ∀ e ∈ Sys2Proof.Claims.compareTable s pd cc sa sb imm,
    ((∀ x ∈ e.2.2.2, (s.rdS x).psn = false) →
      ∃ t : Bool, (t = true ↔ Sys2Proof.Claims.condition cc e.2.1 e.2.2.1) ∧
        Sys2Proof.Machine.exec e.1 s = .next (Sys2Proof.Claims.setP s pd t)) ∧
    ((∃ x ∈ e.2.2.2, (s.rdS x).psn = true) →
      ∃ t : Bool, Sys2Proof.Machine.exec e.1 s = .next { Sys2Proof.Claims.setP s pd t with free := s.free + 1 })

/-- R264, R266: the transfers into s, a and l registers and MFC complete under their bound of 2 and change nothing
else. XAS and XLS clear the poison of their destination. -/
def Obligations.Transfers : Prop :=
  ∀ (s : Sys2Proof.Machine.State) (sd : Sys2Proof.SReg) (ad : Sys2Proof.AReg) (ld : Sys2Proof.LReg)
      (vs : Sys2Proof.VReg) (lane : BitVec 5) (creg : BitVec 12),
    ∀ e ∈ Sys2Proof.Claims.transferTable s sd ad ld vs lane creg, e.2.1 → Sys2Proof.Claims.quiet s e.2.2.1 →
    Sys2Proof.Machine.exec e.1 s = .next (Sys2Proof.Claims.later s e.2.2.1 (e.2.2.2.setWidth 1024) false 2)

/-- R264: XSV into a register that is no bound galley replaces one lane, keeps the others, takes the poison of its
source's register, under a bound of 2. -/
def Sys2Proof.Claims.laneInserted : Prop :=
  ∀ (s : Sys2Proof.Machine.State) (vd : Sys2Proof.VReg) (lane : BitVec 5) (ss : Sys2Proof.SReg),
    s.galley? vd = none → (s.rdS ss).psn = false → Sys2Proof.Claims.quiet s (.v vd) →
    ∃ v : Sys2Proof.VWord, Sys2Proof.Machine.exec (.xsv vd lane ss) s = .next (Sys2Proof.Claims.later s (.v vd) v false 2) ∧
      ∀ e, e < 32 → Sys2Proof.Machine.elemAt 32 v e =
        if e = lane.toNat then (s.rdS ss).val.setWidth 32 else Sys2Proof.Machine.elemAt 32 (s.rdV vd).val e

/-- R169, R265, R450: XVS from a read galley pops one entry and delivers its lane; XSV to a write galley pushes one entry with
the value in its lane and zero in the others; both are non-repeatable, wait for an entry or a place, and take the galley trap
where it is misused; a push of poison takes the poison trap. -/
def Sys2Proof.Claims.galleyMoves : Prop :=
  ∀ (s : Sys2Proof.Machine.State) (sd ss : Sys2Proof.SReg) (v : Sys2Proof.VReg) (lane : BitVec 5) (n : Nat)
      (g : Sys2Proof.Machine.Galley), s.galley? v = some (n, g) →
    (Sys2Proof.Claims.sourceReady s v → Sys2Proof.Claims.quiet s (.s sd) →
      ∃ t, Sys2Proof.Machine.exec (.xvs sd v lane) s = .next t ∧ Sys2Proof.Claims.galleysMoved s t [v] none ∧
        (∃ p ∈ t.me.pend, p.dst = .s sd ∧
          p.val = .ofNat 1024 ((Sys2Proof.Claims.sourceVal s v).toNat / 2 ^ (32 * lane.toNat) % 2 ^ 32) ∧
          p.psn = false ∧ p.due = some (s.cur.bno + 2) ∧ p.ready = true) ∧
        t.me.nr = true ∧ t.me.regs = s.me.regs ∧ t.accs = s.accs ∧ t.mem = s.mem) ∧
    (∀ r, Sys2Proof.Claims.popTrap s v = some r → Sys2Proof.Machine.exec (.xvs sd v lane) s =
      .next (s.trap (Sys2Proof.Claims.slotTrap s 0x0006 (r * 16 + v.toNat % 16)))) ∧
    (Sys2Proof.Claims.popTrap s v = none → Sys2Proof.Claims.popWaits s v →
      ∃ t, Sys2Proof.Machine.exec (.xvs sd v lane) s = .next t ∧ Sys2Proof.Claims.waits s t) ∧
    (g.kind = .wr → (s.rdS ss).psn = false →
      (g.q.length < 8 → ∃ t x, Sys2Proof.Machine.exec (.xsv v lane ss) s = .next t ∧
        Sys2Proof.Claims.galleysMoved s t [] (some v) ∧ Sys2Proof.Claims.vInFlight s t v x 2 ∧
        (∀ e, e < 32 → Sys2Proof.Machine.elemAt 32 x e = if e = lane.toNat then (s.rdS ss).val.setWidth 32 else 0) ∧
        t.me.nr = true ∧ t.me.regs = s.me.regs ∧ t.accs = s.accs ∧ t.mem = s.mem) ∧
      (8 ≤ g.q.length → ∃ t, Sys2Proof.Machine.exec (.xsv v lane ss) s = .next t ∧ Sys2Proof.Claims.waits s t)) ∧
    (g.kind ≠ .wr → Sys2Proof.Machine.exec (.xsv v lane ss) s =
      .next (s.trap (Sys2Proof.Claims.slotTrap s 0x0006 (16 + v.toNat % 16)))) ∧
    (g.kind = .wr → (s.rdS ss).psn = true → Sys2Proof.Machine.exec (.xsv v lane ss) s =
      .next (s.trap (Sys2Proof.Claims.slotTrap s 0x0005 ss.toNat)))

/-- R169, R264, R265: XSV replaces one lane of a register and keeps the others; XVS pops a read galley and XSV pushes a write
galley, and each takes its trap on a galley that it cannot use. -/
def Obligations.LaneInsert : Prop := Sys2Proof.Claims.laneInserted ∧ Sys2Proof.Claims.galleyMoves

/-- R266, R376, R377: MTC completes under its bound of 2 and changes nothing else, for every source that is not poisoned and
every register that the map lets it write. From a poisoned register it takes the poison trap; to a TSHAPE beyond the claim
the claim trap; to any other assigned register the control-register trap. -/
def Obligations.ControlWrites : Prop :=
  ∀ (s : Sys2Proof.Machine.State) (creg : BitVec 12) (ss : Sys2Proof.SReg),
    ((s.rdS ss).psn = false → Sys2Proof.Claims.mtcMayWrite s creg.toNat → Sys2Proof.Claims.quiet s (.creg creg) →
      Sys2Proof.Machine.exec (.mtc creg ss) s =
        .next (Sys2Proof.Claims.later s (.creg creg) ((s.rdS ss).val.setWidth 1024) false 2)) ∧
    ((s.rdS ss).psn = true → Sys2Proof.Machine.exec (.mtc creg ss) s = .next (s.trap ⟨0x0005, some s.cur.slot, ss.toNat, none⟩)) ∧
    ((s.rdS ss).psn = false → 0x0C0 ≤ creg.toNat → creg.toNat ≤ 0x0DF → s.me.bnd.ctile ≤ creg.toNat - 0x0C0 →
      Sys2Proof.Machine.exec (.mtc creg ss) s =
        .next (s.trap ⟨0x0007, some s.cur.slot, 2 ^ 36 + (creg.toNat - 0x0C0), none⟩)) ∧
    ((s.rdS ss).psn = false → Sys2Proof.cregAssigned creg.toNat = true → ¬Sys2Proof.Claims.mtcMayWrite s creg.toNat →
      ¬(0x0C0 ≤ creg.toNat ∧ creg.toNat ≤ 0x0DF) →
      Sys2Proof.Machine.exec (.mtc creg ss) s = .next (s.trap ⟨0x0014, some s.cur.slot, creg.toNat, none⟩))


namespace Sys2Proof.Claims
open Sys2Proof.Machine

/-! ## The Y slot (R251 to R254, R267 to R283) -/

/-- The machine whose context in issue goes to an offset after its two delay slots (R251), and nothing else changed. -/
def goTo (s : State) (pc mpc : Nat) : State := s.modMe fun x => { x with br := some ⟨3, some (pc, mpc)⟩ }

/-- The machine whose branch is not taken: its two delay slots issue all the same (R251). -/
def fallThrough (s : State) : State := s.modMe fun x => { x with br := some ⟨3, none⟩ }

/-- PC and MPC of a target, as offsets from the image base (R253). -/
def targetPc (s : State) (t : BrTarget) : Int := s.cur.bpc + 64 * t.bdisp.toInt
def targetMpc (s : State) (t : BrTarget) : Int := s.cur.bmpc + 8 * t.ldisp.toInt

/-- Does an offset lie in the image's text? -/
abbrev inText (s : State) (pc : Int) : Prop := (s.me.bnd.entry : Int) ≤ pc ∧ pc < s.me.bnd.textEnd

/-- A summary test of R268 on the bits of R247: [8] ANY, [7] ALL, [6] NONE. -/
def sumTest (cc : SumTest) (z : BitVec 9) : Prop :=
  match cc with
  | .any => z.getLsbD 8 = true
  | .all => z.getLsbD 7 = true
  | .none => z.getLsbD 6 = true
  | .nall => z.getLsbD 7 = false

/-- A mask test of R269. -/
def maskTest (cc : MaskTest) (k : BitVec 32) : Prop :=
  match cc with
  | .all => k = 0xFFFFFFFF
  | .none => k = 0

/-- A mask is uniform (R269). -/
abbrev uniform (k : BitVec 32) : Prop := k = 0 ∨ k = 0xFFFFFFFF

/-- The conditional branches with what must hold first, and when each is taken (R267 to R269, R271). -/
def branchTable (s : State) (t : BrTarget) (cc : SumTest) (z : ZReg) (mc : MaskTest) (k : KReg) (sr : SReg) (vr : VReg) :
    List (Instr × Prop × Prop) :=
  [(.br t, True, True), (.brs cc z t, True, sumTest cc (s.rdZ z)), (.brv mc k t, uniform (s.rdK k), maskTest mc (s.rdK k)),
   (.chk (.s sr) t, True, (s.rdS sr).psn = true), (.chk (.v vr) t, True, s.galley? vr = none ∧ (s.rdV vr).psn = true)]

/-- Bundle offset and literal index of a link (R254): bits [39:6] and [63:40], bits [5:0] zero. -/
def linkOff (l : Word) : Nat := l.toNat / 64 % 2 ^ 34 * 64
def linkLit (s : State) (l : Word) : Nat := s.me.bnd.metaoff + 8 * (l.toNat / 2 ^ 40)

/-- The link that a CALL or JMPL writes: the bundle three after the branch, and the literal index there (R254). -/
def linkWord (s : State) : Word :=
  .ofNat 64 (((s.cur.bmpc - s.me.bnd.metaoff) / 8 + s.linkSlots) % 2 ^ 24 * 2 ^ 40 + (s.cur.bpc / 64 + 3) % 2 ^ 34 * 64)

/-- A release point goes ahead: every access of the context is translated, and no fault of the context is due (R445). -/
abbrev mayRelease (s : State) (mark : Bool) : Prop := s.untranslated = false ∧ s.releaseFault mark = none

end Sys2Proof.Claims

/-- R253, R267 to R269, R271: BR, BRS, BRV and CHK complete. One that is taken goes to its target after its delay slots;
a target outside the text takes the branch-target trap; one that is not taken changes nothing but that its delay slots
are under way. -/
def Obligations.ConditionalBranches : Prop :=
  ∀ (s : Sys2Proof.Machine.State) (t : Sys2Proof.BrTarget) (cc : Sys2Proof.SumTest) (z : Sys2Proof.ZReg)
      (mc : Sys2Proof.MaskTest) (k : Sys2Proof.KReg) (sr : Sys2Proof.SReg) (vr : Sys2Proof.VReg),
    ∀ e ∈ Sys2Proof.Claims.branchTable s t cc z mc k sr vr, e.2.1 →
    (e.2.2 → Sys2Proof.Claims.inText s (Sys2Proof.Claims.targetPc s t) → Sys2Proof.Machine.exec e.1 s =
      .next (Sys2Proof.Claims.goTo s (Sys2Proof.Claims.targetPc s t).toNat (Sys2Proof.Claims.targetMpc s t).toNat)) ∧
    (e.2.2 → ¬Sys2Proof.Claims.inText s (Sys2Proof.Claims.targetPc s t) → ∃ d, Sys2Proof.Machine.exec e.1 s =
      .next (s.trap (Sys2Proof.Claims.slotTrap s 0x0003 d))) ∧
    (¬e.2.2 → Sys2Proof.Machine.exec e.1 s = .next (Sys2Proof.Claims.fallThrough s))

/-- R269: BRV reads all 32 bits of its mask. BRV.ALL is taken with every bit 1 and not with every bit 0, BRV.NONE the other
way round; with any other mask both take the non-uniform branch trap, which reports the mask, before any delay slot. -/
def Obligations.MaskBranches : Prop :=
  ∀ (s : Sys2Proof.Machine.State) (k : Sys2Proof.KReg) (t : Sys2Proof.BrTarget),
    let taken : Host.Outcome Sys2Proof.Machine.State Sys2Proof.Machine.Fault Sys2Proof.Machine.Refusal :=
      .next (Sys2Proof.Claims.goTo s (Sys2Proof.Claims.targetPc s t).toNat (Sys2Proof.Claims.targetMpc s t).toNat)
    (s.rdK k = 0xFFFFFFFF →
      (Sys2Proof.Claims.inText s (Sys2Proof.Claims.targetPc s t) → Sys2Proof.Machine.exec (.brv .all k t) s = taken) ∧
      Sys2Proof.Machine.exec (.brv .none k t) s = .next (Sys2Proof.Claims.fallThrough s)) ∧
    (s.rdK k = 0 →
      (Sys2Proof.Claims.inText s (Sys2Proof.Claims.targetPc s t) → Sys2Proof.Machine.exec (.brv .none k t) s = taken) ∧
      Sys2Proof.Machine.exec (.brv .all k t) s = .next (Sys2Proof.Claims.fallThrough s)) ∧
    (s.rdK k ≠ 0xFFFFFFFF → s.rdK k ≠ 0 → ∀ cc : Sys2Proof.MaskTest, Sys2Proof.Machine.exec (.brv cc k t) s =
      .next (s.trap (Sys2Proof.Claims.slotTrap s 0x0004 (k.toNat * 2 ^ 32 + (s.rdK k).toNat))))

/-- R254, R267: BRA, RET, JMPL and CALL complete. The first three go where the link says, read before JMPL writes its
own; JMPL and CALL leave the link of the bundle three after theirs. A link with low bits, or outside the text, takes the
branch-target trap. -/
def Obligations.LinkBranches : Prop :=
  ∀ (s : Sys2Proof.Machine.State) (l ld : Sys2Proof.LReg) (t : Sys2Proof.BrTarget),
    ((s.rdL l).toNat % 64 = 0 ∧ Sys2Proof.Claims.inText s (Sys2Proof.Claims.linkOff (s.rdL l)) →
      Sys2Proof.Machine.exec (.bra l) s = .next (Sys2Proof.Claims.goTo s (Sys2Proof.Claims.linkOff (s.rdL l))
        (Sys2Proof.Claims.linkLit s (s.rdL l))) ∧
      Sys2Proof.Machine.exec (.ret l) s = .next (Sys2Proof.Claims.goTo s (Sys2Proof.Claims.linkOff (s.rdL l))
        (Sys2Proof.Claims.linkLit s (s.rdL l))) ∧
      (Sys2Proof.Claims.quiet s (.l ld) → Sys2Proof.Machine.exec (.jmpl ld l) s =
        .next (Sys2Proof.Claims.goTo (Sys2Proof.Claims.setL s ld (Sys2Proof.Claims.linkWord s))
          (Sys2Proof.Claims.linkOff (s.rdL l)) (Sys2Proof.Claims.linkLit s (s.rdL l))))) ∧
    (¬((s.rdL l).toNat % 64 = 0 ∧ Sys2Proof.Claims.inText s (Sys2Proof.Claims.linkOff (s.rdL l))) →
      ∀ i ∈ [Sys2Proof.Instr.bra l, .ret l, .jmpl ld l], Sys2Proof.Machine.exec i s =
        .next (s.trap (Sys2Proof.Claims.slotTrap s 0x0003 ((s.rdL l).toNat / 64 % 2 ^ 34)))) ∧
    (Sys2Proof.Claims.inText s (Sys2Proof.Claims.targetPc s t) → Sys2Proof.Claims.quiet s (.l ld) →
      Sys2Proof.Machine.exec (.call ld t) s =
        .next (Sys2Proof.Claims.goTo (Sys2Proof.Claims.setL s ld (Sys2Proof.Claims.linkWord s))
          (Sys2Proof.Claims.targetPc s t).toNat (Sys2Proof.Claims.targetMpc s t).toNat))

/-- R270: LOOPI writes its count. LOOPE with a count of 0 is not taken; with 1 it writes 0 and is not taken; with more it
writes one less and is taken. Nothing else changes. -/
def Obligations.CountedLoops : Prop :=
  ∀ (s : Sys2Proof.Machine.State) (l : Sys2Proof.LReg) (count : BitVec 16) (t : Sys2Proof.BrTarget),
    Sys2Proof.Claims.quiet s (.l l) →
    Sys2Proof.Machine.exec (.loopi l count) s = .next (Sys2Proof.Claims.setL s l (.ofNat 64 count.toNat)) ∧
    ((s.rdL l).toNat = 0 → Sys2Proof.Machine.exec (.loope l t) s = .next (Sys2Proof.Claims.fallThrough s)) ∧
    ((s.rdL l).toNat = 1 → Sys2Proof.Machine.exec (.loope l t) s =
      .next (Sys2Proof.Claims.fallThrough (Sys2Proof.Claims.setL s l 0))) ∧
    (1 < (s.rdL l).toNat → Sys2Proof.Claims.inText s (Sys2Proof.Claims.targetPc s t) →
      Sys2Proof.Machine.exec (.loope l t) s =
        .next (Sys2Proof.Claims.goTo (Sys2Proof.Claims.setL s l (.ofNat 64 ((s.rdL l).toNat - 1)))
          (Sys2Proof.Claims.targetPc s t).toNat (Sys2Proof.Claims.targetMpc s t).toNat))

/-- A flag after a write in this cycle: a set by another agent in the same cycle wins over a clear (R86). -/
def Sys2Proof.Claims.flagAfter (s : Sys2Proof.Machine.State) (f : Sys2Proof.FReg) (b : Bool) : Bool :=
  b || (decide (s.me.fsetAt = s.cycle + 1) && s.me.fset.getLsbD f.toNat)

/-- The machine with a flag of the context in issue written, and nothing else changed but the note of the flags set in this
cycle. -/
def Sys2Proof.Claims.flagWritten (s t : Sys2Proof.Machine.State) (f : Sys2Proof.FReg) (b : Bool) : Prop :=
  ∃ fs n, t = s.modMe fun x =>
    { x with regs := { x.regs with f := Sys2Proof.Machine.setBit x.regs.f f.toNat (Sys2Proof.Claims.flagAfter s f b) },
             fset := fs, fsetAt := n }

/-- R83, R86, R273 to R275, R280: NOP changes nothing; SETF sets one flag of its context, CLRF
clears one that no agent has set in the same cycle; SETP writes its predicate from
a flag, a summary test or a value; WAIT whose flags are all 1 issues and changes nothing; with one of them 0 its bundle
waits and nothing of it has had an effect; YIELD changes only the order of selection. -/
def Obligations.FlagsAndWaits : Prop :=
  ∀ (s : Sys2Proof.Machine.State) (f : Sys2Proof.FReg) (pd : Sys2Proof.PReg) (cc : Sys2Proof.SumTest) (z : Sys2Proof.ZReg)
      (b : Bool) (w : Sys2Proof.WaitFlags) (desc : BitVec 48),
    Sys2Proof.Machine.exec (.nop desc) s = .next s ∧
    (∃ t, Sys2Proof.Machine.exec (.setf f) s = .next t ∧ Sys2Proof.Claims.flagWritten s t f true) ∧
    (∃ t, Sys2Proof.Machine.exec (.clrf f) s = .next t ∧ Sys2Proof.Claims.flagWritten s t f false) ∧
    Sys2Proof.Machine.exec (.setp pd (.flag f)) s = .next (Sys2Proof.Claims.setP s pd (s.me.regs.f.getLsbD f.toNat)) ∧
    (∃ t : Bool, (t = true ↔ Sys2Proof.Claims.sumTest cc (s.rdZ z)) ∧
      Sys2Proof.Machine.exec (.setp pd (.sum cc z)) s = .next (Sys2Proof.Claims.setP s pd t)) ∧
    Sys2Proof.Machine.exec (.setp pd (.value b)) s = .next (Sys2Proof.Claims.setP s pd b) ∧
    ((∀ g ∈ [w.f0, w.f1, w.f2, w.f3, w.f4, w.f5, w.f6, w.f7], s.me.regs.f.getLsbD g.toNat = true) →
      Sys2Proof.Machine.exec (.wait w) s = .next s) ∧
    ((∃ g ∈ [w.f0, w.f1, w.f2, w.f3, w.f4, w.f5, w.f6, w.f7], s.me.regs.f.getLsbD g.toNat = false) →
      ∃ t, Sys2Proof.Machine.exec (.wait w) s = .next t ∧ t.me.st = .blocked ∧ t.me.wait = .flags ∧
        t.me.regs = s.me.regs ∧ t.slots = [] ∧ t.accs = s.accs ∧ t.clusters = s.clusters ∧ t.mem = s.mem) ∧
    ∃ cs, Sys2Proof.Machine.exec .yield s = .next (s.modMe fun x => { x with aside := cs }) ∧
      ∀ c : Sys2Proof.CtxNo, c ∈ cs ↔ c ≠ s.cur.ctx ∧ (s.ctx s.cur.cl.toNat c.toNat).st = .ready

/-- R88, R276: WAITP lets the slots without a valid entry, and those whose flag is 1, issue with it, and holds the
others for their flags. -/
def Obligations.SlotWaits : Prop :=
  ∀ (s : Sys2Proof.Machine.State) (es : Sys2Proof.WaitEntries), s.slots.length = s.slotNos.length →
    ∃ t, Sys2Proof.Machine.exec (.waitp es) s = .next t ∧ t.me.regs = s.me.regs ∧ t.accs = s.accs ∧ t.clusters = s.clusters ∧
      t.mem = s.mem ∧ t.slots.length = t.slotNos.length ∧
      ∀ (n : Sys2Proof.SlotNo) (e : Sys2Proof.WaitEntry),
        (n, e) ∈ [(Sys2Proof.SlotNo.s, es.s), (.v0, es.v0), (.v1, es.v1), (.m, es.m), (.l, es.l), (.t, es.t), (.c, es.c)] →
        n ∈ s.slotNos →
        (n ∈ t.me.held ↔ n ∈ s.me.held ∨ (e.valid = true ∧ s.me.regs.f.getLsbD e.flag.toNat = false)) ∧
        (n ∈ t.slotNos ↔ ¬(e.valid = true ∧ s.me.regs.f.getLsbD e.flag.toNat = false))

/-- R91, R101, R279: MARK releases the held writes, shadows the registers as they stand (a result in flight lands in the working
copy alone), clears NR, and makes the next bundle the restart point with its livemap index; a pre-emption that a TRET held back
may stop the context from then on (R444); with one asked for, its context stops there to be saved. In the trap handler it takes the trap-state trap, and with an index at or beyond LMCOUNT the livemap trap. -/
def Obligations.Marks : Prop :=
  ∀ (s : Sys2Proof.Machine.State) (lm : BitVec 16),
    (s.me.trapm = false → lm.toNat < s.me.bnd.lmcount → Sys2Proof.Claims.mayRelease s true →
      let t := (s.release s.cur.cl.toNat s.cur.ctx.toNat).modMe fun x =>
        { x with shadow := x.regs, nr := false, tret := false, markId := s.nextId, rpc := s.cur.bpc + 64,
                 rmpc := s.cur.bmpc, lmidx := lm, blkNew := false }
      (s.me.preempt = false → Sys2Proof.Machine.exec (.mark lm) s = .next t) ∧
      (s.me.preempt = true → ∃ u, Sys2Proof.Machine.exec (.mark lm) s = .next u ∧ u.me.st = .saving ∧ u.me.srsn = 1 ∧
        u.me.pend = [] ∧ u.me.shadow = t.me.shadow ∧ u.me.rpc = t.me.rpc ∧ u.me.lmidx = lm ∧ u.me.nr = false ∧ u.mem = s.mem ∧
        .act (.saveRecordWritten s.cur.cl s.cur.ctx) ∈ u.agenda)) ∧
    (s.me.trapm = true → Sys2Proof.Machine.exec (.mark lm) s = .next (s.trap (Sys2Proof.Claims.slotTrap s 0x0015 1))) ∧
    (s.me.trapm = false → s.me.bnd.lmcount ≤ lm.toNat →
      Sys2Proof.Machine.exec (.mark lm) s = .next (s.trap (Sys2Proof.Claims.slotTrap s 0x0012 lm.toNat)))

/-- R92: a release leaves no write of the context held; registers, other contexts and device memory stay as they are. -/
def Sys2Proof.Claims.releaseEmpties : Prop :=
  ∀ (s : Sys2Proof.Machine.State) (k c : Nat),
    (∀ a ∈ (s.release k c).accs, a.heldBy k c = false) ∧ (s.release k c).ctxs = s.ctxs ∧ (s.release k c).mem = s.mem ∧
      (s.release k c).memFill = s.memFill ∧ (s.release k c).slices = s.slices

/-- A byte of local store after writes to physical local addresses, in their order. -/
def Sys2Proof.Claims.afterWrites (p : Nat) : List Sys2Proof.Machine.Access → Sys2Proof.Byte → Sys2Proof.Byte
  | [], b => b
  | a :: as, b =>
    Sys2Proof.Claims.afterWrites p as (match a.tr with
      | .ok q 3 => if q ≤ p then (a.data[p - q]?).getD b else b
      | _ => b)

/-- R92, R187, R445: a release sends each held write on with its bytes: one to be performed beyond the cluster or through a
granule leaves for its place, in program order; one that is not translated yet goes on when it is. The writes to plain local
store are performed at once, in program order, when no earlier access of the group holds them back. -/
def Sys2Proof.Claims.releaseSends : Prop :=
  ∀ (s : Sys2Proof.Machine.State) (k c : Nat), s.accs.Pairwise (fun a b => a.id < b.id) →
    let held := s.accs.filter fun a => a.heldBy k c
    let t := s.release k c
    let far (a : Sys2Proof.Machine.Access) : Prop := ∃ p m, a.tr = .ok p m ∧ (m ≠ 3 ∨ s.plainLocal a = false)
    (∀ a ∈ held, far a ∨ a.tr = .pending → { a with st := .sent } ∈ t.accs) ∧
    (∃ ids : List Nat, ids.Sublist (held.map fun a => a.id) ∧
      t.agenda = (ids.map fun n => Sys2Proof.Machine.Move.act (.homeAccess n)) ++ s.agenda ∧
      ∀ a ∈ held, far a → a.id ∈ ids) ∧
    ((∀ a ∈ held, s.plainLocal a = true → a.loc = true ∧ a.op = .store) →
      (∀ b ∈ held, b.loc = true → s.plainLocal b = true) →
      (∀ a ∈ held, s.plainLocal a = true → ∀ b ∈ s.accs, b.id < a.id → b.eng = 0 → b.sameCtx a = true → b.op ≠ .fence →
        (b.heldBy k c = true ∧ s.plainLocal b = true) ∨ b.over = true ∨ s.follows a b = false) →
      (∀ p, (t.cluster k).locByte p =
        Sys2Proof.Claims.afterWrites p (held.filter s.plainLocal) ((s.cluster k).locByte p)) ∧
      ∀ a ∈ held, s.plainLocal a = true → a ∉ t.accs ∧ { a with st := .sent } ∉ t.accs)

/-- The instructions that release the store buffer (R92, R445), whether each is a MARK, and what its own checks ask. -/
def Sys2Proof.Claims.releasers (s : Sys2Proof.Machine.State) (lm : BitVec 16) (b : Bool) (scope : Sys2Proof.Scope)
    (mask : BitVec 16) (g : BitVec 24) (f : Sys2Proof.FReg) (lvl : BitVec 3) (lead : Bool) (m : BitVec 12) (ch : BitVec 4)
    (l : Sys2Proof.LReg) (nfl : BitVec 4) : List (Sys2Proof.Instr × Bool × Prop) :=
  [(.mark lm, true, s.me.trapm = false ∧ lm.toNat < s.me.bnd.lmcount),
   (.fence b scope mask, false, b = true → s.me.wait = .none), (.post (.group g) f, false, g.toNat < s.me.bnd.gcount),
   (.dbar lvl lead, false, lvl.toNat ≤ s.me.regs.dom.toNat),
   (.send m ch l nfl, false, Sys2Proof.Machine.spanCheck m l nfl s = none ∧ Sys2Proof.Machine.sendStall s = false),
   (.exit, false, s.me.wait = .none)]

/-- R443, R445 to R448: a release point with an access still to be translated waits, with nothing released. With a deferred fault
due it takes the one of oldest issue in its own place and releases nothing: delivered to the handler with the interval rolled
back, LOST with it when one was lost; asked of the pager when a page that is not resident is its cause, LOST kept for the next
one; or ending its group inside a non-repeatable interval. At a MARK the others stay due. A fault reported from a destination is
due at a MARK alone, or once a MARK has found it due: how the two sentences of R446 and R447 meet, and that none is due in a trap
handler, is the model's reading (log 51). -/
def Sys2Proof.Claims.faultsAtRelease : Prop :=
  ∀ (s : Sys2Proof.Machine.State) (lm : BitVec 16) (b : Bool) (scope : Sys2Proof.Scope)
      (mask : BitVec 16) (g : BitVec 24) (f : Sys2Proof.FReg) (lvl : BitVec 3) (lead : Bool) (m : BitVec 12) (ch : BitVec 4)
      (l : Sys2Proof.LReg) (nfl : BitVec 4),
    ∀ e ∈ Sys2Proof.Claims.releasers s lm b scope mask g f lvl lead m ch l nfl, e.2.2 →
    (s.untranslated = true → ∃ t, Sys2Proof.Machine.exec e.1 s = .next t ∧ t.me.st = .blocked ∧ s.cur.slot ∈ t.me.rest ∧
      t.slots = [] ∧ t.me.regs = s.me.regs ∧ t.me.nr = s.me.nr ∧ t.me.defer = s.me.defer ∧ t.accs = s.accs ∧
      t.clusters = s.clusters ∧ t.mem = s.mem) ∧
    (s.untranslated = false → s.me.trapm = false →
      let due (d : Sys2Proof.Machine.Defer) : Prop := e.2.1 = true ∨ d.dest = false ∨ d.due = true
      ∀ d ∈ s.me.defer, due d → (∀ d' ∈ s.me.defer, due d' → d' = d ∨ d.ord < d'.ord) →
      ∃ t, Sys2Proof.Machine.exec e.1 s = .next t ∧ t.slots = [] ∧ t.clusters = s.clusters ∧ t.mem = s.mem ∧
        t.me.defer.length + 1 = s.me.defer.length ∧ (e.2.1 = true → ∀ d' ∈ t.me.defer, d'.due = true) ∧
        (s.me.nr = true → t.me.st = .saving ∧ t.me.srsn = 2 ∧ t.me.regs = s.me.regs ∧
          .act (.launchFault (s.me.bnd.launch - 1)) ∈ t.agenda) ∧
        (s.me.nr = false → t.me.nr = false ∧ t.me.regs = s.me.shadow ∧ t.me.pend = [] ∧
          (∀ a ∈ t.accs, a.heldBy s.cur.cl.toNat s.cur.ctx.toNat = false) ∧
          (d.pager = none → s.me.bnd.entry ≤ s.me.tvec.toNat / 64 % 2 ^ 34 * 64 →
            s.me.tvec.toNat / 64 % 2 ^ 34 * 64 < s.me.bnd.textEnd → s.me.tvec.toNat / 64 % 2 ^ 34 ≠ 0 →
            t.me.trapm = true ∧ t.me.pc = s.me.tvec.toNat / 64 % 2 ^ 34 * 64 ∧ t.me.erpc = .ofNat 64 s.me.rpc ∧
            t.me.ermpc = .ofNat 64 s.me.rmpc ∧ t.me.lost = false ∧
            t.me.tcause = (if s.me.lost = true then d.tcause ||| 0x10000000 else d.tcause) ∧
            (d.tcause.toNat % 2 ^ 16 ≠ 0x0018 → t.me.tinfo = d.tinfo)) ∧
          (∀ vp, d.pager = some vp → t.me.st = .blocked ∧ t.me.lost = s.me.lost ∧ ∃ id tc ti, t.me.wait = .pager id tc ti ∧
            ∃ r ∈ t.forme.pager, r.id = id ∧ r.asid = s.me.bnd.asid ∧ r.vpage = vp)))

/-- R92, R443, R445 to R448: a release sends each held write of its context on, in program order, and leaves none held; before it,
the deferred faults are taken in its place. Which of them are due is the model's reading where R446 and R447 meet (log 51). -/
def Obligations.ReleaseEmpties : Prop :=
  Sys2Proof.Claims.releaseEmpties ∧ Sys2Proof.Claims.releaseSends ∧ Sys2Proof.Claims.faultsAtRelease

/-- R82, R281: EXIT completes, with no fault recorded: its context waits for its copies and nests, its results in flight are discarded, and no write
of it stays held. -/
def Obligations.Exits : Prop :=
  ∀ (s : Sys2Proof.Machine.State), s.me.wait = .none → s.me.defer = [] → Sys2Proof.Claims.mayRelease s false →
    ∃ t, Sys2Proof.Machine.exec .exit s = .next t ∧ t.me.wait = .exit ∧ t.me.pend = [] ∧ t.me.defer = [] ∧
      t.cur = s.cur ∧ ∀ a ∈ t.accs, a.heldBy s.cur.cl.toNat s.cur.ctx.toNat = false

/-- R282: TRAP takes the software trap, with its code and value. -/
def Obligations.SoftwareTrap : Prop :=
  ∀ (s : Sys2Proof.Machine.State) (code : BitVec 16) (val : BitVec 32),
    Sys2Proof.Machine.exec (.trap code val) s =
      .next (s.trap ⟨0x0017, some s.cur.slot, 0, some (.ofNat 64 (code.toNat * 2 ^ 32 + val.toNat))⟩)

/-- R443, R442: a trap in a repeatable interval, outside the handler, with a handler in the text, rolls its context back to
the last mark (banks from the shadow, no result in flight, no write held), saves the restart point in ERPC and ERMPC, the
slot and the cause in TCAUSE, the bundle's index and the detail (of a software trap its whole value) in TINFO, sets TRAPM, and
goes to the handler that TVEC names. -/
def Sys2Proof.Claims.trapDelivery : Prop :=
  ∀ (s : Sys2Proof.Machine.State) (t : Sys2Proof.Machine.Trap), s.me.nr = false → s.me.trapm = false →
    s.me.bnd.entry ≤ s.me.tvec.toNat / 64 % 2 ^ 34 * 64 → s.me.tvec.toNat / 64 % 2 ^ 34 * 64 < s.me.bnd.textEnd →
    s.me.tvec.toNat / 64 % 2 ^ 34 ≠ 0 →
    let x := (s.trap t).me
    x.regs = s.me.shadow ∧ x.pend = [] ∧ x.erpc = .ofNat 64 s.me.rpc ∧ x.ermpc = .ofNat 64 s.me.rmpc ∧ x.trapm = true ∧
      x.tcause.toNat % 2 ^ 16 = t.cause % 2 ^ 16 ∧
      (t.cause < 2 ^ 16 → x.tcause.toNat = (match t.slot with
        | some n => n.index
        | none => 0) * 2 ^ 29 + t.cause) ∧
      x.tinfo = (match t.whole with
        | some w => w
        | none => .ofNat 64 (s.cur.bpc / 64 % 2 ^ 24 * 2 ^ 40 + t.detail % 2 ^ 40)) ∧ x.pc = s.me.tvec.toNat / 64 % 2 ^ 34 * 64 ∧
      x.mpc = s.me.bnd.metaoff + 8 * (s.me.tvec.toNat / 2 ^ 40) ∧
      (∀ a ∈ (s.trap t).accs, a.heldBy s.cur.cl.toNat s.cur.ctx.toNat = false) ∧ (s.trap t).slots = [] ∧
      (s.trap t).mem = s.mem ∧ (s.trap t).clusters = s.clusters

/-- R443, R474: a trap inside a non-repeatable interval ends the group: it is saved with reason 2, keeps its registers as
they stood, and its launch ends with FAULT. -/
def Sys2Proof.Claims.unrestartableTrap : Prop :=
  ∀ (s : Sys2Proof.Machine.State) (t : Sys2Proof.Machine.Trap), s.me.nr = true →
    (s.trap t).me.st = .saving ∧ (s.trap t).me.srsn = 2 ∧ (s.trap t).me.regs = s.me.regs ∧ (s.trap t).slots = [] ∧
      .act (.launchFault (s.me.bnd.launch - 1)) ∈ (s.trap t).agenda ∧ (s.trap t).mem = s.mem

/-- R442, R443, R474: a trap in a repeatable interval ends the group too when it comes inside the handler, when TVEC names no
handler, or when the handler lies outside the text: the context is rolled back to its last mark and saved with reason 2, and its
launch ends with FAULT. -/
def Sys2Proof.Claims.undeliverableTrap : Prop :=
  ∀ (s : Sys2Proof.Machine.State) (t : Sys2Proof.Machine.Trap), s.me.nr = false →
    (s.me.trapm = true ∨ s.me.tvec.toNat / 64 % 2 ^ 34 = 0 ∨ s.me.tvec.toNat / 64 % 2 ^ 34 * 64 < s.me.bnd.entry ∨
      s.me.bnd.textEnd ≤ s.me.tvec.toNat / 64 % 2 ^ 34 * 64) →
    (s.trap t).me.st = .saving ∧ (s.trap t).me.srsn = 2 ∧ (s.trap t).me.regs = s.me.shadow ∧ (s.trap t).me.pend = [] ∧
      (s.trap t).slots = [] ∧ (∀ a ∈ (s.trap t).accs, a.heldBy s.cur.cl.toNat s.cur.ctx.toNat = false) ∧
      .act (.launchFault (s.me.bnd.launch - 1)) ∈ (s.trap t).agenda ∧ (s.trap t).mem = s.mem ∧ (s.trap t).clusters = s.clusters

/-- R439 to R443: a trap is delivered with NR 0 and a handler, and ends the group with NR 1, inside the handler, or with none. -/
def Obligations.TrapEntries : Prop :=
  Sys2Proof.Claims.trapDelivery ∧ Sys2Proof.Claims.unrestartableTrap ∧ Sys2Proof.Claims.undeliverableTrap

/-- R283, R444: TRET in the handler clears TRAPM and goes to ERPC and ERMPC at once, and until the next MARK no pre-emption stops
the context; outside the handler it takes the
trap-state trap; with an ERPC that is no bundle of the text it takes the branch-target trap. -/
def Obligations.TrapReturn : Prop :=
  ∀ (s : Sys2Proof.Machine.State),
    (s.me.trapm = true → s.view.erpc.toNat % 64 = 0 → Sys2Proof.Claims.inText s s.view.erpc.toNat →
      Sys2Proof.Machine.exec .tret s = .next (s.modMe fun x =>
        { x with trapm := false, tret := true, br := some ⟨1, some (s.view.erpc.toNat, s.view.ermpc.toNat)⟩ })) ∧
    (s.me.trapm = false → Sys2Proof.Machine.exec .tret s = .next (s.trap (Sys2Proof.Claims.slotTrap s 0x0015 0))) ∧
    (s.me.trapm = true → ¬(s.view.erpc.toNat % 64 = 0 ∧ Sys2Proof.Claims.inText s s.view.erpc.toNat) →
      Sys2Proof.Machine.exec .tret s = .next (s.trap (Sys2Proof.Claims.slotTrap s 0x0003 (s.view.erpc.toNat / 64 % 2 ^ 34))))

/-- R97, R277, R278, R381 to R384: POST, DBAR, SEND and RECV complete when their checks hold: POST leaves a request for
the flag; DBAR above level 0 arrives when every earlier access and copy of its group is performed at its scope, and waits for
them otherwise; SEND leaves its message under way, each after the release; RECV stores the oldest message of its source and
channel, which leaves the channel. -/
def Sys2Proof.Claims.synchronisation : Prop :=
  ∀ (s : Sys2Proof.Machine.State) (f : Sys2Proof.FReg) (g : BitVec 24) (lvl : BitVec 3) (lead : Bool) (m : BitVec 12)
      (ch : BitVec 4) (l : Sys2Proof.LReg) (nfl : BitVec 4),
    (g.toNat < s.me.bnd.gcount → Sys2Proof.Claims.mayRelease s false →
      ∃ t, Sys2Proof.Machine.exec (.post (.group g) f) s = .next t ∧ t.me.nr = true ∧
        (∃ r ∈ t.forme.posts, r.target = g.toNat ∧ r.flag = f) ∧
        ∀ a ∈ t.accs, a.heldBy s.cur.cl.toNat s.cur.ctx.toNat = false) ∧
    (Sys2Proof.Claims.mayRelease s false → Sys2Proof.Machine.exec (.dbar 0 lead) s =
      .next ((s.release s.cur.cl.toNat s.cur.ctx.toNat).modMe fun x => { x with nr := true })) ∧
    (lvl.toNat ≤ s.me.regs.dom.toNat → lvl ≠ 0 → Sys2Proof.Claims.mayRelease s false →
      let r := s.release s.cur.cl.toNat s.cur.ctx.toNat
      (r.allPerformed s.cur.cl.toNat s.cur.ctx.toNat r.nextId s.me.bnd (lvl.toNat - 1) = true →
        ∃ t, Sys2Proof.Machine.exec (.dbar lvl lead) s = .next t ∧ t.me.wait = .dbarArrived lvl.toNat lead ∧
          (∀ b ∈ t.forme.bars, b.launch + 1 = s.me.bnd.launch → b.lvl = lvl.toNat → s.me.bnd.group ∈ b.members →
            s.me.bnd.group ∈ b.arrived) ∧ t.mem = s.mem ∧ t.me.regs = s.me.regs) ∧
      (r.allPerformed s.cur.cl.toNat s.cur.ctx.toNat r.nextId s.me.bnd (lvl.toNat - 1) = false → s.me.wait = .none →
        ∃ t id, Sys2Proof.Machine.exec (.dbar lvl lead) s = .next t ∧ t.me.wait = .dbarPerform lvl.toNat lead id ∧
          t.forme.bars = s.forme.bars ∧ t.mem = s.mem ∧ t.me.regs = s.me.regs)) ∧
    (Sys2Proof.Machine.spanCheck m l nfl s = none → Sys2Proof.Machine.sendStall s = false →
      Sys2Proof.Claims.mayRelease s false →
      ∃ t, Sys2Proof.Machine.exec (.send m ch l nfl) s = .next t ∧ t.me.nr = true ∧ t.me.spout = s.me.spout + 1 ∧
        ∃ r ∈ t.forme.sends, r.dmod = m.toNat ∧ r.ch = ch.toNat ∧ r.nfl = nfl.toNat + 1) ∧
    (∀ x : Sys2Proof.Machine.SpanMsg, Sys2Proof.Machine.spanCheck m l nfl s = none → s.oldest m.toNat ch.toNat = some x →
      x.bytes.length = 128 * (nfl.toNat + 1) → s.cc.rsbFree 1 = true →
      s.cc.rangeBusy 1 (s.physLocal (s.rdL l).toNat) (s.physLocal (s.rdL l).toNat + 128 * (nfl.toNat + 1)) s.nextId false
        = false →
      ∃ t, Sys2Proof.Machine.exec (.recv m ch l nfl) s = .next t ∧ t.me.nr = true ∧ t.me.regs = s.me.regs ∧
        t.cc = s.cc.locWrite (s.physLocal (s.rdL l).toNat) x.bytes ∧ t.mem = s.mem ∧
        (Sys2Proof.Machine.sget [] s.forme.chans ch.toNat).Perm (x :: Sys2Proof.Machine.sget [] t.forme.chans ch.toNat))

/-- R97, R277, R382: a level above DOM takes the domain trap, a target at or beyond GCOUNT the post-target trap, and a
SEND or RECV below level 5 the domain trap. -/
def Sys2Proof.Claims.synchronisationTraps : Prop :=
  ∀ (s : Sys2Proof.Machine.State) (f : Sys2Proof.FReg) (g : BitVec 24) (lvl : BitVec 3) (lead : Bool) (m : BitVec 12)
      (ch : BitVec 4) (l : Sys2Proof.LReg) (nfl : BitVec 4),
    (s.me.regs.dom.toNat < lvl.toNat → Sys2Proof.Machine.exec (.dbar lvl lead) s =
      .next (s.trap (Sys2Proof.Claims.slotTrap s 0x0010 (lvl.toNat + s.me.regs.dom.toNat * 8)))) ∧
    (s.me.bnd.gcount ≤ g.toNat → Sys2Proof.Machine.exec (.post (.group g) f) s =
      .next (s.trap (Sys2Proof.Claims.slotTrap s 0x0013 g.toNat))) ∧
    (s.me.regs.dom.toNat < 5 → ∀ i ∈ [Sys2Proof.Instr.send m ch l nfl, .recv m ch l nfl], Sys2Proof.Machine.exec i s =
      .next (s.trap (Sys2Proof.Claims.slotTrap s 0x0010 (5 + s.me.regs.dom.toNat * 8))))

/-- R273, R277, R380 to R385: POST, DBAR, SEND and RECV complete, and trap where their rules say. -/
def Obligations.Synchronisations : Prop := Sys2Proof.Claims.synchronisation ∧ Sys2Proof.Claims.synchronisationTraps

namespace Sys2Proof.Claims
open Sys2Proof.Machine

/-! ## The V slots (R285 to R309) -/

/-- The machine with flags on their way to FSTAT under a bound (R39); no flag changes nothing. -/
def withFlags (s : State) (fl : Flags) (bound : Nat) : State :=
  if fl = 0 then s else later s .fstat (fl.setWidth 1024) false bound

/-- Is lane i active under a mask field (R286)? -/
abbrev active (s : State) (k : KReg) (i : Nat) : Prop := k = 0 ∨ (s.rdK k).getLsbD i = true

/-- A register that no bound galley stands behind, and that is not poisoned. -/
abbrev plainV (s : State) (v : VReg) : Prop := s.galley? v = none ∧ (s.rdV v).psn = false

/-- What a rule says of a V-slot instruction with a v destination: sources, destination, mask, element width, bound, whether
the old destination is a source, and for each element its value with its flags, or that it keeps the old value. -/
structure VecRule where
  srcs : List VReg
  vd : VReg
  k : KReg
  w : Nat
  bound : Nat
  old : Bool
  elem : Nat → Option (Nat × Flags)

/-- Element e of a register as a natural number. -/
def el (s : State) (v : VReg) (w e : Nat) : Nat := (s.rdV v).val.toNat / 2 ^ (w * e) % 2 ^ w

/-- An element taken as signed, or as natural when `n` (R26). -/
def num (w : Nat) (n : Bool) (x : Nat) : Int := if n || x < 2 ^ (w - 1) then x else (x : Int) - 2 ^ w

/-- An exact result narrowed to w bits: modulo 2^w, or clamped with the flag SI (R27). -/
def narrowed (w : Nat) (n sat : Bool) (x : Int) : Nat × Flags :=
  let lo : Int := if n then 0 else -(2 ^ (w - 1))
  let hi : Int := if n then 2 ^ w - 1 else 2 ^ (w - 1) - 1
  if sat && (x < lo || hi < x) then (((if x < lo then lo else hi) % 2 ^ w).toNat, 0x20)
  else ((x % 2 ^ w).toNat, 0)

/-- Operands of the V slots, over which the tables below range. -/
structure VecOps where
  f : VInt
  w : EW
  n : Bool
  sat : Bool
  vd : VReg
  va : VReg
  vb : VReg
  vc : VReg
  k : KReg
  kn : KReg
  kd : KReg
  amt : VAmt
  idx : BitVec 7
  tt : BitVec 8
  t4 : BitVec 4
  neg : Bool
  agg : Bool
  part : BitVec 3
  bit : BitVec 1
  pw : PackW
  t : FT
  rm : Rm
  form : FmaForm
  dt : CvtT
  st : CvtT
  toFloat : Bool
  cc : Cond
  fc : FCond
  zd : ZReg

/-- The amount of a vector shift at element e, and the source that it adds (R291). -/
def vecAmount (s : State) (w : EW) (a : VAmt) (e : Nat) : Nat :=
  match a with
  | .imm n => n.toNat
  | .reg v => el s v w.bits e % w.bits
def amtSrc (a : VAmt) : List VReg :=
  match a with
  | .imm _ => []
  | .reg v => [v]

/-- The value and flags of every element of an integer instruction. -/
def everywhere (f : Nat → Nat) (e : Nat) : Option (Nat × Flags) := some (f e, 0)

def PackW.bits : PackW → Nat
  | .w16 => 16
  | .w32 => 32

/-- The integer, logic and lane instructions (R290 to R295, R306). -/
def vecTable (s : State) (o : VecOps) : List (Instr × VecRule) :=
  let w := o.w.bits
  let fw := o.f.w.bits
  let m := o.k != 0
  let a := el s o.va
  let b := el s o.vb
  let c := el s o.vc
  let x (e : Nat) := num fw o.f.n (a fw e)
  let y (e : Nat) := num fw o.f.n (b fw e)
  let z (e : Nat) := num fw o.f.n (c fw e)
  let sx (e : Nat) := num w false (a w e)
  let sy (e : Nat) := num w false (b w e)
  let nar (r : Int) := some (narrowed fw o.f.n o.f.sat r)
  let ab := [o.va, o.vb]
  let sh := o.va :: amtSrc o.amt
  let fsh := o.va :: o.vb :: amtSrc o.amt
  let n := vecAmount s o.w o.amt
  let pw := PackW.bits o.pw
  [(.vadd o.f o.vd o.va o.vb o.k, ⟨ab, o.vd, o.k, fw, 2, m, fun e => nar (x e + y e)⟩),
   (.vsub o.f o.vd o.va o.vb o.k, ⟨ab, o.vd, o.k, fw, 2, m, fun e => nar (x e - y e)⟩),
   (.vmul o.f o.vd o.va o.vb o.k, ⟨ab, o.vd, o.k, fw, 2, m, fun e => nar (x e * y e)⟩),
   (.vmulh o.w o.n o.vd o.va o.vb o.k, ⟨ab, o.vd, o.k, w, 2, m, everywhere fun e =>
      (num w o.n (a w e) * num w o.n (b w e) / 2 ^ w % 2 ^ w).toNat⟩),
   (.vmad o.f o.vd o.va o.vb o.vc o.k, ⟨[o.va, o.vb, o.vc], o.vd, o.k, fw, 2, m, fun e => nar (x e * y e + z e)⟩),
   (.vabs o.w o.sat o.vd o.va o.k, ⟨[o.va], o.vd, o.k, w, 2, m, fun e => some (narrowed w false o.sat (sx e).natAbs)⟩),
   (.vmin o.w o.vd o.va o.vb o.k, ⟨ab, o.vd, o.k, w, 2, m, everywhere fun e => (min (sx e) (sy e) % 2 ^ w).toNat⟩),
   (.vmax o.w o.vd o.va o.vb o.k, ⟨ab, o.vd, o.k, w, 2, m, everywhere fun e => (max (sx e) (sy e) % 2 ^ w).toNat⟩),
   (.vminn o.w o.vd o.va o.vb o.k, ⟨ab, o.vd, o.k, w, 2, m, everywhere fun e => min (a w e) (b w e)⟩),
   (.vmaxn o.w o.vd o.va o.vb o.k, ⟨ab, o.vd, o.k, w, 2, m, everywhere fun e => max (a w e) (b w e)⟩)] ++
  [(.vand o.vd o.va o.vb o.k, ⟨ab, o.vd, o.k, 32, 2, m, everywhere fun e => a 32 e &&& b 32 e⟩),
   (.vor o.vd o.va o.vb o.k, ⟨ab, o.vd, o.k, 32, 2, m, everywhere fun e => a 32 e ||| b 32 e⟩),
   (.vxor o.vd o.va o.vb o.k, ⟨ab, o.vd, o.k, 32, 2, m, everywhere fun e => a 32 e ^^^ b 32 e⟩),
   (.vlut3 o.tt o.vd o.va o.vb o.vc o.k, ⟨[o.va, o.vb, o.vc], o.vd, o.k, 32, 2, m, everywhere fun e =>
      ((List.range 32).map fun j => (o.tt.getLsbD (4 * ((a 32 e).testBit j).toNat + 2 * ((b 32 e).testBit j).toNat +
        ((c 32 e).testBit j).toNat)).toNat * 2 ^ j).sum⟩),
   (.vshl o.w o.vd o.va o.amt o.k, ⟨sh, o.vd, o.k, w, 2, m, everywhere fun e => a w e * 2 ^ n e % 2 ^ w⟩),
   (.vshr o.w o.vd o.va o.amt o.k, ⟨sh, o.vd, o.k, w, 2, m, everywhere fun e => a w e / 2 ^ n e⟩),
   (.vsar o.w o.vd o.va o.amt o.k, ⟨sh, o.vd, o.k, w, 2, m, everywhere fun e => (sx e / 2 ^ n e % 2 ^ w).toNat⟩),
   (.vrot o.w o.vd o.va o.amt o.k, ⟨sh, o.vd, o.k, w, 2, m, everywhere fun e =>
      a w e * 2 ^ n e % 2 ^ w + a w e / 2 ^ (w - n e)⟩),
   (.vfsl o.w o.vd o.va o.vb o.amt o.k, ⟨fsh, o.vd, o.k, w, 2, m, everywhere fun e =>
      (a w e * 2 ^ w + b w e) * 2 ^ n e / 2 ^ w % 2 ^ w⟩),
   (.vfsr o.w o.vd o.va o.vb o.amt o.k, ⟨fsh, o.vd, o.k, w, 2, m, everywhere fun e =>
      (a w e * 2 ^ w + b w e) / 2 ^ n e % 2 ^ w⟩),
   (.vpopc o.w o.vd o.va o.k, ⟨[o.va], o.vd, o.k, w, 2, m, everywhere fun e =>
      (List.range w).countP fun j => (a w e).testBit j⟩),
   (.vclz o.w o.vd o.va o.k, ⟨[o.va], o.vd, o.k, w, 2, m, everywhere fun e =>
      if a w e = 0 then w else w - 1 - (a w e).log2⟩)] ++
  [(.vsel o.neg o.kn o.vd o.va o.vb o.k, ⟨ab, o.vd, o.k, 32, 2, m, everywhere fun e =>
      if xor ((s.rdK o.kn).getLsbD e) o.neg then a 32 e else b 32 e⟩),
   (.vbcst o.w o.vd o.va o.idx o.k, ⟨[o.va], o.vd, o.k, w, 2, m, everywhere fun _ => a w o.idx.toNat⟩),
   (.vperm o.w o.vd o.va o.vb o.k, ⟨ab, o.vd, o.k, w, 2, m, everywhere fun e =>
      if 2 ^ (w - 1) ≤ b w e then 0 else a w (b w e % (1024 / w))⟩),
   (.vrotl o.w o.vd o.va o.idx o.k, ⟨[o.va], o.vd, o.k, w, 2, m, everywhere fun e =>
      a w ((e + o.idx.toNat) % (1024 / w))⟩),
   (.vmov o.vd o.va o.k, ⟨[o.va], o.vd, o.k, 32, 2, m, everywhere fun e => a 32 e⟩),
   (.viota (.index o.w) o.vd o.k, ⟨[], o.vd, o.k, w, 2, m, everywhere fun e => e⟩),
   (.viota (.pfx o.kn) o.vd o.k, ⟨[], o.vd, o.k, 32, 2, m, everywhere fun e =>
      (List.range e).countP fun j => (s.rdK o.kn).getLsbD j⟩),
   (.vkop (.fromMask o.vd o.kn), ⟨[], o.vd, 0, 32, 2, false, everywhere fun e => if e = 0 then (s.rdK o.kn).toNat else 0⟩),
   (.vpack o.pw o.n o.neg o.sat o.vd o.va o.vb o.k, ⟨ab, o.vd, o.k, pw / 2, 4, m, fun e =>
      let v := if e < 1024 / pw then a pw e else b pw (e - 1024 / pw)
      some (if o.sat then narrowed (pw / 2) o.neg true (num pw o.n v) else (v % 2 ^ (pw / 2), 0))⟩),
   (.vunpk o.pw o.n o.vd o.va o.bit o.k, ⟨[o.va], o.vd, o.k, pw, 4, m, everywhere fun e =>
      (num (pw / 2) o.n (a (pw / 2) (o.bit.toNat * (1024 / pw) + e)) % 2 ^ pw).toNat⟩)]

/-- The floating-point arithmetic and the conversions, over the operations of Machine/Float.lean, which round once
(R298 to R304). -/
def fpTable (s : State) (o : VecOps) : List (Instr × VecRule) :=
  let f := fmtOf o.t
  let w := o.t.bits
  let m := o.k != 0
  let a (e : Nat) := el s o.va w e
  let b (e : Nat) := el s o.vb w e
  let x (e : Nat) := f.decode (a e)
  let y (e : Nat) := f.decode (b e)
  let z (e : Nat) := f.decode (el s o.vc w e)
  let ab := [o.va, o.vb]
  let cv (ws wd : Nat) (g : Nat → Nat × Flags) (e : Nat) : Option (Nat × Flags) :=
    (partSrc ws wd o.part.toNat e).map fun i => g (el s o.va ws i)
  [(.vfadd o.t o.rm o.vd o.va o.vb o.k, ⟨ab, o.vd, o.k, w, 4, m, fun e => some (f.add o.rm (x e) (y e))⟩),
   (.vfsub o.t o.rm o.vd o.va o.vb o.k, ⟨ab, o.vd, o.k, w, 4, m, fun e => some (f.add o.rm (x e) (y e).neg)⟩),
   (.vfmul o.t o.rm o.vd o.va o.vb o.k, ⟨ab, o.vd, o.k, w, 4, m, fun e => some (f.mul o.rm (x e) (y e))⟩),
   (.vfma o.form o.t o.rm o.vd o.va o.vb o.vc o.k, ⟨[o.va, o.vb, o.vc], o.vd, o.k, w, 5, m, fun e =>
      some (f.fma o.rm (o.form == .nm || o.form == .nms) (o.form == .ms || o.form == .nms) (x e) (y e) (z e))⟩),
   (.vfmin o.t o.vd o.va o.vb o.k, ⟨ab, o.vd, o.k, w, 4, m, fun e => some (f.minMax false (a e) (b e))⟩),
   (.vfmax o.t o.vd o.va o.vb o.k, ⟨ab, o.vd, o.k, w, 4, m, fun e => some (f.minMax true (a e) (b e))⟩),
   (.vfrcp o.t o.rm o.vd o.va o.k, ⟨[o.va], o.vd, o.k, w, 4, m, fun e => some (f.rcp o.rm (x e))⟩),
   (.vfrsq o.t o.rm o.vd o.va o.k, ⟨[o.va], o.vd, o.k, w, 4, m, fun e => some (f.rsq o.rm (x e))⟩),
   (.vfexp2 o.t o.rm o.vd o.va o.k, ⟨[o.va], o.vd, o.k, w, 4, m, fun e => some (f.exp2 o.rm (x e))⟩),
   (.vflog2 o.t o.rm o.vd o.va o.k, ⟨[o.va], o.vd, o.k, w, 4, m, fun e => some (f.log2 o.rm (x e))⟩),
   (.vcvt o.dt o.st o.rm o.vd o.va o.part o.k, ⟨[o.va], o.vd, o.k, o.dt.bits, 4, m || decide (o.dt.bits < o.st.bits),
      cv o.st.bits o.dt.bits (convert (cvtFmt o.st) (cvtFmt o.dt) o.rm)⟩),
   (.vcvti true o.t o.n o.w o.rm o.vd o.va o.part o.k, ⟨[o.va], o.vd, o.k, w, 4, m || decide (w < o.w.bits),
      cv o.w.bits w fun v => intToFloat f o.rm (num o.w.bits o.n v)⟩),
   (.vcvti false o.t o.n o.w o.rm o.vd o.va o.part o.k, ⟨[o.va], o.vd, o.k, o.w.bits, 4, m || decide (o.w.bits < w),
      cv w o.w.bits fun v => ((floatToInt f o.w.bits o.n o.rm v).1.toNat, (floatToInt f o.w.bits o.n o.rm v).2)⟩)]

/-- A value and flags are those that a rule gives: each active element that the rule computes has its value modulo 2^w, every
other one its old value, and the flags are those of the active elements together (R39, R286). -/
def meetsRule (s : State) (r : VecRule) (v : VWord) (fl : Flags) : Prop :=
  (∀ e, e < 1024 / r.w → (elemAt r.w v e).toNat =
    match r.elem e with
    | some x => if active s r.k (e * r.w / 32) then x.1 % 2 ^ r.w else el s r.vd r.w e
    | none => el s r.vd r.w e) ∧
  ∀ j, fl.getLsbD j = true ↔ ∃ e < 1024 / r.w, active s r.k (e * r.w / 32) ∧ ∃ x, r.elem e = some x ∧ x.2.getLsbD j = true

/-- What a rule says of a V-slot instruction with a k destination: sources, destination, mask, lane width, whether any
element of a lane suffices, and the condition on each element with its flags (R293, R301). -/
structure MaskRule where
  srcs : List VReg
  kd : KReg
  k : KReg
  w : Nat
  any' : Bool
  bound : Nat
  cond : Nat → Prop
  flags : Nat → Flags

/-- The conditions of VCMP (R262, R293). -/
def laneCond (cc : Cond) (w a b : Nat) : Prop :=
  match cc with
  | .eq => a = b
  | .ne => a ≠ b
  | .lt => num w false a < num w false b
  | .ge => num w false b ≤ num w false a
  | .ltn => a < b
  | .gen => b ≤ a
  | .tst => a &&& b ≠ 0
  | .ntst => a &&& b = 0

def maskTable (s : State) (o : VecOps) : List (Instr × MaskRule) :=
  let w := o.w.bits
  let f := fmtOf o.t
  let x (e : Nat) := f.decode (el s o.va o.t.bits e)
  let y (e : Nat) := f.decode (el s o.vb o.t.bits e)
  [(.vcmp o.cc o.w o.agg o.kd o.va o.vb o.k,
    ⟨[o.va, o.vb], o.kd, o.k, w, o.agg, 2, fun e => laneCond o.cc w (el s o.va w e) (el s o.vb w e), fun _ => 0⟩),
   (.vfcmp o.fc o.t o.agg o.kd o.va o.vb o.k,
    ⟨[o.va, o.vb], o.kd, o.k, o.t.bits, o.agg, 4, fun e => (fcmp o.fc (x e) (y e)).1 = true, fun e => (fcmp o.fc (x e) (y e)).2⟩),
   (.vkop (.table o.kd o.k o.kn o.t4), ⟨[], o.kd, 0, 32, false, 2, fun i =>
      o.t4.getLsbD (2 * ((s.rdK o.k).getLsbD i).toNat + ((s.rdK o.kn).getLsbD i).toNat) = true, fun _ => 0⟩),
   (.vkop (.toMask o.kd o.va), ⟨[o.va], o.kd, 0, 32, false, 2, fun i => (el s o.va 32 0).testBit i = true, fun _ => 0⟩)]

/-- Elements of the lane i of a register with elements of width w. -/
def laneElems (w i : Nat) : List Nat := (List.range (32 / w)).map fun j => i * (32 / w) + j

end Sys2Proof.Claims

/-- R27, R290 to R295, R306: the integer, logic and lane instructions of the V slots. Each completes, its result in flight
under its bound of R250, its saturation flag with it, and changes nothing else, when no register it reads is poisoned,
none is a bound galley, and no older result goes to its destination. -/
def Obligations.VectorResults : Prop :=
  ∀ (s : Sys2Proof.Machine.State) (o : Sys2Proof.Claims.VecOps), ∀ e ∈ Sys2Proof.Claims.vecTable s o, e.1.wf = true →
    (∀ v ∈ e.2.srcs, Sys2Proof.Claims.plainV s v) → s.galley? e.2.vd = none →
    (e.2.old = true → (s.rdV e.2.vd).psn = false) → Sys2Proof.Claims.quiet s (.v e.2.vd) →
    ∃ (v : Sys2Proof.VWord) (fl : Sys2Proof.Machine.Flags),
      Sys2Proof.Machine.exec e.1 s = .next (Sys2Proof.Claims.withFlags
        (Sys2Proof.Claims.later s (.v e.2.vd) v false e.2.bound) fl e.2.bound) ∧ Sys2Proof.Claims.meetsRule s e.2 v fl

/-- R298 to R304: the floating-point arithmetic and the conversions of the V slots, in the same form, over the operations of
Machine/Float.lean, whose values FormatArithmetic states for addition, multiplication, fused multiply-add and the conversions.
The model's choices: NX of VFEXP2 and VFLOG2 (log 13), and NV of a VFMA of zero times infinity with a quiet NaN addend
(log 15). -/
def Obligations.FloatResults : Prop :=
  ∀ (s : Sys2Proof.Machine.State) (o : Sys2Proof.Claims.VecOps), ∀ e ∈ Sys2Proof.Claims.fpTable s o, e.1.wf = true →
    (∀ v ∈ e.2.srcs, Sys2Proof.Claims.plainV s v) → s.galley? e.2.vd = none →
    (e.2.old = true → (s.rdV e.2.vd).psn = false) → Sys2Proof.Claims.quiet s (.v e.2.vd) →
    ∃ (v : Sys2Proof.VWord) (fl : Sys2Proof.Machine.Flags),
      Sys2Proof.Machine.exec e.1 s = .next (Sys2Proof.Claims.withFlags
        (Sys2Proof.Claims.later s (.v e.2.vd) v false e.2.bound) fl e.2.bound) ∧ Sys2Proof.Claims.meetsRule s e.2 v fl

/-- R246, R287: with a poisoned source, or a poisoned old destination that is a source, a V-slot instruction completes too,
and its destination is poisoned; its value is one that nothing fixes (log 4). -/
def Sys2Proof.Claims.vectorPoison : Prop :=
  ∀ (s : Sys2Proof.Machine.State) (o : Sys2Proof.Claims.VecOps),
    ∀ e ∈ Sys2Proof.Claims.vecTable s o ++ Sys2Proof.Claims.fpTable s o,
    (∀ v ∈ e.2.srcs, s.galley? v = none) → s.galley? e.2.vd = none →
    (∃ v ∈ e.2.srcs, (s.rdV v).psn = true) ∨ (e.2.old = true ∧ (s.rdV e.2.vd).psn = true) →
    Sys2Proof.Claims.quiet s (.v e.2.vd) →
    ∃ (v : Sys2Proof.VWord) (fl : Sys2Proof.Machine.Flags),
      Sys2Proof.Machine.exec e.1 s = .next (Sys2Proof.Claims.withFlags
        (Sys2Proof.Claims.later { s with free := s.free + 1 } (.v e.2.vd) v true e.2.bound) fl e.2.bound)

/-- R246, R264, R305: XSA and XSL from a poisoned register take the poison trap; XSV and XVS carry the poison of their source to
their destination; VCVTX carries that of its sources, of both old destinations when it goes to blocks. A poisoned result has a
value that nothing fixes (log 4). -/
def Sys2Proof.Claims.movePoison : Prop :=
  ∀ (s : Sys2Proof.Machine.State) (sd ss : Sys2Proof.SReg) (ad : Sys2Proof.AReg) (ld : Sys2Proof.LReg) (lane : BitVec 5)
      (t : Sys2Proof.FT) (bt : Sys2Proof.BlkT) (rm : Sys2Proof.Rm) (vd va vb : Sys2Proof.VReg) (p : BitVec 3),
    ((s.rdS ss).psn = true → ∀ i ∈ [Sys2Proof.Instr.xsa ad ss, .xsl ld ss], Sys2Proof.Machine.exec i s =
      .next (s.trap (Sys2Proof.Claims.slotTrap s 0x0005 ss.toNat))) ∧
    ((s.rdS ss).psn = true → s.galley? vd = none → Sys2Proof.Claims.quiet s (.v vd) →
      ∃ v : Sys2Proof.VWord, Sys2Proof.Machine.exec (.xsv vd lane ss) s =
        .next (Sys2Proof.Claims.later { s with free := s.free + 1 } (.v vd) v true 2)) ∧
    (s.galley? va = none → (s.rdV va).psn = true → Sys2Proof.Claims.quiet s (.s sd) →
      ∃ v : Sys2Proof.VWord, Sys2Proof.Machine.exec (.xvs sd va lane) s =
        .next (Sys2Proof.Claims.later { s with free := s.free + 1 } (.s sd) v true 2)) ∧
    (vd ≠ vb → (∀ v ∈ [vd, va, vb], s.galley? v = none) → Sys2Proof.Claims.quiet s (.v vd) → Sys2Proof.Claims.quiet s (.v vb) →
      ((∃ v ∈ [va, vb], (s.rdV v).psn = true) → ∃ (v : Sys2Proof.VWord) (fl : Sys2Proof.Machine.Flags),
        Sys2Proof.Machine.exec (.vcvtx true t bt rm vd va vb p) s = .next (Sys2Proof.Claims.withFlags
          (Sys2Proof.Claims.later { s with free := s.free + 1 } (.v vd) v true 4) fl 4)) ∧
      ((∃ v ∈ [vd, va, vb], (s.rdV v).psn = true) → ∃ u x y, Sys2Proof.Machine.exec (.vcvtx false t bt rm vd va vb p) s = .next u ∧
        x ∈ u.me.pend ∧ x.dst = .v vd ∧ x.psn = true ∧ y ∈ u.me.pend ∧ y.dst = .v vb ∧ y.psn = true ∧
        u.me.regs = s.me.regs ∧ u.accs = s.accs ∧ u.clusters = s.clusters ∧ u.mem = s.mem))

/-- The machine as an instruction reads it that pops galleys or pushes to one: the oldest entry stands in the register of a galley
that a source names, zero in that of a galley that the destination names (R169, R287). -/
def Sys2Proof.Claims.operands (s : Sys2Proof.Machine.State) (srcs : List Sys2Proof.VReg) (vd : Sys2Proof.VReg) :
    Sys2Proof.Machine.State :=
  let put (m : Sys2Proof.Machine.Sparse Sys2Proof.Machine.VVal) (v : Sys2Proof.VReg) (x : Sys2Proof.VWord) :=
    if (s.galley? v).isSome then Sys2Proof.Machine.sset ⟨0, false⟩ m v.toNat ⟨x, false⟩ else m
  { s with
    snapPend := [],
    snap := { s.view.regs with
      v := srcs.foldl (fun m v => put m v (Sys2Proof.Claims.sourceVal s v)) (put s.view.regs.v vd 0) } }

/-- R169, R287: a V-slot instruction pops each galley that a source names, once, and pushes its whole result, zero where it writes
nothing, to the write galley that its destination names; with a galley it is non-repeatable. Its result is that of its rule on
the entries popped. -/
def Sys2Proof.Claims.galleyResults : Prop :=
  ∀ (s s' : Sys2Proof.Machine.State) (o : Sys2Proof.Claims.VecOps),
    ∀ e ∈ Sys2Proof.Claims.vecTable s' o ++ Sys2Proof.Claims.fpTable s' o, e.1.wf = true →
    s' = Sys2Proof.Claims.operands s e.2.srcs e.2.vd → (∀ v ∈ e.2.srcs, Sys2Proof.Claims.sourceReady s v) →
    (s.galley? e.2.vd = none → (e.2.old = true → (s.rdV e.2.vd).psn = false) ∧ Sys2Proof.Claims.quiet s (.v e.2.vd)) →
    (∀ n g, s.galley? e.2.vd = some (n, g) → g.kind = .wr ∧ g.q.length < 8) →
    ∃ t v fl, Sys2Proof.Machine.exec e.1 s = .next t ∧ Sys2Proof.Claims.meetsRule s' e.2 v fl ∧
      Sys2Proof.Claims.vInFlight s t e.2.vd v e.2.bound ∧
      (fl = 0 ∨ ∃ p ∈ t.me.pend, p.dst = .fstat ∧ p.val = fl.setWidth 1024 ∧ p.due = some (s.cur.bno + e.2.bound)) ∧
      Sys2Proof.Claims.galleysMoved s t e.2.srcs (some e.2.vd) ∧
      (t.me.nr = true ↔ s.me.nr = true ∨ ∃ v ∈ e.2.vd :: e.2.srcs, (s.galley? v).isSome = true) ∧
      t.me.regs = s.me.regs ∧ t.accs = s.accs ∧ t.mem = s.mem

/-- R169, R287, R450: the traps and the waits of a V-slot instruction with a galley. That the first galley trap of its sources comes
before that of its destination, and that a push of poison names the first poisoned source, is the model's choice (log 107). -/
def Sys2Proof.Claims.galleyTraps : Prop :=
  ∀ (s : Sys2Proof.Machine.State) (o : Sys2Proof.Claims.VecOps),
    ∀ e ∈ Sys2Proof.Claims.vecTable s o ++ Sys2Proof.Claims.fpTable s o,
    let clean (v : Sys2Proof.VReg) : Prop := s.galley? v = none → (s.rdV v).psn = false
    (∀ pre v post r, e.2.srcs = pre ++ v :: post → (∀ u ∈ pre, Sys2Proof.Claims.popTrap s u = none) →
      Sys2Proof.Claims.popTrap s v = some r → Sys2Proof.Machine.exec e.1 s =
        .next (s.trap (Sys2Proof.Claims.slotTrap s 0x0006 (r * 16 + v.toNat % 16)))) ∧
    ((∀ v ∈ e.2.srcs, Sys2Proof.Claims.popTrap s v = none) → ∀ n g, s.galley? e.2.vd = some (n, g) →
      (g.kind ≠ .wr → Sys2Proof.Machine.exec e.1 s =
        .next (s.trap (Sys2Proof.Claims.slotTrap s 0x0006 (16 + e.2.vd.toNat % 16)))) ∧
      (g.kind = .wr → ∀ pre v post, e.2.srcs = pre ++ v :: post → (∀ u ∈ pre, clean u) → ¬clean v →
        Sys2Proof.Machine.exec e.1 s = .next (s.trap (Sys2Proof.Claims.slotTrap s 0x0005 (2 ^ 9 + v.toNat)))) ∧
      (g.kind = .wr → (∀ v ∈ e.2.srcs, clean v) → 8 ≤ g.q.length →
        ∃ t, Sys2Proof.Machine.exec e.1 s = .next t ∧ Sys2Proof.Claims.waits s t)) ∧
    ((∀ v ∈ e.2.srcs, Sys2Proof.Claims.popTrap s v = none) → s.galley? e.2.vd = none →
      (∃ v ∈ e.2.srcs, Sys2Proof.Claims.popWaits s v) →
      ∃ t, Sys2Proof.Machine.exec e.1 s = .next t ∧ Sys2Proof.Claims.waits s t)

/-- R169, R246, R263, R287, R288, R449: a poisoned source poisons the result, whose value is undefined (a free value, log 4), or traps where
it would leave the v and s registers; the V slots on galleys, with their traps (the choice among several is log 107). -/
def Obligations.Poison : Prop :=
  Sys2Proof.Claims.scalarPoison ∧ Sys2Proof.Claims.vectorPoison ∧ Sys2Proof.Claims.movePoison ∧ Sys2Proof.Claims.galleyResults ∧
    Sys2Proof.Claims.galleyTraps

/-- R293, R295, R301: the instructions that write a mask complete: bit i of the mask is the condition on the elements of
lane i, on all of them or on any; the bit of an inactive lane keeps its value. Nothing else changes but the flags. -/
def Sys2Proof.Claims.maskResults : Prop :=
  ∀ (s : Sys2Proof.Machine.State) (o : Sys2Proof.Claims.VecOps), ∀ e ∈ Sys2Proof.Claims.maskTable s o,
    (∀ v ∈ e.2.srcs, Sys2Proof.Claims.plainV s v) → Sys2Proof.Claims.quiet s (.k e.2.kd) →
    ∃ (v : BitVec 32) (fl : Sys2Proof.Machine.Flags),
      Sys2Proof.Machine.exec e.1 s = .next (Sys2Proof.Claims.withFlags
        (Sys2Proof.Claims.later s (.k e.2.kd) (v.setWidth 1024) false e.2.bound) fl e.2.bound) ∧
      (∀ i, i < 32 → (Sys2Proof.Claims.active s e.2.k i → (v.getLsbD i = true ↔
          if e.2.any' = true then ∃ j ∈ Sys2Proof.Claims.laneElems e.2.w i, e.2.cond j
          else ∀ j ∈ Sys2Proof.Claims.laneElems e.2.w i, e.2.cond j)) ∧
        (¬Sys2Proof.Claims.active s e.2.k i → v.getLsbD i = (s.rdK e.2.kd).getLsbD i)) ∧
      ∀ j, fl.getLsbD j = true ↔
        ∃ x < 1024 / e.2.w, Sys2Proof.Claims.active s e.2.k (x * e.2.w / 32) ∧ (e.2.flags x).getLsbD j = true

/-- R297, R247: VTEST completes under its bound of 3 and writes the summary of the active lanes: ANY, ALL, NONE, COUNT. -/
def Sys2Proof.Claims.summaries : Prop :=
  ∀ (s : Sys2Proof.Machine.State) (zd : Sys2Proof.ZReg) (va : Sys2Proof.VReg) (k kb : Sys2Proof.KReg),
    Sys2Proof.Claims.quiet s (.z zd) →
    ∀ (i : Sys2Proof.Instr) (test : Nat → Bool),
      (i, test) ∈ [(Sys2Proof.Instr.vtest zd (.k kb) k, fun j => (s.rdK kb).getLsbD j),
        (.vtest zd (.v va) k, fun j => decide (Sys2Proof.Claims.el s va 32 j ≠ 0))] →
      (i = .vtest zd (.v va) k → Sys2Proof.Claims.plainV s va) →
      ∃ z : BitVec 9, Sys2Proof.Machine.exec i s = .next (Sys2Proof.Claims.later s (.z zd) (z.setWidth 1024) false 3) ∧
        (z.getLsbD 8 = true ↔ ∃ j < 32, Sys2Proof.Claims.active s k j ∧ test j = true) ∧
        (z.getLsbD 7 = true ↔ ∀ j < 32, Sys2Proof.Claims.active s k j → test j = true) ∧
        (z.getLsbD 6 = true ↔ ∀ j < 32, Sys2Proof.Claims.active s k j → test j = false) ∧
        z.toNat % 64 = (List.range 32).countP fun j => (k == 0 || (s.rdK k).getLsbD j) && test j

/-- R287, R297, R301: what gives a mask or a summary completes. -/
def Obligations.MasksAndSummaries : Prop := Sys2Proof.Claims.maskResults ∧ Sys2Proof.Claims.summaries

/-- R49, R296: VREDA of integers completes under its bound of 8: the exact sum of the active elements, narrowed once to
32 bits, in element 0, and zero in every other bit. -/
def Sys2Proof.Claims.integerSums : Prop :=
  ∀ (s : Sys2Proof.Machine.State) (f : Sys2Proof.VInt) (vd va : Sys2Proof.VReg) (k : Sys2Proof.KReg),
    Sys2Proof.Claims.plainV s va → s.galley? vd = none → Sys2Proof.Claims.quiet s (.v vd) →
    let w := f.w.bits
    let sum : Int := (((List.range (1024 / w)).filter fun e => k == 0 || (s.rdK k).getLsbD (e * w / 32)).map fun e =>
      Sys2Proof.Claims.num w f.n (Sys2Proof.Claims.el s va w e)).sum
    let r := Sys2Proof.Claims.narrowed 32 f.n f.sat sum
    Sys2Proof.Machine.exec (.vreda (.int f) vd va k) s =
      .next (Sys2Proof.Claims.withFlags (Sys2Proof.Claims.later s (.v vd) (.ofNat 1024 r.1) false 8) r.2 8)

/-- R50, R296: VREDM of integers completes under its bound of 8: element 0 is the value of an active element that no active
element goes beyond, as 32 bits; 0 with none active; every other bit is zero. -/
def Sys2Proof.Claims.integerExtremes : Prop :=
  ∀ (s : Sys2Proof.Machine.State) (w : Sys2Proof.EW) (n max : Bool) (vd va : Sys2Proof.VReg) (k : Sys2Proof.KReg),
    Sys2Proof.Claims.plainV s va → s.galley? vd = none → Sys2Proof.Claims.quiet s (.v vd) →
    let x (e : Nat) : Int := Sys2Proof.Claims.num w.bits n (Sys2Proof.Claims.el s va w.bits e)
    let act (e : Nat) : Prop := e < 1024 / w.bits ∧ Sys2Proof.Claims.active s k (e * w.bits / 32)
    ∃ r : Int, Sys2Proof.Machine.exec (.vredm max (.int w n) vd va k) s =
        .next (Sys2Proof.Claims.later s (.v vd) (.ofNat 1024 (r % 2 ^ 32).toNat) false 8) ∧
      ((¬∃ e, act e) → r = 0) ∧
      ((∃ e, act e) → (∃ e, act e ∧ x e = r) ∧ ∀ e, act e → if max = true then x e ≤ r else r ≤ x e)

/-- R49, R50, R296: VREDA and VREDM over integers complete: the narrowed sum, and the extreme, of the active elements. -/
def Obligations.IntegerReductions : Prop := Sys2Proof.Claims.integerSums ∧ Sys2Proof.Claims.integerExtremes

/-- R47, R48, R296: the floating reductions complete under their bound of 8, with the value of the pairwise tree in element 0,
zero elsewhere. -/
def Obligations.FloatReductions : Prop :=
  ∀ (s : Sys2Proof.Machine.State) (t : Sys2Proof.FT) (max : Bool) (vd va : Sys2Proof.VReg) (k : Sys2Proof.KReg),
    Sys2Proof.Claims.plainV s va → s.galley? vd = none → Sys2Proof.Claims.quiet s (.v vd) →
    let f := Sys2Proof.Machine.fmtOf t
    let ins : List (Option Nat) := (List.range (1024 / t.bits)).map fun e =>
      if (k == 0 || (s.rdK k).getLsbD (e * t.bits / 32)) = true then some (Sys2Proof.Claims.el s va t.bits e) else none
    let add := Sys2Proof.Machine.tree (fun a b => f.add .rne (f.decode a) (f.decode b)) 6 ins
    let ext := Sys2Proof.Machine.tree (fun a b => f.minMax max a b) 6 ins
    Sys2Proof.Machine.exec (.vreda (.fp t) vd va k) s = .next (Sys2Proof.Claims.withFlags
      (Sys2Proof.Claims.later s (.v vd) (.ofNat 1024 (add.1.getD 0)) false 8) add.2 8) ∧
    Sys2Proof.Machine.exec (.vredm max (.fp t) vd va k) s = .next (Sys2Proof.Claims.withFlags
      (Sys2Proof.Claims.later s (.v vd) (.ofNat 1024 (ext.1.getD 0)) false 8) ext.2 8)

/-- R43, R45, R305: VCVTX completes under its bound of 4, with the flags of all its elements: from blocks, each element of the part
under its scale byte; to blocks, both destinations, the elements and the scale bytes of the part, every other element and byte
kept. -/
def Obligations.BlockConversions : Prop :=
  ∀ (s : Sys2Proof.Machine.State) (t : Sys2Proof.FT) (bt : Sys2Proof.BlkT) (rm : Sys2Proof.Rm)
      (vd va vb : Sys2Proof.VReg) (p : BitVec 3),
    (Sys2Proof.Instr.vcvtx true t bt rm vd va vb p).wf = true → Sys2Proof.Claims.plainV s va →
    Sys2Proof.Claims.plainV s vb → Sys2Proof.Claims.plainV s vd → Sys2Proof.Claims.quiet s (.v vd) →
    Sys2Proof.Claims.quiet s (.v vb) →
    let n := 1024 / t.bits
    let from' (e : Nat) : Nat × Sys2Proof.Machine.Flags :=
      Sys2Proof.Machine.fromBlock bt (Sys2Proof.Machine.fmtOf t) rm (Sys2Proof.Claims.el s vb 8 ((p.toNat * n + e) / 4))
        (Sys2Proof.Claims.el s va bt.bits (p.toNat * n + e))
    let blk (j : Nat) : Nat × List Nat × Sys2Proof.Machine.Flags :=
      Sys2Proof.Machine.toBlock bt rm ((List.range 4).map fun i =>
        (Sys2Proof.Machine.fmtOf t).decode (Sys2Proof.Claims.el s va t.bits (4 * j + i)))
    (∃ (v : Sys2Proof.VWord) (fl : Sys2Proof.Machine.Flags),
      Sys2Proof.Machine.exec (.vcvtx true t bt rm vd va vb p) s =
        .next (Sys2Proof.Claims.withFlags (Sys2Proof.Claims.later s (.v vd) v false 4) fl 4) ∧
      (∀ e < n, (Sys2Proof.Machine.elemAt t.bits v e).toNat = (from' e).1 % 2 ^ t.bits) ∧
      ∀ j, fl.getLsbD j = true ↔ ∃ e < n, (from' e).2.getLsbD j = true) ∧
    ∃ (v b : Sys2Proof.VWord) (fl : Sys2Proof.Machine.Flags),
      Sys2Proof.Machine.exec (.vcvtx false t bt rm vd va vb p) s = .next (Sys2Proof.Claims.withFlags
        (Sys2Proof.Claims.later (Sys2Proof.Claims.later s (.v vd) v false 4) (.v vb) b false 4) fl 4) ∧
      (∀ e < 1024 / bt.bits, e < p.toNat * n ∨ p.toNat * n + n ≤ e →
        (Sys2Proof.Machine.elemAt bt.bits v e).toNat = Sys2Proof.Claims.el s vd bt.bits e) ∧
      (∀ j < 128, j < p.toNat * n / 4 ∨ p.toNat * n / 4 + n / 4 ≤ j →
        (Sys2Proof.Machine.elemAt 8 b j).toNat = Sys2Proof.Claims.el s vb 8 j) ∧
      (∀ j < n / 4, (Sys2Proof.Machine.elemAt 8 b (p.toNat * n / 4 + j)).toNat = (blk j).1 % 256 ∧
        ∀ i < 4, (Sys2Proof.Machine.elemAt bt.bits v (p.toNat * n + 4 * j + i)).toNat = (blk j).2.1.getD i 0 % 2 ^ bt.bits) ∧
      ∀ i, fl.getLsbD i = true ↔ ∃ j < n / 4, (blk j).2.2.getLsbD i = true

namespace Sys2Proof.Claims
open Sys2Proof.Machine

/-! ## Formats and rounding (R28 to R37, R40 to R48) -/

/-- The fields of a pattern: exponent, mantissa, sign (R28). -/
def patE (f : Fmt) (x : Nat) : Nat := x / 2 ^ f.mw % 2 ^ f.ew
def patM (f : Fmt) (x : Nat) : Nat := x % 2 ^ f.mw
def patNeg (f : Fmt) (x : Nat) : Bool := x / 2 ^ (f.ew + f.mw) % 2 == 1

/-- A pattern without its sign, under a sign. -/
def withSign (f : Fmt) (neg : Bool) (x : Nat) : Nat := if neg then 2 ^ (f.ew + f.mw) + x else x

/-- The exponent field of all ones: the pattern of infinity where the format has one. -/
def allOnes (f : Fmt) : Nat := (2 ^ f.ew - 1) * 2 ^ f.mw

/-- Is a pattern a NaN, a signalling NaN, an infinity (R29)? -/
def patNan (f : Fmt) (x : Nat) : Bool :=
  match f with
  | .e4m3 => x % 128 == 127
  | .e2m1 => false
  | f => patE f x == 2 ^ f.ew - 1 && patM f x != 0
def patSnan (f : Fmt) (x : Nat) : Bool := f != .e4m3 && patNan f x && patM f x / 2 ^ (f.mw - 1) == 0
def patInf (f : Fmt) (x : Nat) : Bool :=
  match f with
  | .e4m3 => false
  | .e2m1 => false
  | f => patE f x == 2 ^ f.ew - 1 && patM f x == 0

/-- The default NaN (R29). -/
def defaultNan : Fmt → Nat
  | .f32 => 0x7FC00000 | .f16 => 0x7E00 | .bf16 => 0x7FC0 | .e4m3 => 0x7F | .e5m2 => 0x7E | .e2m1 => 0

/-- The number that a finite pattern encodes (R28). -/
def patVal (f : Fmt) (x : Nat) : Rat :=
  let m : Rat :=
    if patE f x = 0 then (patM f x : Rat) * 2 ^ (1 - (f.bias : Int) - f.mw)
    else ((2 ^ f.mw + patM f x : Nat) : Rat) * 2 ^ ((patE f x : Int) - f.bias - f.mw)
  if patNeg f x then -m else m

/-- The greatest finite value (R28, R29). -/
def greatest : Fmt → Rat
  | .f32 => 2 ^ 128 - 2 ^ 104 | .f16 => 65504 | .bf16 => 2 ^ 128 - 2 ^ 120 | .e4m3 => 448 | .e5m2 => 57344 | .e2m1 => 6

/-- A number rounded to an integer in a mode; of a tie, RNE takes the even one (R33, R34). -/
def roundInt (rm : Rm) (x : Rat) : Int :=
  match rm with
  | .rne => if x - x.floor < 1 / 2 ∨ (x - x.floor = 1 / 2 ∧ x.floor % 2 = 0) then x.floor else x.floor + 1
  | .rz => if 0 ≤ x then x.floor else x.ceil
  | .ru => x.ceil
  | .rd => x.floor

/-- A number rounded to a multiple of 2^q. -/
def onGrid (rm : Rm) (q : Int) (x : Rat) : Rat := roundInt rm (x / 2 ^ q) * 2 ^ q

/-- What an overflow delivers (R35). -/
def overflowed (f : Fmt) (rm : Rm) (neg : Bool) : Nat :=
  withSign f neg (match f with
    | .e4m3 => 0x7E
    | .e2m1 => 7
    | f => match rm with
      | .rne => allOnes f
      | .rz => allOnes f - 1
      | .ru => if neg then allOnes f - 1 else allOnes f
      | .rd => if neg then allOnes f else allOnes f - 1)

/-- A result is a non-zero number rounded once to a format, with its flags: a number from 2^e on and below 2^(e+1) is rounded to
the format's places there, the subnormal ones at the least; beyond the greatest value it overflows with OF and NX; it sets NX
when the delivered value differs, and UF too when it is tiny as rounded with the exponent unbounded (R30, R33 to R36). -/
def Rounded (f : Fmt) (rm : Rm) (x : Rat) (r : Nat × Flags) : Prop :=
  ∀ e : Int, 2 ^ e ≤ x.abs → x.abs < 2 ^ (e + 1) →
    let y := onGrid rm (max (e - f.mw) (1 - (f.bias : Int) - f.mw)) x
    let u := onGrid rm (e - f.mw) x
    if greatest f < y.abs then r = (overflowed f rm (decide (x < 0)), 0x14)
    else r.1 < 2 ^ f.width ∧ patNan f r.1 = false ∧ patInf f r.1 = false ∧ patVal f r.1 = y ∧ patNeg f r.1 = decide (x < 0) ∧
      r.2 = if y = x then 0 else if u.abs < 2 ^ (1 - (f.bias : Int)) then 0x18 else 0x10

/-- A number that may be zero, whose zero has a sign, rounded. -/
def RoundedOr (f : Fmt) (rm : Rm) (neg : Bool) (x : Rat) (r : Nat × Flags) : Prop :=
  if x = 0 then r = (withSign f neg 0, 0) else Rounded f rm x r

/-- The first NaN of some patterns, quieted, and NV for a signalling one (R32). -/
def nanRule (f : Fmt) (xs : List Nat) (invalid : Bool) (r : Nat × Flags) (other : Prop) : Prop :=
  match xs.find? (patNan f) with
  | some x => r = (x ||| 2 ^ (f.mw - 1), if xs.any (patSnan f) || invalid then 1 else 0)
  | none => if invalid then r = (defaultNan f, 1) else other

/-- The sum of two operands given as sign, infinity or not, and number: the infinities of R32, the zeros of R30, else rounded. -/
def Summed (f : Fmt) (rm : Rm) (n1 i1 : Bool) (x : Rat) (n2 i2 : Bool) (y : Rat) (r : Nat × Flags) : Prop :=
  if i1 && i2 && n1 != n2 then r = (defaultNan f, 1)
  else if i1 then r = (withSign f n1 (allOnes f), 0)
  else if i2 then r = (withSign f n2 (allOnes f), 0)
  else RoundedOr f rm (if n1 = n2 then n1 else rm == .rd) (x + y) r

/-- A number under a sign flip. -/
def flipped (neg : Bool) (x : Rat) : Rat := if neg then -x else x

/-- Is one factor zero and the other infinite? -/
def zeroInf (f : Fmt) (a b : Nat) : Bool :=
  (patInf f a && !patInf f b && patVal f b == 0) || (patInf f b && !patInf f a && patVal f a == 0)

/-- The formats of the arithmetic (R31). -/
abbrev arith (f : Fmt) : Prop := f = .f32 ∨ f = .f16 ∨ f = .bf16

/-- Addition and subtraction (R30, R32, R298). -/
def formatSums : Prop :=
  ∀ (f : Fmt) (rm : Rm) (a b : Nat), arith f → a < 2 ^ f.width → b < 2 ^ f.width →
    nanRule f [a, b] false (f.add rm (f.decode a) (f.decode b))
      (Summed f rm (patNeg f a) (patInf f a) (patVal f a) (patNeg f b) (patInf f b) (patVal f b)
        (f.add rm (f.decode a) (f.decode b))) ∧
    nanRule f [a, b] false (f.add rm (f.decode a) (f.decode b).neg)
      (Summed f rm (patNeg f a) (patInf f a) (patVal f a) (!patNeg f b) (patInf f b) (-patVal f b)
        (f.add rm (f.decode a) (f.decode b).neg))

/-- Multiplication, and fused multiply-add with its negations (R30, R32, R51, R298, R299). NV of zero times infinity with a
quiet NaN addend is the model's reading (log 15). -/
def formatProducts : Prop :=
  ∀ (f : Fmt) (rm : Rm) (np nc : Bool) (a b c : Nat), arith f → a < 2 ^ f.width → b < 2 ^ f.width → c < 2 ^ f.width →
    let neg := patNeg f a != patNeg f b
    let inf := patInf f a || patInf f b
    nanRule f [a, b] (zeroInf f a b) (f.mul rm (f.decode a) (f.decode b))
      (if inf = true then f.mul rm (f.decode a) (f.decode b) = (withSign f neg (allOnes f), 0)
       else RoundedOr f rm neg (patVal f a * patVal f b) (f.mul rm (f.decode a) (f.decode b))) ∧
    nanRule f [a, b, c] (zeroInf f a b) (f.fma rm np nc (f.decode a) (f.decode b) (f.decode c))
      (Summed f rm (neg != np) inf (flipped np (patVal f a * patVal f b)) (patNeg f c != nc) (patInf f c)
        (flipped nc (patVal f c)) (f.fma rm np nc (f.decode a) (f.decode b) (f.decode c)))

/-- Is a format an 8-bit one? -/
abbrev fp8 (f : Fmt) : Prop := f = .e4m3 ∨ f = .e5m2

/-- Conversions between floating formats (R31, R32, R303). -/
def formatConversions : Prop :=
  ∀ (src dst : Fmt) (rm : Rm) (x : Nat), src ≠ dst → x < 2 ^ src.width →
    let r := convert src dst rm x
    let neg := patNeg src x
    let snan : Flags := if patSnan src x then 1 else 0
    if patNan src x = true then
      if dst = .e2m1 then r = (0, 1)
      else if fp8 dst then r = (withSign dst neg (defaultNan dst), snan)
      else if fp8 src then r = (withSign dst neg (defaultNan dst), 0)
      else r = (withSign dst neg (allOnes dst + (patM src x * 2 ^ dst.mw / 2 ^ src.mw ||| 2 ^ (dst.mw - 1))), snan)
    else if patInf src x = true then
      if dst = .e4m3 ∨ dst = .e2m1 then r = (overflowed dst rm neg, 0x14) else r = (withSign dst neg (allOnes dst), 0)
    else RoundedOr dst rm neg (patVal src x) r

/-- Conversions between floating and integer formats (R37, R304). -/
def integerConversions : Prop :=
  ∀ (f : Fmt) (rm : Rm) (v : Int) (w : EW) (n : Bool) (x : Nat), arith f → x < 2 ^ f.width →
    let lo : Int := if n then 0 else -(2 ^ (w.bits - 1))
    let hi : Int := if n then 2 ^ w.bits - 1 else 2 ^ (w.bits - 1) - 1
    let z := roundInt rm (patVal f x)
    RoundedOr f rm false v (intToFloat f rm v) ∧
    floatToInt f w.bits n rm x =
      if patNan f x then (0, 1)
      else if patInf f x then (.ofInt w.bits (if patNeg f x then lo else hi), 1)
      else if z < lo then (.ofInt w.bits lo, 1)
      else if hi < z then (.ofInt w.bits hi, 1)
      else (.ofInt w.bits z, if (z : Rat) = patVal f x then 0 else 0x10)

/-- The floating element format of a block format (R41). -/
def elementFmt : BlkT → Option Fmt
  | .mxe4m3 => some .e4m3 | .mxe5m2 => some .e5m2 | .mxfp4 => some .e2m1 | .mxi8 => none | .mxn8 => none

/-- emax of a block format (R41). -/
def blockTop : BlkT → Int
  | .mxe4m3 => 8 | .mxe5m2 => 15 | .mxfp4 => 2 | .mxi8 => 0 | .mxn8 => -1

/-- An element of a block format is a scaled value rounded once; a clamp to an integer range sets SI and NX (R35, R43). -/
def ElementRounded (bt : BlkT) (rm : Rm) (neg : Bool) (y : Rat) (r : Nat × Flags) : Prop :=
  let clamped (lo hi z : Int) (exact : Bool) : Nat × Flags :=
    if z < lo then ((lo % 256).toNat, 0x30) else if hi < z then ((hi % 256).toNat, 0x30)
    else ((z % 256).toNat, if exact then 0 else 0x10)
  match elementFmt bt with
  | some f => RoundedOr f rm neg y r
  | none =>
    if bt = .mxn8 then
      r = if y < 0 then (0, 0x30) else clamped 0 255 (roundInt rm (y * 256)) ((roundInt rm (y * 256) : Rat) == y * 256)
    else r = clamped (-127) 127 (roundInt rm (y * 64)) ((roundInt rm (y * 64) : Rat) == y * 64)

/-- Four numbers to a block: the scale of the greatest magnitude, clamped, and each element under it; all zero; a NaN or an
infinity (R43). -/
def toBlocks : Prop :=
  ∀ (f : Fmt) (bt : BlkT) (rm : Rm) (vs : List Nat), arith f → vs.length = 4 → (∀ v ∈ vs, v < 2 ^ f.width) →
    let r := toBlock bt rm (vs.map f.decode)
    ((∃ v ∈ vs, patNan f v = true ∨ patInf f v = true) → r = (0xFF, [0, 0, 0, 0], 0x80)) ∧
    ((∀ v ∈ vs, patNan f v = false ∧ patInf f v = false) →
      ((∀ v ∈ vs, patVal f v = 0) → r = (0, vs.map fun v => match elementFmt bt with
        | some g => withSign g (patNeg f v) 0
        | none => 0, 0)) ∧
      ∀ k : Int, (∀ v ∈ vs, (patVal f v).abs < 2 ^ (k + 1)) → (∃ v ∈ vs, 2 ^ k ≤ (patVal f v).abs) →
        let s0 := k - blockTop bt
        let s := max (-127) (min 127 s0)
        (r.1 : Int) = s + 127 ∧ r.2.1.length = 4 ∧ ∃ fl : List Flags, fl.length = 4 ∧
          (∀ i < 4, ElementRounded bt rm (patNeg f (vs.getD i 0)) (patVal f (vs.getD i 0) / 2 ^ s)
            (r.2.1.getD i 0, fl.getD i 0)) ∧
          r.2.2 = fl.foldl (fun a b => a ||| b) (if s = s0 then 0 else 0x40))

/-- An element under its scale to a floating format (R40, R41, R45). -/
def fromBlocks : Prop :=
  ∀ (f : Fmt) (bt : BlkT) (rm : Rm) (scale x : Nat), arith f → scale < 256 → x < 2 ^ bt.bits →
    let r := fromBlock bt f rm scale x
    let s : Rat := 2 ^ ((scale : Int) - 127)
    if scale = 0xFF then r = (defaultNan f, 0)
    else match elementFmt bt with
      | some g =>
        if patNan g x = true then r = (withSign f (patNeg g x) (defaultNan f), 0)
        else if patInf g x = true then r = (withSign f (patNeg g x) (allOnes f), 0)
        else RoundedOr f rm (patNeg g x) (patVal g x * s) r
      | none => RoundedOr f rm false ((if bt = .mxn8 then (x : Rat) / 256 else (num 8 false x : Rat) / 64) * s) r

/-- Node i of a level of the pairwise tree: an absent input passes the other through (R47, R48). -/
def node (g : Nat → Nat → Nat × Flags) (ins : List (Option Nat)) : Nat → Nat → Option Nat
  | 0, i => (ins[i]?).join
  | l + 1, i =>
    match node g ins l (2 * i), node g ins l (2 * i + 1) with
    | some a, some b => some (g a b).1
    | some a, none => some a
    | none, b => b

/-- The pairwise tree: its value is that of its last node, its flags are those of all nodes with two inputs (R39, R47, R48). -/
def treeNodes : Prop :=
  ∀ (g : Nat → Nat → Nat × Flags) (ins : List (Option Nat)), ins.length ≤ 64 →
    (tree g 6 ins).1 = node g ins 6 0 ∧
    ∀ j, (tree g 6 ins).2.getLsbD j = true ↔ ∃ l < 6, ∃ i < 32, ∃ a b, node g ins l (2 * i) = some a ∧
      node g ins l (2 * i + 1) = some b ∧ (g a b).2.getLsbD j = true

end Sys2Proof.Claims

/-- R28 to R37, R43, R45, R47, R48: the operations of Machine/Float.lean that the instructions of FloatResults, FloatReductions
and BlockConversions call, for every pattern and every mode: sums, products, fused products and sums, and conversions are the exact
number rounded once, with the flags of that rounding; NaNs, infinities and the signs of zeros as the rules say; blocks take
the scale of their greatest magnitude; the tree of a reduction adds in pairs. NV of an invalid product with a quiet NaN addend
is the model's reading (log 15). -/
def Obligations.FormatArithmetic : Prop :=
  Sys2Proof.Claims.formatSums ∧ Sys2Proof.Claims.formatProducts ∧ Sys2Proof.Claims.formatConversions ∧
    Sys2Proof.Claims.integerConversions ∧ Sys2Proof.Claims.toBlocks ∧ Sys2Proof.Claims.fromBlocks ∧ Sys2Proof.Claims.treeNodes

namespace Sys2Proof.Claims
open Sys2Proof.Machine

/-- The register holds a segment of a row, or of a column, under the mask: the tile's elements with CV 0, band bytes with
CV 1, bf16 elements as f32 with CV 2; 0 beyond the end; the old elements where the mask is 0 (R307, R308). -/
def readsSegment (s : State) (byCol : Bool) (cv : TileCv) (vd : VReg) (tile : TileNo) (idx : BitVec 11) (seg : BitVec 5)
    (k : KReg) (v : VWord) : Prop :=
  let h := shapeOf (s.rdShape tile.toNat)
  let st := s.cc.tile (s.physTile tile.toNat)
  let len := if byCol then h.rows else h.cols
  let n := 1024 / h.w
  let at' (i : Nat) : Nat := if i < len then (if byCol then h.elem st i idx.toNat else h.elem st idx.toNat i) else 0
  match cv with
  | .plain => ∀ e < n, (elemAt h.w v e).toNat =
      if active s k (e * h.w / 32) then at' (seg.toNat * n + e) % 2 ^ h.w else el s vd h.w e
  | .bf16 => ∀ e < 32, (elemAt 32 v e).toNat =
      if active s k e then at' (seg.toNat * 32 + e) * 2 ^ 16 % 2 ^ 32 else el s vd 32 e
  | .band => ∀ j < 128, (elemAt 8 v j).toNat =
      if active s k (j / 4) then
        let i := seg.toNat * n / 4 + j
        if j < n / 4 ∧ i < len / 4 then
          (st.get (0x8000 + if byCol then i * h.cols + idx.toNat else idx.toNat * h.cols / 4 + i)).toNat
        else 0
      else el s vd 8 j

/-- The tile holds a register's segment of a row in the active lanes, and every other element and band byte is as it was
(R307 to R309). -/
def writesSegment (s : State) (cv : TileCv) (vs : VReg) (tile : TileNo) (idx : BitVec 11) (seg : BitVec 5) (k : KReg)
    (st : Store) (fl : Flags) : Prop :=
  let h := shapeOf (s.rdShape tile.toNat)
  let old := s.cc.tile (s.physTile tile.toNat)
  let n := if cv = .bf16 then 32 else 1024 / h.w
  let here (e : Nat) : Prop := e < n ∧ seg.toNat * n + e < h.cols ∧ active s k (if cv = .bf16 then e else e * h.w / 32)
  let wrote (f : Nat → Nat) : Prop :=
    (∀ a, 0x8000 ≤ a → st.get a = old.get a) ∧ ∀ r c, r < h.rows → c < h.cols →
      (∀ e, r = idx.toNat → c = seg.toNat * n + e → here e → h.elem st r c = f e) ∧
      ((∀ e, r = idx.toNat → c = seg.toNat * n + e → ¬here e) → h.elem st r c = h.elem old r c)
  match cv with
  | .plain => fl = 0 ∧ wrote (el s vs h.w)
  | .bf16 => wrote (fun e => (convert .f32 .bf16 .rne (el s vs 32 e)).1 % 2 ^ 16) ∧
      ∀ j, fl.getLsbD j = true ↔ ∃ e, here e ∧ (convert .f32 .bf16 .rne (el s vs 32 e)).2.getLsbD j = true
  | .band =>
      let byte (j : Nat) : Nat := 0x8000 + idx.toNat * h.cols / 4 + (seg.toNat * n / 4 + j)
      let put (j : Nat) : Prop := j < n / 4 ∧ seg.toNat * n / 4 + j < h.cols / 4 ∧ active s k (j / 4)
      fl = 0 ∧ (∀ j, put j → st.get (byte j) = elemAt 8 (s.rdV vs).val j) ∧
        ∀ a, (∀ j, put j → a ≠ byte j) → st.get a = old.get a

end Sys2Proof.Claims

/-- R307 to R309: VTRD and VTCD complete under their bound of 4 and change nothing else, with every CV, mask and segment that
their checks admit, when no write of their bytes is under way: the register holds the segment. That a unit with a poison mark
is read like any other is the model's choice (log 74). -/
def Obligations.TileReads : Prop :=
  ∀ (s : Sys2Proof.Machine.State) (cv : Sys2Proof.TileCv) (vd : Sys2Proof.VReg) (tile : Sys2Proof.TileNo) (idx : BitVec 11)
      (seg : BitVec 5) (k : Sys2Proof.KReg),
    let h := Sys2Proof.Machine.shapeOf (s.rdShape tile.toNat)
    s.galley? vd = none → (k ≠ 0 → (s.rdV vd).psn = false) → Sys2Proof.Claims.quiet s (.v vd) →
    (s.moveCheck cv tile idx seg false = none →
      s.segBusy tile (h.segRanges cv false idx.toNat seg.toNat) true = false →
      ∃ v : Sys2Proof.VWord, Sys2Proof.Machine.exec (.vtrd cv vd tile idx seg k) s =
          .next (Sys2Proof.Claims.later s (.v vd) v false 4) ∧
        Sys2Proof.Claims.readsSegment s false cv vd tile idx seg k v) ∧
    (s.moveCheck cv tile idx seg true = none →
      s.segBusy tile (h.segRanges cv true idx.toNat seg.toNat) true = false →
      ∃ v : Sys2Proof.VWord, Sys2Proof.Machine.exec (.vtcd cv vd tile idx seg k) s =
          .next (Sys2Proof.Claims.later s (.v vd) v false 4) ∧
        Sys2Proof.Claims.readsSegment s true cv vd tile idx seg k v)

/-- R307 to R309: VTWR completes, with every CV, mask and segment that its checks admit, when nothing of its bytes is under
way: the active elements of its segment that lie in the row take the register's, with CV 2 rounded to bf16 with their flags;
every other element and band byte of the tile keeps its value, no poison mark is added, and nothing else changes. -/
def Obligations.TileWrites : Prop :=
  ∀ (s : Sys2Proof.Machine.State) (cv : Sys2Proof.TileCv) (vs : Sys2Proof.VReg) (tile : Sys2Proof.TileNo) (idx : BitVec 11)
      (seg : BitVec 5) (k : Sys2Proof.KReg),
    let h := Sys2Proof.Machine.shapeOf (s.rdShape tile.toNat)
    s.moveCheck cv tile idx seg false = none →
    s.segBusy tile (h.segRanges cv false idx.toNat seg.toNat) false = false → Sys2Proof.Claims.plainV s vs →
    ∃ (st : Sys2Proof.Machine.Store) (fl : Sys2Proof.Machine.Flags) (marks : List (Nat × Nat × Nat)),
      (∀ x ∈ marks, x ∈ s.locPoison) ∧
      Sys2Proof.Machine.exec (.vtwr cv vs tile idx seg k) s = .next (Sys2Proof.Claims.withFlags { s.modCc fun c =>
        c.modTile (s.physTile tile.toNat) fun _ => st with locPoison := marks } fl 4) ∧
      Sys2Proof.Claims.writesSegment s cv vs tile idx seg k st fl

namespace Sys2Proof.Claims
open Sys2Proof.Machine

/-! ## The M slot (R351 to R375) -/

/-- The machine with other registers in the context in issue, and nothing else changed. -/
def withRegs (s : State) (f : Banks → Banks) : State := s.modMe fun x => { x with regs := f x.regs }

/-- Edge format codes (R355). -/
def edgeCode : EdgeFmt → Nat
  | .mxi8 => 0
  | .mxn8 => 1
  | .mxfp4 => 2

/-- The writes of the stream registers, each with its control register and what it leaves (R351, R354 to R361). -/
def streamTable (s : State) (j : BitVec 5) (fa fb : EdgeFmt) (bp ns prog : Bool) (e : BitVec 10) (d c0 : BitVec 9)
    (nc : BitVec 10) (g : BitVec 3) (new : BitVec 8) (hm : BitVec 2) (l : BitVec 3) : List (Instr × Nat × (Banks → Banks)) :=
  let mode : BitVec 10 := .ofNat 10 (256 * edgeCode fa + 64 * edgeCode fb + 32 * bp.toNat + 16 * ns.toNat + 8 * prog.toNat)
  [(.slen j, 0x080, fun b => { b with slen := j }),
   (.sseed, 0x081, fun b => { b with seedb := .ofNat 32 (s.cur.lit.toNat % 2 ^ 32) }),
   (.smode fa fb bp ns prog, 0x082, fun b => { b with smode := mode }),
   (.sref e, 0x083, fun b => { b with eref := e }),
   (.smarg d c0 nc, 0x084, fun b => { b with smarg := .ofNat 28 (d.toNat * 2 ^ 19 + c0.toNat * 2 ^ 10 + nc.toNat) }),
   (.svmrg g new, 0x085, fun b => { b with svmrg := .ofNat 11 (8 * new.toNat + g.toNat) }),
   (.slit (.hm hm), 0x088 + hm.toNat, fun b => { b with hmSh := sset 0 b.hmSh hm.toNat s.cur.lit }),
   (.slit (.n l), 0x090 + l.toNat, fun b => { b with nSh := sset 0 b.nSh l.toNat s.cur.lit })]

/-- The relative planes of a set. -/
def planes (pls : PlaneSet) : List Nat := (List.range 4).filter fun n => pls.getLsbD n

end Sys2Proof.Claims

/-- R354 to R361: the writes of the stream registers complete with bound 1 and change nothing else. SLIT writes a shadow,
never the live copy. -/
def Obligations.StreamRegisters : Prop :=
  ∀ (s : Sys2Proof.Machine.State) (j : BitVec 5) (fa fb : Sys2Proof.EdgeFmt) (bp ns prog : Bool) (e : BitVec 10)
      (d c0 : BitVec 9) (nc : BitVec 10) (g : BitVec 3) (new : BitVec 8) (hm : BitVec 2) (l : BitVec 3),
    ∀ x ∈ Sys2Proof.Claims.streamTable s j fa fb bp ns prog e d c0 nc g new hm l,
    Sys2Proof.Claims.quiet s (.creg (.ofNat 12 x.2.1)) →
    Sys2Proof.Machine.exec x.1 s = .next (Sys2Proof.Claims.withRegs s x.2.2)

/-- R354, R362, R363: SGO completes, when its checks hold and nothing makes it wait: its nest, latched from the registers it
names, is queued at its plane, its counters at 0 and its pass the first; NR is set; with SWAP its shadows and live copies
are exchanged. -/
def Sys2Proof.Claims.streamStarts : Prop :=
  ∀ (s : Sys2Proof.Machine.State) (sw : Bool) (hm : BitVec 2) (pl : Sys2Proof.PlaneNo) (flag : Option Sys2Proof.FReg),
    Sys2Proof.Machine.sgoSwapWait sw s = false → Sys2Proof.Machine.sgoCheck sw hm pl s = none →
    Sys2Proof.Machine.sgoStall sw hm s = false → Sys2Proof.Machine.sgoEnergy s = false →
    ∃ t n, Sys2Proof.Machine.exec (.sgo sw hm pl flag) s = .next t ∧ t.me.nr = true ∧
      (t.planeOf pl.toNat).queue = (s.planeOf pl.toNat).queue ++ [.sgo n] ∧
      n.ctx = s.cur.ctx.toNat ∧ n.flag = flag ∧ n.seed = s.view.regs.seedb ∧ n.j = s.view.regs.slen.toNat ∧
      n.smode = s.view.regs.smode ∧ n.eref = s.view.regs.eref ∧ n.skip = s.cur.lit ∧ n.i = [0, 0, 0, 0, 0, 0] ∧ n.q = 0 ∧
      n.hmv = Sys2Proof.Machine.sget 0 (if sw then s.view.regs.hmSh else s.view.regs.hm) hm.toNat ∧
      n.pass = (if s.view.regs.smode.getLsbD 3 then 6 else s.view.regs.slen.toNat) ∧ t.accs = s.accs ∧ t.mem = s.mem ∧
      t.me.regs.s = s.me.regs.s ∧ t.me.regs.v = s.me.regs.v ∧ t.me.regs.a = s.me.regs.a ∧
      (sw = true → t.me.regs.n = s.view.regs.nSh ∧ t.me.regs.nSh = s.view.regs.n) ∧ (sw = false → t.me.regs = s.me.regs)

/-- R80, R362: an SGO at or beyond CARR takes the claim trap, whatever else is wrong. -/
def Sys2Proof.Claims.streamClaim : Prop :=
  ∀ (s : Sys2Proof.Machine.State) (sw : Bool) (hm : BitVec 2) (pl : Sys2Proof.PlaneNo) (flag : Option Sys2Proof.FReg),
    Sys2Proof.Machine.sgoSwapWait sw s = false → s.me.bnd.carr ≤ pl.toNat →
    Sys2Proof.Machine.exec (.sgo sw hm pl flag) s = .next (s.trap (Sys2Proof.Claims.slotTrap s 0x0007 pl.toNat))

/-- R59, R354, R364: SGO issues a nest, and traps on an array beyond its claim. How the queued operations count is the model's
choice (log 108). -/
def Obligations.StreamIssue : Prop := Sys2Proof.Claims.streamStarts ∧ Sys2Proof.Claims.streamClaim

namespace Sys2Proof.Claims
open Sys2Proof.Machine

/-- The planes of the context that are not among these are as they were. -/
def otherPlanes (s t : State) (ns : List Nat) : Prop := ∀ n, n < 4 → n ∉ ns → t.planeOf n = s.planeOf n

/-- No nest owns the plane (R59). -/
abbrev unowned (s : State) (n : Nat) : Prop := n < s.me.bnd.carr ∧ (s.planeOf n).owner = none

end Sys2Proof.Claims

/-- R367, R368: SCLR completes when its planes are claimed and no nest owns one of them and the queue has room: an operation
stands last in the queue of each, NR is set, and no other plane changes. -/
def Sys2Proof.Claims.planeClear : Prop :=
  ∀ (s : Sys2Proof.Machine.State) (pls : Sys2Proof.PlaneSet),
    (∀ n ∈ Sys2Proof.Claims.planes pls, Sys2Proof.Claims.unowned s n) →
    s.queuedOps + (Sys2Proof.Claims.planes pls).length ≤ 8 →
    ∃ t, Sys2Proof.Machine.exec (.sclr pls) s = .next t ∧ t.me.nr = true ∧ t.me.regs = s.me.regs ∧ t.accs = s.accs ∧
      t.mem = s.mem ∧ Sys2Proof.Claims.otherPlanes s t (Sys2Proof.Claims.planes pls) ∧
      ∀ n ∈ Sys2Proof.Claims.planes pls,
        (t.planeOf n).queue = (s.planeOf n).queue ++ [.sclr s.cur.ctx.toNat s.cur.bpc] ∧
          (t.planeOf n).acc = (s.planeOf n).acc

/-- R367, R369, R370: SACC completes when its plane and tile are claimed, no nest owns the plane, the tile has the shape and the
row, and queue and scoreboard have room: its operation, with the tile bytes of the row from the first element and the number
of values, min(NCOLS, 512 − pcol), stands last in the plane's queue and has a write entry over those bytes; its context is as
it was. -/
def Sys2Proof.Claims.planeRead : Prop :=
  ∀ (s : Sys2Proof.Machine.State) (bf : Bool) (tile : Sys2Proof.TileNo) (trow : BitVec 11) (pl : Sys2Proof.PlaneNo)
      (prow pcol : BitVec 9),
    let h := Sys2Proof.Machine.shapeOf (s.rdShape tile.toNat)
    let w := if bf = true then 2 else 4
    let lo := s.physTile tile.toNat * 0xA000 + trow.toNat * h.cols * w
    let cnt := min h.cols (512 - pcol.toNat)
    Sys2Proof.Claims.unowned s pl.toNat → tile.toNat < s.me.bnd.ctile → h.ok = true → h.w = 8 * w → trow.toNat < h.rows →
    s.queuedOps < 8 → s.cc.rsbFree 1 = true → s.cc.rangeBusy 2 lo (lo + cnt * w) s.nextId false = false →
    ∃ t, Sys2Proof.Machine.exec (.sacc bf tile trow pl prow pcol) s = .next t ∧ t.me = s.me ∧ t.accs = s.accs ∧ t.mem = s.mem ∧
      Sys2Proof.Claims.otherPlanes s t [pl.toNat] ∧ (t.planeOf pl.toNat).acc = (s.planeOf pl.toNat).acc ∧
      (t.planeOf pl.toNat).queue = (s.planeOf pl.toNat).queue ++
        [.sacc s.cur.ctx.toNat s.me.bnd.gen s.nextId lo prow.toNat pcol.toNat cnt bf] ∧
      ∃ e ∈ t.cc.rsb, e.who = s.nextId ∧ e.write = true ∧ e.space = 2 ∧ e.lo ≤ lo ∧ lo + cnt * w ≤ e.hi

/-- R371 to R373: SDRAIN of planes without a nest and without a queued operation of the context completes and changes nothing,
and waits otherwise; STEST and SPOS read a claimed plane into SQRY and change nothing else; SSTOP tells every nest of its
planes to stop, sets NR, and changes no other plane. -/
def Sys2Proof.Claims.planeStatus : Prop :=
  ∀ (s : Sys2Proof.Machine.State) (pls : Sys2Proof.PlaneSet) (pl : Sys2Proof.PlaneNo) (sel : BitVec 3),
    let idle : Prop := ∀ n ∈ Sys2Proof.Claims.planes pls, (s.planeOf n).owner = none ∧
      ∀ o ∈ (s.planeOf n).queue, o.ctx ≠ s.cur.ctx.toNat
    ((∀ n ∈ Sys2Proof.Claims.planes pls, n < s.me.bnd.carr) →
      (idle → Sys2Proof.Machine.exec (.sdrain pls) s = .next s) ∧
      (¬idle → ∃ t, Sys2Proof.Machine.exec (.sdrain pls) s = .next t ∧ t.me.st = .blocked ∧ t.me.wait = .drain pls ∧
        t.me.regs = s.me.regs ∧ t.clusters = s.clusters)) ∧
    (pl.toNat < s.me.bnd.carr → Sys2Proof.Machine.exec (.stest pl) s =
      .next (Sys2Proof.Claims.withRegs s fun b => { b with sqry := .ofNat 64 (s.planeOf pl.toNat).seen.pstat.toNat })) ∧
    (pl.toNat < s.me.bnd.carr → Sys2Proof.Machine.exec (.spos pl sel) s =
      .next (Sys2Proof.Claims.withRegs s fun b => { b with sqry := .ofNat 64 ((s.planeOf pl.toNat).seen.spos sel.toNat) })) ∧
    ((∀ n ∈ Sys2Proof.Claims.planes pls, n < s.me.bnd.carr) →
      ∃ t, Sys2Proof.Machine.exec (.sstop pls) s = .next t ∧ t.me.nr = true ∧ t.me.regs = s.me.regs ∧ t.accs = s.accs ∧
        t.mem = s.mem ∧ Sys2Proof.Claims.otherPlanes s t (Sys2Proof.Claims.planes pls) ∧
        ∀ n ∈ Sys2Proof.Claims.planes pls, (t.planeOf n).acc = (s.planeOf n).acc ∧
          (∀ x, (t.planeOf n).nest = some x → x.sstop = true) ∧ ∀ x, .sgo x ∈ (t.planeOf n).queue → x.sstop = true)

/-- R367 to R373: SCLR, SACC, SDRAIN, STEST, SPOS and SSTOP complete: the first two with their operation queued at their planes,
the others at once. How the queued operations count is the model's choice (log 108). -/
def Obligations.PlaneOperations : Prop :=
  Sys2Proof.Claims.planeClear ∧ Sys2Proof.Claims.planeRead ∧ Sys2Proof.Claims.planeStatus

namespace Sys2Proof.Claims
open Sys2Proof.Machine

/-! ## The L and T slots (R311 to R334) -/

/-- The far address of a base register and an offset, modulo 2^64 (R312). -/
def farEa (s : State) (ab : AReg) (off : Int) : Nat := (((s.rdA ab).toNat + off) % 2 ^ 64).toNat

/-- An access goes on: its page's translation is known to the cluster, or is walked for (R152, R445). -/
def translates (s : State) (va : Nat) (need : Need) : Prop :=
  s.tlbLookup s.cur.cl.toNat s.me.bnd.asid va need = .pending ∨
    ∃ pa mt, mt ≠ 1 ∧ s.tlbLookup s.cur.cl.toNat s.me.bnd.asid va need = .ok pa mt

/-- The same, or a mapped stash range serves it without a translation (R162). -/
def stashOr (s : State) (va : Nat) (need : Need) : Prop :=
  (s.cc.stashAt s.me.bnd.asid va).isSome = true ∨ translates s va need

/-- The address that a store's access has: that of the mapped page which a local address of a STASH region stands for (R160,
R162). -/
def storeVa (s : State) (loc : Bool) (ea : Nat) : Nat :=
  if loc = true then (s.granVa s.cur.cl.toNat (s.physLocal ea)).getD ea else ea

/-- The launch of a group has reached no line by both aliases (R156). -/
def intact (s : State) (launch : Nat) : Prop := ∀ e ∈ s.forme.broken, e.1 ≠ launch

/-- The context holds no write back (R92). -/
abbrev nothingHeld (s : State) : Prop := ∀ a ∈ s.accs, a.heldBy s.cur.cl.toNat s.cur.ctx.toNat = false

/-- How a load's bytes are served: local, or far (R160, R312). -/
def serveOf (s : State) (loc : Bool) (ea len : Nat) (hint : Hint) (cls : Cls) : Serve :=
  if loc then s.serveLocal ea len false else s.serveFar ea len false hint cls.toNat

/-- The number that loaded bytes are, and the value that a load into an s or a register gives: sign-extended or
zero-extended (R317). -/
def loaded (sx : Bool) (bs : List Byte) : VWord :=
  let x := ofBytes bs
  let n := 8 * bs.length
  if sx && 2 ^ (n - 1) ≤ x then .ofNat 1024 (x + 2 ^ 64 - 2 ^ n) else .ofNat 1024 x

/-- The s or a register of a destination. -/
def saReg : SAReg → Dst
  | .s n => .s n
  | .a n => .a n

/-- The loads of R317, with destination, length, extension and address. -/
def loadTable (d : SAReg) (sd : SReg) (vd : VReg) (w : SW) (vw : VW) (sx : Bool) (a : MAddr) :
    List (Instr × Dst × Nat × Bool) :=
  [(.ld d w sx a, saReg d, w.bytes, sx), (.ldv vd vw a, .v vd, vw.bytes, false),
   (.lds (.s sd w sx) a, .s sd, w.bytes, sx), (.lds (.v vd vw) a, .v vd, vw.bytes, false)]

/-- The loads from beyond the cluster, each with destination, address, length and operation (R315, R321, R326). -/
def farTable (s : State) (d : SAReg) (sd : SReg) (vd : VReg) (w : SW) (vw : VW) (sx : Bool) (ab : AReg) (off : BitVec 21)
    (cls : Cls) (hint : Hint) (scope : Scope) (mask : BitVec 16) : List (Instr × Dst × Nat × Nat × AccOp × Hint) :=
  let ea := farEa s ab off.toInt
  [(.ld d w sx ⟨false, ab, off, cls, hint⟩, saReg d, ea, w.bytes, .load, hint),
   (.ldv vd vw ⟨false, ab, off, cls, hint⟩, .v vd, ea, vw.bytes, .load, hint),
   (.lds (.s sd w sx) ⟨false, ab, off, cls, hint⟩, .s sd, ea, w.bytes, .load, hint),
   (.lds (.v vd vw) ⟨false, ab, off, cls, hint⟩, .v vd, ea, vw.bytes, .load, hint),
   (.lda d w scope ab cls mask, saReg d, farEa s ab 0, w.bytes, .load, .none),
   (.rfetch sd cls ⟨ab, off⟩, .s sd, ea, 4, if s.mayFetchShadow ea = true then .rfetch else .load, .none)]

/-- Store data: bytes of a register, byte 0 first (R8, R328). -/
def dataBytes (n x : Nat) : List Byte := (List.range n).map fun i => .ofNat 8 (x / 2 ^ (8 * i))

/-- The plain stores to far addresses and to local store, each with address, bytes and class; and what must hold of its
data (R328, R332). -/
def storeTable (s : State) (d : SAReg) (vs : VReg) (w : SW) (vw : VW) (idx : BitVec 7) (off15 : BitVec 15) (a : MAddr) :
    List (Instr × Prop × Nat × List Byte × Bool) :=
  let v := (s.rdV vs).val.toNat
  let (clean, x) : Prop × Nat := match d with
    | .s n => ((s.rdS n).psn = false, (s.rdS n).val.toNat)
    | .a n => (True, (s.rdA n).toNat)
  [(.st d w a, clean, farEa s a.ab a.off.toInt, dataBytes w.bytes x, a.loc),
   (.stv vs vw a, plainV s vs, farEa s a.ab a.off.toInt, dataBytes vw.bytes v, a.loc),
   (.sts vs w idx a.loc a.ab off15 a.cls a.hint, plainV s vs, farEa s a.ab off15.toInt,
    dataBytes w.bytes (v / 2 ^ (8 * w.bytes * idx.toNat)), a.loc),
   (.cline .zero a.cls ⟨a.ab, a.off⟩, True, farEa s a.ab a.off.toInt, List.replicate 256 0, false)]

/-- The other held writes: address, length, operation, what must hold first, and what a page must allow (R321, R326,
R329, R330, R332). -/
def heldTable (s : State) (d : SReg) (da : AReg) (ret : BitVec 18) (w : SW) (aw : AW) (op : AtomOp) (ab : AReg) (off : BitVec 21) (cls : Cls)
    (hint : Hint) (scope : Scope) (mask : BitVec 16) : List (Instr × Prop × Nat × Nat × AccOp × Need) :=
  let ea := farEa s ab off.toInt
  let at' := farEa s ab 0
  let clean := (s.rdS d).psn = false
  let pair := clean ∧ (op = .cas → (s.rdS (d + 1)).psn = false)
  let atom : AccOp := .atom op (s.rdS d).val (s.rdS (d + 1)).val
  [(.strl (.s d) w scope ab cls mask, clean, at', w.bytes, .store, .write),
   (.strl (.a da) w scope ab cls mask, True, at', w.bytes, .store, .write),
   (.atom op aw ab d cls hint none, pair, at', aw.bytes, atom, .write),
   (.atom op aw ab d cls hint (some ret), pair ∧ s.plainOk (8 * ret.toNat) aw.bytes = true, at', aw.bytes, atom, .write),
   (.red op aw ab d cls hint, clean, at', aw.bytes, .red op (s.rdS d).val, .write),
   (.rflush cls ⟨ab, off⟩, True, ea, 4, .rflush, .write),
   (.cline .clean cls ⟨ab, off⟩, True, ea, 256, .clean, .read),
   (.cline .flush cls ⟨ab, off⟩, True, ea, 256, .flush, .read)]

/-- What every instruction that only enters an access leaves as it was: its context's registers, the clusters, device and host
memory, the slices. -/
def nothingStored (s t : State) : Prop :=
  t.me.regs = s.me.regs ∧ t.clusters = s.clusters ∧ t.slices = s.slices ∧ t.mem = s.mem ∧ t.memFill = s.memFill ∧
    t.hostMem = s.hostMem ∧ t.cur = s.cur

/-- An access of the context in issue. -/
def mine (s : State) (a : Access) : Prop := a.cl = s.cur.cl.toNat ∧ a.ctx = s.cur.ctx.toNat ∧ a.bpc = s.cur.bpc

end Sys2Proof.Claims

/-- R160, R250, R313, R317, R318: a load whose bytes are at hand in the cluster (local store, a present stash granule, a CACHE
hit) completes under its bound of 6 with those bytes, byte 0 lowest, extended as it says; nothing else changes. The launch has
reached no line by both aliases (R156). -/
def Obligations.LocalLoads : Prop :=
  ∀ (s : Sys2Proof.Machine.State) (d : Sys2Proof.SAReg) (sd : Sys2Proof.SReg) (vd : Sys2Proof.VReg) (w : Sys2Proof.SW)
      (vw : Sys2Proof.VW) (sx : Bool) (a : Sys2Proof.MAddr) (p : Nat),
    ∀ e ∈ Sys2Proof.Claims.loadTable d sd vd w vw sx a, e.1.wf = true →
    let ea := Sys2Proof.Claims.farEa s a.ab a.off.toInt
    ea % e.2.2.1 = 0 → (a.loc = true → s.me.bnd.localOk ea e.2.2.1 = true) → s.galley? vd = none →
    Sys2Proof.Claims.serveOf s a.loc ea e.2.2.1 a.hint a.cls = .here p →
    s.cc.rangeBusy 1 p (p + e.2.2.1) s.nextId true = false → s.locPoisoned s.cur.cl.toNat 1 p e.2.2.1 = false →
    Sys2Proof.Claims.nothingHeld s → Sys2Proof.Claims.intact s s.me.bnd.launch → Sys2Proof.Claims.quiet s e.2.1 →
    Sys2Proof.Machine.exec e.1 s = .next (Sys2Proof.Claims.later s e.2.1
      (Sys2Proof.Claims.loaded e.2.2.2 ((List.range e.2.2.1).map fun i => s.cc.locByte (p + i))) false 6)

/-- R315, R321, R326: a load from beyond the cluster completes its issue: its access is entered, and its destination is
undefined until the access has returned, with no bound. Nothing is stored, and no register changes meanwhile. -/
def Obligations.FarLoads : Prop :=
  ∀ (s : Sys2Proof.Machine.State) (d : Sys2Proof.SAReg) (sd : Sys2Proof.SReg) (vd : Sys2Proof.VReg) (w : Sys2Proof.SW)
      (vw : Sys2Proof.VW) (sx : Bool) (ab : Sys2Proof.AReg) (off : BitVec 21) (cls : Sys2Proof.Cls) (hint : Sys2Proof.Hint)
      (scope : Sys2Proof.Scope) (mask : BitVec 16),
    ∀ e ∈ Sys2Proof.Claims.farTable s d sd vd w vw sx ab off cls hint scope mask,
    let ea := e.2.2.1
    let len := e.2.2.2.1
    ea % len = 0 → s.galley? vd = none → s.serveFar ea len false e.2.2.2.2.2 cls.toNat = .far → s.requestsFree 1 = true →
    Sys2Proof.Claims.translates s ea .read → Sys2Proof.Claims.quiet s e.2.1 →
    ∃ t a p, Sys2Proof.Machine.exec e.1 s = .next t ∧ a ∈ t.accs ∧ Sys2Proof.Claims.mine s a ∧ a.va = ea ∧ a.len = len ∧
      a.op = e.2.2.2.2.1 ∧ a.cls = cls.toNat ∧ p ∈ t.me.pend ∧ p.tag = a.tag ∧ p.dst = e.2.1 ∧ p.due = none ∧
      p.ready = false ∧ Sys2Proof.Claims.nothingStored s t

/-- R92, R328, R332: a plain store completes its issue: it is held, with the bytes it stores and the address it stores them
to; no byte of memory or of local store changes before its release. -/
def Sys2Proof.Claims.heldStores : Prop :=
  ∀ (s : Sys2Proof.Machine.State) (d : Sys2Proof.SAReg) (vs : Sys2Proof.VReg) (w : Sys2Proof.SW) (vw : Sys2Proof.VW)
      (idx : BitVec 7) (off : BitVec 15) (a : Sys2Proof.MAddr),
    ∀ e ∈ Sys2Proof.Claims.storeTable s d vs w vw idx off a, e.1.wf = true → e.2.1 →
    let ea := e.2.2.1
    let bs := e.2.2.2.1
    let loc := e.2.2.2.2
    ea % bs.length = 0 → (loc = true → s.me.bnd.localOk ea bs.length = true) →
    s.heldCount s.cur.cl.toNat s.cur.ctx.toNat < 256 → s.storeWait ea bs.length loc = .go →
    (loc = false → Sys2Proof.Claims.stashOr s ea .write) →
    ∃ t x, Sys2Proof.Machine.exec e.1 s = .next t ∧ x ∈ t.accs ∧ Sys2Proof.Claims.mine s x ∧ x.st = .held ∧ x.op = .store ∧
      x.va = Sys2Proof.Claims.storeVa s loc ea ∧ x.data = bs ∧ (loc = true → x.tr = .ok (s.physLocal ea) 3) ∧ Sys2Proof.Claims.nothingStored s t

/-- R92, R321, R326, R329, R330, R332: STRL, ATOM (with and without RET), RED, RFLUSH and CLINE complete their issue: each is
held, with its operation and address, and nothing is stored before its release. -/
def Sys2Proof.Claims.heldOperations : Prop :=
  ∀ (s : Sys2Proof.Machine.State) (d : Sys2Proof.SReg) (da : Sys2Proof.AReg) (ret : BitVec 18) (w : Sys2Proof.SW)
      (aw : Sys2Proof.AW) (op : Sys2Proof.AtomOp) (ab : Sys2Proof.AReg) (off : BitVec 21) (cls : Sys2Proof.Cls) (hint : Sys2Proof.Hint) (scope : Sys2Proof.Scope)
      (mask : BitVec 16),
    ∀ e ∈ Sys2Proof.Claims.heldTable s d da ret w aw op ab off cls hint scope mask, e.2.1 →
    let ea := e.2.2.1
    let len := e.2.2.2.1
    ea % len = 0 → s.heldCount s.cur.cl.toNat s.cur.ctx.toNat < 256 → Sys2Proof.Claims.translates s ea e.2.2.2.2.2 →
    ∃ t x, Sys2Proof.Machine.exec e.1 s = .next t ∧ x ∈ t.accs ∧ Sys2Proof.Claims.mine s x ∧ x.st = .held ∧
      x.op = e.2.2.2.2.1 ∧ x.va = ea ∧ x.len = len ∧ x.cls = cls.toNat ∧ Sys2Proof.Claims.nothingStored s t

/-- R92, R321, R326 to R332: every instruction whose write is held completes its issue. -/
def Obligations.HeldWrites : Prop := Sys2Proof.Claims.heldStores ∧ Sys2Proof.Claims.heldOperations

/-- Operands of the L and T slots, over which the table of their checks ranges. -/
structure Sys2Proof.Claims.MemOps where
  d : Sys2Proof.SAReg
  ss : Sys2Proof.SReg
  v : Sys2Proof.VReg
  ad : Sys2Proof.AReg
  ab : Sys2Proof.AReg
  w : Sys2Proof.SW
  vw : Sys2Proof.VW
  aw : Sys2Proof.AW
  sx : Bool
  a : Sys2Proof.MAddr
  g : Sys2Proof.GAddr
  t : Sys2Proof.TAddr
  fa : Sys2Proof.FAddr
  gal : Sys2Proof.GalleyNo
  idx : BitVec 7
  off : BitVec 15
  cls : Sys2Proof.Cls
  hint : Sys2Proof.Hint
  scope : Sys2Proof.Scope
  mask : BitVec 16
  tout : BitVec 7
  op : Sys2Proof.AtomOp
  cop : Sys2Proof.ClineOp
  ret : BitVec 18
  f : Sys2Proof.FReg
  area : BitVec 16

namespace Sys2Proof.Claims
open Sys2Proof.Machine

/-- A check: when it fails, the cause of R438 and the detail of R441. -/
abbrev Check := Prop × Nat × Nat

/-- Alignment (R313, R441). -/
def aligned (ea w : Nat) : Check := (ea % w ≠ 0, 0x0008, ea % 2 ^ 40)
/-- Local bytes lie in claimed regions (R313, R441). -/
def claimed (s : State) (loc : Bool) (ea n : Nat) : Check :=
  (loc = true ∧ s.me.bnd.localOk ea n = false, 0x0007, 4 * 2 ^ 36 + ea % 2 ^ 23)
/-- A destination that names a bound galley (R450, R459). -/
def noGalley (s : State) (v : VReg) : Check := ((s.galley? v).isSome = true, 0x0006, 16 + v.toNat % 16)
/-- Store data without poison (R246, R441). -/
def cleanS (s : State) (n : SReg) : Check := ((s.rdS n).psn = true, 0x0005, n.toNat)
def cleanD (s : State) : SAReg → List Check
  | .s n => [cleanS s n]
  | .a _ => []
/-- Store data of a v register: without poison, or an entry of a galley that may be popped (R327, R450). -/
def dataV (s : State) (v : VReg) : List Check :=
  (s.galley? v = none ∧ (s.rdV v).psn = true, 0x0005, 2 ^ 9 + v.toNat) ::
    [2, 0, 5].map fun r => (popTrap s v = some r, 0x0006, r * 16 + v.toNat % 16)
/-- The gated store buffer has a place (R92, R455). -/
def bufferFree (s : State) : Check := (256 ≤ s.heldCount s.cur.cl.toNat s.cur.ctx.toNat, 0x0016, 0)
/-- The launch has a batching unit (R325). -/
def hasUnit (s : State) : Check := (s.me.bnd.cbu = none, 0x000F, 0)
/-- A return or reply area lies in a claimed PLAIN region (R329, R333). -/
def areaOk (s : State) (a n : Nat) : Check := (s.plainOk a n = false, 0x0007, 4 * 2 ^ 36 + a % 2 ^ 23)
/-- The elements of a gather or scatter (R319). -/
def elemsOk (s : State) (g : GAddr) (w : Nat) : List Check :=
  let at' (e : Nat) : Nat := ((s.rdA g.ab).toNat + e * (s.rdA g.sr).toNat) % 2 ^ 64
  ((List.range (128 / w)).map fun e => aligned (at' e) w) ++ (List.range (128 / w)).map fun e => claimed s g.loc (at' e) w
/-- A tile segment: its address, its tile's claim, its shape, its index (R166, R324, R441). -/
def segmentOk (s : State) (t : TAddr) : List Check :=
  let ea := farEa s t.ab 0
  let h := shapeOf (s.rdShape t.tile.toNat)
  [aligned ea 128, claimed s t.loc ea 128, (s.me.bnd.ctile ≤ t.tile.toNat, 0x0007, 2 ^ 36 + t.tile.toNat),
   (h.ok = false, 0x0009, t.tile.toNat * 2 ^ 32), match t.seg with
     | .band _ => (h.bs = false, 0x0009, t.tile.toNat * 2 ^ 32 + 5)
     | .data row seg => (h.rows ≤ row.toNat ∨ h.cols * h.w / 8 ≤ seg.toNat * 128, 0x000A, t.tile.toNat * 2 ^ 32 + row.toNat)]

/-- The instructions of the L and T slots with their checks, in order (R313, R319 to R333, R441, R459). -/
def memChecks (s : State) (o : MemOps) : List (Instr × List Check) :=
  let ea := farEa s o.a.ab o.a.off.toInt
  let es := farEa s o.ab o.off.toInt
  let e0 := farEa s o.ab 0
  let ef := farEa s o.fa.ab o.fa.off.toInt
  let sb := bufferFree s
  [(.ld o.d o.w o.sx o.a, [aligned ea o.w.bytes, claimed s o.a.loc ea o.w.bytes]),
   (.ldv o.v o.vw o.a, [aligned ea o.vw.bytes, claimed s o.a.loc ea o.vw.bytes, noGalley s o.v]),
   (.lds (.v o.v o.vw) o.a, [noGalley s o.v]),
   (.ldg o.v o.w o.g, elemsOk s o.g o.w.bytes ++ [noGalley s o.v]),
   (.ldx o.gal o.hint o.fa, [aligned ef 128, (s.galley? (galleyReg o.gal) = none, 0x0006, 3 * 16 + o.gal.toNat),
      (∃ n g, s.galley? (galleyReg o.gal) = some (n, g) ∧ g.kind ≠ .ldx, 0x0006, 4 * 16 + o.gal.toNat)]),
   (.lda o.d o.w o.scope o.ab o.cls o.mask, [aligned e0 o.w.bytes]),
   (.waitaddr o.ad o.aw o.ab o.tout o.cls, [aligned e0 o.aw.bytes]),
   (.ldt o.t, segmentOk s o.t),
   (.cbtake o.v o.cls, [hasUnit s, noGalley s o.v]),
   (.rfetch o.ss o.cls o.fa, [aligned ef 4])] ++
  [(.st o.d o.w o.a, [aligned ea o.w.bytes, claimed s o.a.loc ea o.w.bytes] ++ cleanD s o.d ++ [sb]),
   (.stv o.v o.vw o.a, [aligned ea o.vw.bytes, claimed s o.a.loc ea o.vw.bytes] ++ dataV s o.v ++ [sb]),
   (.sts o.v o.w o.idx o.a.loc o.ab o.off o.cls o.hint,
    [aligned es o.w.bytes, claimed s o.a.loc es o.w.bytes] ++ dataV s o.v ++ [sb]),
   (.stx o.v o.w o.g, elemsOk s o.g o.w.bytes ++ dataV s o.v ++ [sb]),
   (.strl o.d o.w o.scope o.ab o.cls o.mask, aligned e0 o.w.bytes :: cleanD s o.d ++ [sb]),
   (.stt o.t, segmentOk s o.t ++ [sb]),
   (.atom o.op o.aw o.ab o.ss o.cls o.hint none,
    [aligned e0 o.aw.bytes, cleanS s o.ss] ++ (if o.op = .cas then [cleanS s (o.ss + 1)] else []) ++ [sb]),
   (.atom o.op o.aw o.ab o.ss o.cls o.hint (some o.ret),
    [aligned e0 o.aw.bytes, areaOk s (8 * o.ret.toNat) o.aw.bytes, cleanS s o.ss] ++
      (if o.op = .cas then [cleanS s (o.ss + 1)] else []) ++ [sb]),
   (.red o.op o.aw o.ab o.ss o.cls o.hint, [aligned e0 o.aw.bytes, cleanS s o.ss, sb]),
   (.rflush o.cls o.fa, [aligned ef 4, sb]),
   (.cline o.cop o.cls o.fa, [aligned ef 256, sb]),
   (.cbdone o.ss, [hasUnit s, cleanS s o.ss, sb]),
   (.hmsg o.v o.ab o.cls none, dataV s o.v ++ [sb]),
   (.hmsg o.v o.ab o.cls (some (o.f, o.area)), areaOk s (64 * o.area.toNat) 64 :: dataV s o.v ++ [sb])]

end Sys2Proof.Claims

/-- R313, R319 to R333, R441, R450, R455, R456, R459: every instruction of the L and T slots takes the trap of its first check that
fails, in the order of R459: alignment, claim, data poisoned or a galley misused, a tile's shape or index, no batching unit, the
257th held write. The order of two checks of one cause is the model's choice (log 107). -/
def Sys2Proof.Claims.memTraps : Prop :=
  ∀ (s : Sys2Proof.Machine.State) (o : Sys2Proof.Claims.MemOps), ∀ e ∈ Sys2Proof.Claims.memChecks s o,
    ∀ pre c post, e.2 = pre ++ c :: post → (∀ x ∈ pre, ¬x.1) → c.1 →
    Sys2Proof.Machine.exec e.1 s = .next (s.trap (Sys2Proof.Claims.slotTrap s c.2.1 c.2.2))

/-- R313, R318: LDS of an s or v register takes neither the alignment nor the claim trap: it writes poison under its bound,
its value one that nothing fixes (log 4). -/
def Sys2Proof.Claims.loadSpeculates : Prop :=
  ∀ (s : Sys2Proof.Machine.State) (sd : Sys2Proof.SReg) (vd : Sys2Proof.VReg) (w : Sys2Proof.SW) (vw : Sys2Proof.VW)
      (sx : Bool) (a : Sys2Proof.MAddr),
    let ea := Sys2Proof.Claims.farEa s a.ab a.off.toInt
    (ea % w.bytes ≠ 0 ∨ (a.loc = true ∧ s.me.bnd.localOk ea w.bytes = false) → Sys2Proof.Claims.quiet s (.s sd) →
      ∃ v, Sys2Proof.Machine.exec (.lds (.s sd w sx) a) s =
        .next (Sys2Proof.Claims.later { s with free := s.free + 1 } (.s sd) v true 6)) ∧
    (ea % vw.bytes ≠ 0 ∨ (a.loc = true ∧ s.me.bnd.localOk ea vw.bytes = false) → s.galley? vd = none →
      Sys2Proof.Claims.quiet s (.v vd) →
      ∃ v, Sys2Proof.Machine.exec (.lds (.v vd vw) a) s =
        .next (Sys2Proof.Claims.later { s with free := s.free + 1 } (.v vd) v true 6))

/-- R313, R318 to R333, R441, R450, R455, R456, R459: the traps of every instruction of the L and T slots, and poison in place of
alignment and claim traps for LDS. The order of two checks of one cause is the model's choice (log 107). -/
def Obligations.AccessTraps : Prop := Sys2Proof.Claims.memTraps ∧ Sys2Proof.Claims.loadSpeculates

/-- R319: the gather and the scatter over local store complete: element e of LDG is the bytes at its base plus e times its
stride; each element of STX is held with its address and bytes. -/
def Obligations.GatherScatter : Prop :=
  ∀ (s : Sys2Proof.Machine.State) (v : Sys2Proof.VReg) (w : Sys2Proof.SW) (a : Sys2Proof.GAddr),
    let n := 128 / w.bytes
    let at' (e : Nat) : Nat := ((s.rdA a.ab).toNat + e * (s.rdA a.sr).toNat) % 2 ^ 64
    a.loc = true →
    (∀ e < n, at' e % w.bytes = 0 ∧ s.me.bnd.localOk (at' e) w.bytes = true) → s.galley? v = none →
    (Sys2Proof.Claims.quiet s (.v v) → Sys2Proof.Claims.nothingHeld s → Sys2Proof.Claims.intact s s.me.bnd.launch →
      (∀ e < n, s.serveLocal (at' e) w.bytes false = .here (s.physLocal (at' e)) ∧
        s.cc.rangeBusy 1 (s.physLocal (at' e)) (s.physLocal (at' e) + w.bytes) s.nextId true = false ∧
        s.locPoisoned s.cur.cl.toNat 1 (s.physLocal (at' e)) w.bytes = false) →
      ∃ x : Sys2Proof.VWord, ∃ t, Sys2Proof.Machine.exec (.ldg v w a) s = .next t ∧
        (∃ p ∈ t.me.pend, p.dst = .v v ∧ p.val = x ∧ p.psn = false ∧ p.due = some (s.cur.bno + 6) ∧ p.ready = true) ∧
        (∀ e < n, (Sys2Proof.Machine.elemAt (8 * w.bytes) x e).toNat =
          Sys2Proof.Machine.ofBytes ((List.range w.bytes).map fun i => s.cc.locByte (s.physLocal (at' e) + i))) ∧
        Sys2Proof.Claims.nothingStored s t) ∧
    ((s.rdV v).psn = false → s.heldCount s.cur.cl.toNat s.cur.ctx.toNat < 256 →
      (∀ e < n, s.storeWait (at' e) w.bytes true = .go) →
      ∃ t, Sys2Proof.Machine.exec (.stx v w a) s = .next t ∧ Sys2Proof.Claims.nothingStored s t ∧
      ∀ e < n, ∃ x ∈ t.accs, Sys2Proof.Claims.mine s x ∧ x.st = .held ∧ x.op = .store ∧
        x.va = Sys2Proof.Claims.storeVa s true (at' e) ∧
        x.data = Sys2Proof.Claims.dataBytes w.bytes (Sys2Proof.Claims.el s v (8 * w.bytes) e))

/-- R188, R322, R323, R331: PREF enters an access that writes no register; WAITADDR leaves its context waiting on a watch; FENCE
releases the held writes, enters an ordering point of its scope and classes and sets NR, and its blocking form waits. -/
def Obligations.WatchesAndFences : Prop :=
  ∀ (s : Sys2Proof.Machine.State) (cls : Sys2Proof.Cls) (hint : Sys2Proof.Hint) (a : Sys2Proof.FAddr) (ad ab : Sys2Proof.AReg)
      (w : Sys2Proof.AW) (tout : BitVec 7) (b : Bool) (scope : Sys2Proof.Scope) (mask : BitVec 16),
    (Sys2Proof.Claims.stashOr s (Sys2Proof.Claims.farEa s a.ab a.off.toInt) .read →
      ∃ t x, Sys2Proof.Machine.exec (.pref cls hint a) s = .next t ∧ x ∈ t.accs ∧ Sys2Proof.Claims.mine s x ∧ x.op = .pref ∧
        x.va = Sys2Proof.Claims.farEa s a.ab a.off.toInt ∧ t.me.pend = s.me.pend ∧ Sys2Proof.Claims.nothingStored s t) ∧
    (Sys2Proof.Claims.farEa s ab 0 % w.bytes = 0 → s.requestsFree 1 = true → s.me.wait = .none →
      s.stashMiss (Sys2Proof.Claims.farEa s ab 0) false = none →
      Sys2Proof.Claims.stashOr s (Sys2Proof.Claims.farEa s ab 0) .read →
      ∃ t x, Sys2Proof.Machine.exec (.waitaddr ad w ab tout cls) s = .next t ∧ x ∈ t.accs ∧ Sys2Proof.Claims.mine s x ∧
        x.va = Sys2Proof.Claims.farEa s ab 0 ∧ x.len = w.bytes ∧ x.dst = .watch ad (s.timer + 1024 * tout.toNat) ∧
        t.me.wait = .watch x.id ∧ Sys2Proof.Claims.nothingStored s t) ∧
    (Sys2Proof.Claims.mayRelease s false → s.me.wait = .none →
      ∃ t x, Sys2Proof.Machine.exec (.fence b scope mask) s = .next t ∧ t.me.nr = true ∧ x ∈ t.accs ∧ x.op = .fence ∧
        x.rel = some (scope.code, mask) ∧ t.me.wait = (if b = true then .fence x.id else .none) ∧
        (∀ y ∈ t.accs, y.heldBy s.cur.cl.toNat s.cur.ctx.toNat = false) ∧ t.me.regs = s.me.regs ∧ t.mem = s.mem)

/-- R141, R143, R221, R320, R325, R333: LDX into a bound LDX galley enters its access and an entry still to be filled; CBTAKE and
CBDONE of a launch with a unit enter their request and their report; HMSG, with a reply area or without, holds its
64 bytes and its reply token for the home of its line. -/
def Obligations.MessagesAndEntries : Prop :=
  ∀ (s : Sys2Proof.Machine.State) (g : Sys2Proof.GalleyNo) (hint : Sys2Proof.Hint) (a : Sys2Proof.FAddr) (vd : Sys2Proof.VReg)
      (cls : Sys2Proof.Cls) (ss : Sys2Proof.SReg) (ab : Sys2Proof.AReg) (gp : Nat) (x : Sys2Proof.Machine.Galley) (u : Nat)
      (rpl : Option (Sys2Proof.FReg × BitVec 16)),
    (s.galley? (Sys2Proof.Machine.galleyReg g) = some (gp, x) → x.kind = .ldx → x.q.length < 8 →
      s.requestsFree 1 = true → Sys2Proof.Claims.farEa s a.ab a.off.toInt % 128 = 0 →
      s.stashMiss (Sys2Proof.Claims.farEa s a.ab a.off.toInt) true = none →
      Sys2Proof.Claims.stashOr s (Sys2Proof.Claims.farEa s a.ab a.off.toInt) .read →
      ∃ t y, Sys2Proof.Machine.exec (.ldx g hint a) s = .next t ∧ t.me.nr = true ∧ y ∈ t.accs ∧ y.len = 128 ∧
        y.va = Sys2Proof.Claims.farEa s a.ab a.off.toInt ∧ y.dst = .galley gp s.nextId ∧
        t.cc.galleys.lookup gp = some { x with q := x.q ++ [(s.nextId, none)] } ∧ t.mem = s.mem) ∧
    (s.me.bnd.cbu = some u → s.galley? vd = none → s.requestsFree 1 = true →
      ∃ t y, Sys2Proof.Machine.exec (.cbtake vd cls) s = .next t ∧ t.me.nr = true ∧ y ∈ t.accs ∧ y.op = .cbtake ∧
        y.dst = .v vd ∧ (∃ r ∈ (t.unit u).takes, r.access = y.id) ∧ t.mem = s.mem ∧ t.me.regs = s.me.regs) ∧
    (s.me.bnd.cbu = some u → (s.rdS ss).psn = false → s.heldCount s.cur.cl.toNat s.cur.ctx.toNat < 256 →
      ∃ t y, Sys2Proof.Machine.exec (.cbdone ss) s = .next t ∧ t.me.nr = true ∧ y ∈ t.accs ∧ y.st = .held ∧
        y.op = .cbdone ((s.rdS ss).val.setWidth 32) ∧ t.mem = s.mem ∧ t.me.regs = s.me.regs) ∧
    (Sys2Proof.Claims.plainV s vd → s.heldCount s.cur.cl.toNat s.cur.ctx.toNat < 256 →
      (∀ p, rpl = some p → s.plainOk (64 * p.2.toNat) 64 = true) →
      Sys2Proof.Claims.translates s (Sys2Proof.Claims.farEa s ab 0) .read →
      ∃ t y, Sys2Proof.Machine.exec (.hmsg vd ab cls rpl) s = .next t ∧ y ∈ t.accs ∧ y.st = .held ∧
        y.op = .hmsg (match rpl with
          | none => 0
          | some p => .ofNat 64 (2 ^ 63 + s.cur.cl.toNat * 2 ^ 54 + s.cur.ctx.toNat * 2 ^ 52 + s.me.bnd.gen.toNat * 2 ^ 36 +
              p.1.toNat * 2 ^ 30 + p.2.toNat * 64)) ∧
        y.va = Sys2Proof.Claims.farEa s ab 0 ∧
        y.data = Sys2Proof.Claims.dataBytes 64 (s.rdV vd).val.toNat ∧ Sys2Proof.Claims.nothingStored s t)

/-- R324: LDT whose 128 bytes are at hand in the cluster puts those of its row segment into the tile at once, and changes
nothing else but that poison marks of what it writes whole are cleared; from beyond the cluster, or behind an earlier access
to the bytes, it completes its issue: its access to 128 bytes is entered, and a write entry holds its tile bytes until they
come. STT completes its issue, from local or far addresses: it holds the tile's bytes of the segment, read at issue, zero
beyond the row's end. -/
def Obligations.TileSegments : Prop :=
  ∀ (s : Sys2Proof.Machine.State) (a : Sys2Proof.TAddr),
    let ea := Sys2Proof.Claims.farEa s a.ab 0
    let h := Sys2Proof.Machine.shapeOf (s.rdShape a.tile.toNat)
    let off := (Sys2Proof.Machine.segBytes h a.seg).1
    let len := (Sys2Proof.Machine.segBytes h a.seg).2
    let lo := s.physTile a.tile.toNat * 0xA000 + off
    s.tsegCheck a = none →
    (s.cc.rangeBusy 2 lo (lo + len) s.nextId false = false →
      (∀ p, Sys2Proof.Claims.serveOf s a.loc ea 128 a.hint a.cls = .here p → Sys2Proof.Claims.nothingHeld s →
        Sys2Proof.Claims.intact s s.me.bnd.launch → s.cc.rangeBusy 1 p (p + 128) s.nextId true = false → s.locPoisoned s.cur.cl.toNat 1 p 128 = false →
        Sys2Proof.Machine.exec (.ldt a) s = .next ((s.modCc fun c => c.tileWrite lo
          (((List.range 128).map fun i => s.cc.locByte (p + i)).take len)).clearLoc s.cur.cl.toNat 2 lo len)) ∧
      (Sys2Proof.Claims.serveOf s a.loc ea 128 a.hint a.cls = .far → s.requestsFree 1 = true → s.cc.rsbFree 1 = true →
        (a.loc = false → Sys2Proof.Claims.stashOr s ea .read) →
        ∃ t x, Sys2Proof.Machine.exec (.ldt a) s = .next t ∧ x ∈ t.accs ∧ Sys2Proof.Claims.mine s x ∧ x.op = .load ∧
          x.va = Sys2Proof.Claims.storeVa s a.loc ea ∧ x.len = 128 ∧ x.dst = .tile (s.physTile a.tile.toNat) off len ∧ t.me.regs = s.me.regs ∧
          t.cc.tiles = s.cc.tiles ∧ t.cc.regions = s.cc.regions ∧ t.slices = s.slices ∧ t.mem = s.mem ∧ t.hostMem = s.hostMem ∧
          ∃ e ∈ t.cc.rsb, e.who = x.id ∧ e.write = true ∧ e.space = 2 ∧ e.lo ≤ lo ∧ lo + len ≤ e.hi)) ∧
    (s.heldCount s.cur.cl.toNat s.cur.ctx.toNat < 256 → s.cc.rangeBusy 2 lo (lo + len) s.nextId true = false →
      s.storeWait ea 128 a.loc = .go → (a.loc = false → Sys2Proof.Claims.stashOr s ea .write) →
      ∃ t x, Sys2Proof.Machine.exec (.stt a) s = .next t ∧ x ∈ t.accs ∧ Sys2Proof.Claims.mine s x ∧ x.st = .held ∧
        x.op = .store ∧ x.va = Sys2Proof.Claims.storeVa s a.loc ea ∧ (a.loc = true → x.tr = .ok (s.physLocal ea) 3) ∧
        x.data = s.cc.tileRead lo len ++ List.replicate (128 - len) 0 ∧ Sys2Proof.Claims.nothingStored s t)

namespace Sys2Proof.Claims
open Sys2Proof.Machine

/-! ## The C slot (R335 to R349) -/

/-- The machine with one more job in its cluster's copy engine, last in its queue. -/
def hasJob (s t : State) (op : CopyOp) (cls : Nat) (flag : Option FReg) (desc : List Word) : Prop :=
  ∃ y, t.cc.copies = s.cc.copies ++ [y] ∧ y.op = op ∧ y.cls = cls ∧ y.flag = flag ∧ y.desc = desc ∧
    y.ctx = s.cur.ctx.toNat ∧ y.bnd = s.me.bnd ∧ y.st = .queued

/-- What a C-slot instruction leaves as it was at its issue: memory, slices, accesses, tiles and regions, and the registers but
the copy descriptors. -/
def onlyQueued (s t : State) : Prop :=
  t.mem = s.mem ∧ t.memFill = s.memFill ∧ t.slices = s.slices ∧ t.accs = s.accs ∧ t.me.regs.s = s.me.regs.s ∧
    t.me.regs.a = s.me.regs.a ∧ t.me.regs.k = s.me.regs.k ∧ t.me.regs.p = s.me.regs.p ∧ t.me.regs.f = s.me.regs.f ∧
    t.cc.tiles = s.cc.tiles ∧ t.cc.regions = s.cc.regions ∧ t.cur = s.cur

/-- The descriptor that the instruction reads: the live copy, or with SWAP the shadow (R335). -/
def readDesc (s : State) (sw : Bool) (hc : BitVec 2) : List Word :=
  (List.range 8).map fun w => sget 0 (if sw = true then s.view.regs.hcSh else s.view.regs.hc) (8 * hc.toNat + w)

/-- With SWAP shadow and live copies of the descriptor are exchanged; without it every copy stays (R335). -/
def exchanged (s t : State) (sw : Bool) (hc : BitVec 2) : Prop :=
  (sw = false → t.me.regs.hc = s.me.regs.hc ∧ t.me.regs.hcSh = s.me.regs.hcSh) ∧
  (sw = true → ∀ w < 8, sget 0 t.me.regs.hc (8 * hc.toNat + w) = sget 0 s.view.regs.hcSh (8 * hc.toNat + w) ∧
    sget 0 t.me.regs.hcSh (8 * hc.toNat + w) = sget 0 s.view.regs.hc (8 * hc.toNat + w))

end Sys2Proof.Claims

/-- R335 to R342: CPY, CPYC, CPYT and CPYE complete when their checks hold and the engine and the scoreboard have room: the job,
with its descriptor, class and flag, stands last in the engine's queue, NR is set, and with SWAP the descriptor's shadow and
live copies are exchanged; no byte moves at issue, and no other register changes. -/
def Obligations.CopiesQueue : Prop :=
  ∀ (s : Sys2Proof.Machine.State) (a : Sys2Proof.CpyArgs),
    ∀ (i : Sys2Proof.Instr) (n : Sys2Proof.Machine.CpyKind) (op : Sys2Proof.Machine.CopyOp),
      (i, n, op) ∈ [(Sys2Proof.Instr.cpy a, Sys2Proof.Machine.CpyKind.cpy, Sys2Proof.Machine.CopyOp.cpy),
        (.cpyc a, .cpyc, .cpyc), (.cpyt a, .cpyt, .cpyt), (.cpye a, .cpye, .cpye)] →
      Sys2Proof.Machine.cpyCheck n a s = none → Sys2Proof.Machine.cpyStall n a s = false →
      ∃ t, Sys2Proof.Machine.exec i s = .next t ∧ t.me.nr = true ∧
        Sys2Proof.Claims.hasJob s t op a.cls.toNat a.flag (Sys2Proof.Claims.readDesc s a.sw a.hc) ∧
        Sys2Proof.Claims.onlyQueued s t ∧ t.me.regs.v = s.me.regs.v ∧ Sys2Proof.Claims.exchanged s t a.sw a.hc

/-- R335, R343 to R347, R349: UNBIND, BIND, RESHAPE, STASH, CWB and RWIN complete when their checks hold and the engine has room:
the job is queued and NR is set, and with SWAP the descriptor's copies are exchanged. BIND binds its galley at once, with
the galley that was bound there, if any, left to its job to unbind; UNBIND removes its galley at once. CQRY writes whether
none of the context's jobs of the classes that it names is left. -/
def Obligations.EngineQueue : Prop :=
  ∀ (s : Sys2Proof.Machine.State) (sw keep : Bool) (g : Sys2Proof.GalleyNo) (r : Sys2Proof.RegionNo) (hc : BitVec 2)
      (kind : Sys2Proof.BindKind) (cls : Sys2Proof.Cls) (hint : Sys2Proof.Hint) (mode : Sys2Proof.RegMode)
      (flag : Option Sys2Proof.FReg) (len : BitVec 25) (wid : BitVec 2) (f : Sys2Proof.FReg) (mask : BitVec 16),
    let was := s.cc.galleys.lookup (s.physGalley g)
    let d := Sys2Proof.Claims.readDesc s sw hc
    (s.queueFull = false →
      (g.toNat < s.me.bnd.cgal → ∃ t, Sys2Proof.Machine.exec (.unbind g flag) s = .next t ∧ t.me.nr = true ∧
        t.cc.galleys.lookup (s.physGalley g) = none ∧
        Sys2Proof.Claims.hasJob s t (.unbind was) ((was.map Sys2Proof.Machine.Galley.cls).getD 0) flag [] ∧
        Sys2Proof.Claims.onlyQueued s t ∧ Sys2Proof.Claims.exchanged s t false hc) ∧
      (Sys2Proof.Machine.bindCheck sw kind g hc s = none →
        ∃ t x, Sys2Proof.Machine.exec (.bind sw kind g hc cls hint) s = .next t ∧ t.me.nr = true ∧
          t.cc.galleys.lookup (s.physGalley g) = some x ∧ x.kind = kind ∧ x.cls = cls.toNat ∧ x.hint = hint ∧ x.q = [] ∧
          x.pos = 0 ∧ x.pat = Sys2Proof.Machine.bindPattern kind d ∧ x.ctx = s.cur.ctx.toNat ∧
          (∃ y, t.cc.copies = s.cc.copies ++ [y] ∧ y.op = .bind was ∧ y.ctx = s.cur.ctx.toNat) ∧
          Sys2Proof.Claims.onlyQueued s t ∧ Sys2Proof.Claims.exchanged s t sw hc) ∧
      (r.toNat < s.me.bnd.creg → s.cc.rsbFree 1 = true → ∃ t, Sys2Proof.Machine.exec (.reshape mode r cls flag) s = .next t ∧
        t.me.nr = true ∧ Sys2Proof.Claims.hasJob s t (.reshape (s.physRegion r.toNat) mode) cls.toNat flag [] ∧
        Sys2Proof.Claims.onlyQueued s t ∧ t.me.regs = s.me.regs) ∧
      (Sys2Proof.Machine.stashCheck sw r hc s = none → ∃ t, Sys2Proof.Machine.exec (.stash sw r hc hint flag) s = .next t ∧
        t.me.nr = true ∧
        Sys2Proof.Claims.hasJob s t (.stash (s.physRegion r.toNat) (d.headD 0).toNat) 0 flag d ∧
        Sys2Proof.Claims.onlyQueued s t ∧ Sys2Proof.Claims.exchanged s t sw hc) ∧
      (r.toNat < s.me.bnd.creg → ∃ t, Sys2Proof.Machine.exec (.cwb keep r cls flag) s = .next t ∧ t.me.nr = true ∧
        Sys2Proof.Claims.hasJob s t (.cwb (s.physRegion r.toNat) keep) cls.toNat flag [] ∧ Sys2Proof.Claims.onlyQueued s t ∧
        t.me.regs = s.me.regs) ∧
      ∃ t, Sys2Proof.Machine.exec (.rwin sw hc len wid flag) s = .next t ∧ t.me.nr = true ∧
        Sys2Proof.Claims.hasJob s t (.rwin len.toNat wid.toNat) 0 flag d ∧ Sys2Proof.Claims.onlyQueued s t ∧
        Sys2Proof.Claims.exchanged s t sw hc) ∧
    ∃ b : Bool, (∃ t, Sys2Proof.Machine.exec (.cqry f mask) s = .next t ∧ Sys2Proof.Claims.flagWritten s t f b) ∧
      (b = true ↔ ∀ y ∈ s.cc.copies, y.ctx = s.cur.ctx.toNat → y.op.queried = true →
        mask ≠ 0 ∧ mask.getLsbD y.cls = false)

namespace Sys2Proof.Claims
open Sys2Proof.Machine

/-! ## Events -/

/-- The rule of an event: what holds before, and what the next state then holds. -/
abbrev EventRule := Instr × Prop × (State → Prop)

/-- Every event of the rules completes wherever its premise holds, with its effect. -/
def eventsHold (s : State) (rules : List EventRule) : Prop :=
  ∀ e ∈ rules, e.2.1 → ∃ t, exec e.1 s = .next t ∧ e.2.2 t

/-- No byte of device or host memory changes at the channels or in the host. -/
def memSame (s t : State) : Prop := t.mem = s.mem ∧ t.memFill = s.memFill ∧ t.hostMem = s.hostMem

/-- Nothing changes but the forme die, what is due, and the counters of ids and free values. -/
def calm (s t : State) : Prop :=
  memSame s t ∧ t.ctxs = s.ctxs ∧ t.clusters = s.clusters ∧ t.slices = s.slices ∧ t.accs = s.accs ∧ t.chips = s.chips ∧
    t.slots = s.slots ∧ t.cur = s.cur ∧ t.cycle = s.cycle

/-- Nothing changes but the clusters, what is due, and the counters. -/
def calmCluster (s t : State) : Prop :=
  memSame s t ∧ t.ctxs = s.ctxs ∧ t.slices = s.slices ∧ t.accs = s.accs ∧ t.forme = s.forme

/-- A move is due. -/
def isDue (t : State) (i : Instr) : Prop := Move.act i ∈ t.agenda

/-- Does a region hold no granule, and no CACHE line of a granule, that covers a line (R164)? -/
def lineFree (s : State) (r : Region) (line : Nat) : Prop :=
  (∀ g ∈ r.gran, s.granHolds g line = false) ∧ ∀ l ∈ r.lines, s.granHas l.gran line = false

/-- No region of any cluster holds a copy of a line. -/
def heldNowhere (s : State) (line : Nat) : Prop := ∀ e ∈ s.otherRegions none, lineFree s ((s.cluster e.1).region e.2) line

/-- No region of any cluster holds a copy of a line of n bytes at a physical address, and an agent outside the clusters may
reach them (R163, R181, R220). -/
def openTo (s : State) (pa n : Nat) : Prop := s.agentFree pa n = true ∧ ∀ l ∈ s.linesOf pa n, heldNowhere s l

/-- Nothing changes but the forme die, the places of lines in their sets, what is due, and the counters. -/
def calmHome (s t : State) : Prop :=
  memSame s t ∧ t.ctxs = s.ctxs ∧ t.clusters = s.clusters ∧ t.accs = s.accs ∧ t.chips = s.chips ∧ t.slots = s.slots ∧
    t.cur = s.cur ∧ t.cycle = s.cycle ∧ ∀ lin, t.homeByte lin = s.homeByte lin

/-! ## Events of the contexts (R84 to R88, R99, R101 to R104, R126, R127, R323, R453, R474) -/

/-- May context d of cluster K be selected: it is READY, and no context that its YIELD waits for is (R127, R280)? -/
abbrev mayPick (s : State) (K d : Nat) : Prop :=
  (s.ctx K d).st = .ready ∧ ∀ e ∈ (s.ctx K d).aside, (s.ctx K e.toNat).st ≠ .ready

/-- Context c is the first that may be selected, in the order after the one selected last (R127). -/
abbrev nextInTurn (s : State) (K c : Nat) : Prop :=
  ∃ i < 4, c = ((s.cluster K).last.toNat + 1 + i) % 4 ∧ mayPick s K c ∧
    ∀ j < i, ¬ mayPick s K (((s.cluster K).last.toNat + 1 + j) % 4)

/-- The machine with context c of cluster K READY again (R126). -/
def readied (s : State) (K c : Nat) : State := s.modCtx K c fun x => { x with st := .ready, wait := .none }

/-- A context waits on: nothing changes but the note that its energy window holds an SGO of the cluster back (R433). -/
def waitsStill (now t : State) (K : Nat) : Prop := t = now ∨ t = now.modCluster K fun y => { y with eheld := true }

/-- A selected bundle issues: its enabled slots are in issue, in their order, and its context has counted it. -/
def issued (s2 t : State) (b : Bundle) (todo : List SlotNo) : Prop :=
  t.slots = todo.map b.slot ∧ t.slotNos = todo ∧ t.cur.live = true ∧ t.me.bundle = s2.me.bundle + 1

/-- BOVR and EOVR of a block over its D (R453). -/
def overrunBits (x : Ctx) : Word := if x.blk.count - x.blk.stalls ≤ x.blk.d then 6 else 2

/-- Is BOVR to be taken as a fault: BOVRT set, BOVR not yet? -/
abbrev overrunTaken (x : Ctx) : Prop := x.tvec.getLsbD 0 = true ∧ x.tvec.getLsbD 1 = false

/-- A stopped context with the planes noted that own a nest at its stop, and its nests told to stop again (R102, R363). -/
def saving (s : State) (k c : Nat) : State :=
  (s.modCtx k c fun y => { y with nestsAt := some (y.nestsAt.getD (s.ownedPlanes k c)) }).modCluster k fun y => y.stopNests c false

def contextEvents (s : State) (k : ClusterNo) (c : CtxNo) (f : FReg) (l : Launch) (s2 s3 : State) (b : Bundle)
    (todo : List SlotNo) (a : Access) (r : AReg) (T : Nat) : Prop :=
  let K := k.toNat
  let C := c.toNat
  let x := s.ctx K C
  let now := s.nextCycle K
  let awake := now.wakeAll K
  let run := K < s.nclus
  eventsHold s <| [(.contextSelection k, s.maySelect K = true ∧ (∀ d < 4, (awake.ctx K d).st ≠ .ready), fun t => t = awake),
   (.contextSelection k, s.maySelect K = true ∧ nextInTurn awake K C, fun t => t = awake.select K C),
   (.contextSelection k, s.maySelect K = true ∧ nextInTurn awake K C ∧ (awake.selected K C).tryCtx K C = .ready s2 b todo ∧
      todo ≠ [] ∧ s2.me.rest = [] ∧ s2.me.held = [] ∧ s2.cc.grantStall b.hdr.ew.toNat = false ∧ s2.cc.droop = false,
    fun t => issued s2 t b todo),
   (.blockStart k c, s.maySelect K = true ∧ x.wait = .blk ∧ x.st = .blocked ∧ now.unstalled K C = false,
    fun t => waitsStill now t K),
   (.blockStart k c, s.maySelect K = true ∧ x.wait = .blk ∧ x.st = .blocked ∧ now.unstalled K C = true ∧
      nextInTurn (readied now K C) K C, fun t => t = (readied now K C).select K C),
   (.waitReissue k c, s.maySelect K = true ∧ (x.wait = .flags ∨ x.wait = .waitp) ∧ x.st = .blocked ∧
      now.unstalled K C = false, fun t => waitsStill now t K),
   (.waitReissue k c, s.maySelect K = true ∧ (x.wait = .flags ∨ x.wait = .waitp) ∧ x.st = .blocked ∧
      now.unstalled K C = true ∧ nextInTurn (readied now K C) K C, fun t => t = (readied now K C).select K C)] ++
  [(.blockOverrun k c, run ∧ x.blk.on = true ∧ x.blk.past = false ∧ x.blk.d < x.blk.count ∧ x.defer.length < 8 ∧ x.wait ≠ .exit,
    fun t => let y := t.ctx K C
      y.blk.past = true ∧ y.tvec = x.tvec ||| overrunBits x ∧ y.regs = x.regs ∧ memSame s t ∧
        (¬ overrunTaken x → y.defer = x.defer) ∧
        (overrunTaken x → ∃ d, y.defer = x.defer ++ [d] ∧ d.isBovr = true ∧ d.dest = true)),
   (.flagSetByAgent k c f, run ∧ x.bnd.launch ≠ 0,
    fun t => (t.ctx K C).regs.f.getLsbD f.toNat = true ∧
      ∃ fs : BitVec 64, fs.getLsbD f.toNat = true ∧
        t = s.modCtx K C fun y => { y with regs := { y.regs with f := setBit y.regs.f f.toNat true }, fset := fs, fsetAt := s.cycle + 1 }),
   (.preemptStopAtWait k c, run ∧ x.preempt = true ∧ x.st = .blocked ∧ x.wait.isStop = true ∧ x.nr = false ∧ x.trapm = false ∧
      x.tret = false ∧ (∀ b, s.barOf K C = some b → s.barDone b = false) ∧ s.slots = [],
    fun t => let y := t.ctx K C
      y.st = .saving ∧ y.srsn = 1 ∧ y.preempt = false ∧ y.stopWait = true ∧ y.regs = x.shadow ∧ y.pc = x.rpc ∧ y.mpc = x.rmpc ∧
        y.pend = [] ∧ (∀ a ∈ t.accs, a.heldBy K C = false) ∧ memSame s t),
   (.preemptStopAtWait k c, run ∧ (x.nr = true ∨ x.trapm = true ∨ x.tret = true), fun t => t = s),
   (.saveRecordWritten k c, run ∧ x.st = .saving ∧ s.injects K = true ∧ s.launch? (x.bnd.launch - 1) = some l ∧ l.faulted = none ∧
      (x.srsn = 1 → s.corHolds l = false) ∧ (saving s K C).saveReady K C = true ∧
      (saving s K C).spanFree l.asid (l.recordAt x.bnd.group) l.savstride = true ∧ (saving s K C).saveDrain K C = some s3 ∧
      ((s3.deliverAtoms K C 0xFFFF).markOwed K C).writeRecord l K C (s3.ctx K C).srsn = some s2 ∧
      (s3.ctx K C).srsn = x.srsn,
    fun t => t = (s2.groupLeft K C (if x.srsn = 2 then .exited else .saved K)).soon [.launchRetirement l.id] ∧
      (t.ctx K C).st = .free ∧ ∀ m ∈ t.forme.launches, m.id = (s2.ctx K C).bnd.launch - 1 →
        sget .unbound m.groups (s2.ctx K C).bnd.group = if x.srsn = 2 then .exited else .saved K)] ++
  [-- A COR launch's members hold until the last has stopped (R101).
   (.saveRecordWritten k c, run ∧ s.injects K = false, fun t => t = s),
   (.saveRecordWritten k c, run ∧ x.st = .saving ∧ s.launch? (x.bnd.launch - 1) = some l ∧ l.faulted = none ∧ x.srsn = 1 ∧
      s.corHolds l = true, fun t => (t.ctx K C).st = .saving ∧ (t.ctx K C).regs = x.regs ∧ memSame s t ∧ t.accs = s.accs),
   (.leadRestart k c, run ∧ x.st = .blocked ∧ x.wait = .dbarRestart T ∧ T ≤ s.cycle, fun t => t = readied s K C),
   (.leadRestart k c, run ∧ x.st = .blocked ∧ x.wait = .dbarRestart T ∧ s.cycle < T, fun t => t = s),
   (.waitaddrWake k c, run ∧ s.watchOf K C = some a ∧ a.st = .home ∧ a.op = .load ∧ a.eng = 0 ∧ s.watchFree a = true ∧
      s.watched a ≠ a.data,
    fun t => isDue t (.farLoadReturn a.id) ∧ (∃ y ∈ t.accs, y.id = a.id ∧ y.st = .performed ∧ y.data = s.watched a) ∧
      memSame s t ∧ t.ctxs = s.ctxs),
   (.waitaddrWake k c, run ∧ s.watchOf K C = some a ∧ (a.st = .home → s.watchFree a = true ∧ s.watched a = a.data), fun t => t = s),
   (.waitaddrTimeout k c, run ∧ s.watchOf K C = some a ∧ a.st = .home ∧ a.op = .load ∧ a.eng = 0 ∧ a.dst = .watch r T ∧
      T ≤ s.timer ∧ s.watchFree a = true,
    fun t => isDue t (.farLoadReturn a.id) ∧ (∃ y ∈ t.accs, y.id = a.id ∧ y.st = .performed ∧ y.data = s.watched a) ∧
      memSame s t ∧ t.ctxs = s.ctxs),
   (.waitaddrTimeout k c, run ∧ s.watchOf K C = some a ∧ a.dst = .watch r T ∧ s.timer < T, fun t => t = s),
   (.faultStopTimeout k c, run ∧ x.bnd.launch ≠ 0 ∧ x.st ≠ .free ∧ s.launch? (x.bnd.launch - 1) = some l ∧
      l.faulted = some T ∧ T + 2 ^ 24 ≤ s.cycle ∧ s.slots = [],
    fun t => (t.ctx K C).st = .free ∧ isDue t (.launchRetirement l.id) ∧
      ∀ a ∈ t.accs, ¬ (a.heldBy K C = true ∧ a.ofGroup x.bnd = true)),
   (.faultStopTimeout k c, run ∧ s.launch? (x.bnd.launch - 1) = some l ∧ l.faulted = some T ∧ s.cycle < T + 2 ^ 24,
    fun t => t = s)]

/-! ## Barriers, POSTs and span messages (R96 to R99, R277, R380 to R387, R473, R475, R486) -/

/-- Latency from the last arrival to the release cycle T (R99). -/
def releaseLatency (lvl : Nat) : Nat :=
  if lvl = 1 then 8 else if lvl = 2 then 16 else if lvl = 3 then 32 else 64

/-- A member of an instance of level 1 to 4 is released with the offset of its rank when its DBAR has LEAD (R96, R99). -/
def leadOffset (s : State) (r : Barrier) (g k c : Nat) (lead : Bool) : Nat :=
  if lead = true then (s.ctx k c).regs.lead.toNat * ((r.members.filter fun m => m < g).length % 16) else 0

/-- The barrier instances of the span launch on the module (R386). -/
def spanLine (s : State) (r : Barrier) : Bool :=
  r.lvl == 5 && s.forme.launches.any fun l => l.id == r.launch && l.dom == 5 && l.everRun

/-- The instance has been high since an earlier cycle: no withdrawal came in that of its last arrival (R98). -/
def highSince (s : State) (n : Nat) (r : Barrier) : Prop :=
  s.forme.bars[n]? = some r ∧ s.barHigh r = true ∧ 0 < r.high ∧ r.high ≤ s.cycle

/-- LEADPOS is written as a result with bound 1 of the member's next bundle (R278). -/
def leadDue (x y : Ctx) (off : Nat) : Prop :=
  ∃ p ∈ y.pend, p.dst = .leadpos ∧ p.val = .ofNat 1024 off ∧ p.due = some (x.bundle + 2) ∧ p.ready = true

def barrierEvents (s : State) (n : Nat) (r : Barrier) (g k c : Nat) (lead : Bool) (p : PostReq) (q : SendReq) (bs : List Byte)
    (m : SpanMsg) (a : Access) (i : BitVec 3) : Prop :=
  eventsHold s <| [(.barrierRelease n, highSince s n r ∧ r.lvl < 5 ∧ g ∈ r.members ∧
      s.groupSt (r.launch + 1) g = .bound k c ∧ c < 4 ∧ (s.ctx k c).wait = .dbarArrived r.lvl lead ∧
      (∀ p ∈ (s.ctx k c).pend, p.dst ≠ .creg 0x021) ∧
      (∀ h ∈ r.members, ∀ k' c', s.groupSt (r.launch + 1) h = .bound k' c' → h = g ∨ 4 * k' + c' ≠ 4 * k + c),
    fun t => let y := t.ctx k c
      y.wait = .dbarRestart (r.high - 1 + releaseLatency r.lvl + leadOffset s r g k c lead) ∧ y.nr = true ∧
        leadDue (s.ctx k c) y (leadOffset s r g k c lead) ∧ (t.forme.bars[n]?).map (·.arrived) = some [] ∧ memSame s t),
   (.barrierRelease n, s.forme.bars[n]? = some r ∧ s.barHigh r = true ∧ r.high = 0,
    fun t => calm s t ∧ t.forme.bars = s.forme.bars.set n { r with high := s.cycle + 1 }),
   (.barrierRelease n, s.forme.bars[n]? = some r ∧ s.barHigh r = false,
    fun t => calm s t ∧ t.forme.bars = s.forme.bars.set n { r with high := 0 }),
   (.barrierRelease n, highSince s n r ∧ r.lvl = 5 ∧ s.spanHigh r = false,
    fun t => calm s t ∧ t.forme.bars[n]? = some { r with sent := true }),
   (.barrierRelease n, highSince s n r ∧ r.lvl = 5 ∧ s.spanHigh r = true,
    fun t => (t.forme.bars[n]?).map (·.arrived) = some [] ∧ memSame s t),
   (.spanBarrierMessage n, n % 4096 ∈ s.otherMods,
    fun t => calm s t ∧ t.forme.bars = s.forme.bars.map fun r =>
      if spanLine s r = true then { r with recvd := r.recvd ++ [(n % 4096, n / 4096)] } else r),
   (.barrierTimeout n, s.forme.bars[n]? = some r ∧ r.arrived ≠ [] ∧ r.since + 2 ^ 32 ≤ s.timer,
    fun t => isDue t (.launchFault r.launch) ∧ (t.forme.bars[n]?).map (·.arrived) = some []),
   (.barrierTimeout n, s.forme.bars[n]? = some r ∧ s.timer < r.since + 2 ^ 32, fun t => t = s)] ++
  [(.postFlagDelivery n, (s.forme.posts.find? fun z => z.id == n) = some p ∧ s.injects p.cl = false, fun t => t = s),
   (.postFlagDelivery n, (s.forme.posts.find? fun z => z.id == n) = some p ∧ s.injects p.cl = true ∧ s.allPerformed p.cl p.ctx n (groupBinding p.launch p.group p.gen) 3 = true ∧
      (∀ z ∈ s.forme.posts, z.launch = p.launch → z.group = p.group → z.target = p.target → n ≤ z.id) ∧
      s.groupSt p.launch p.target = .bound k c,
    fun t => calm s t ∧ isDue t (.flagSetByAgent (.ofNat 9 k) (.ofNat 2 c) p.flag) ∧ ∀ z ∈ t.forme.posts, z.id ≠ n),
   (.postFlagDelivery n, (s.forme.posts.find? fun z => z.id == n) = some p ∧ s.injects p.cl = true ∧ s.allPerformed p.cl p.ctx n (groupBinding p.launch p.group p.gen) 3 = true ∧
      (∀ z ∈ s.forme.posts, z.launch = p.launch → z.group = p.group → z.target = p.target → n ≤ z.id) ∧
      s.groupSt p.launch p.target = .saved k,
    fun t => calm s t ∧ (p.launch, p.target, p.flag) ∈ t.forme.savedFlags ∧ ∀ z ∈ t.forme.posts, z.id ≠ n),
   (.spanMessageArrival n, (s.forme.sends.find? fun z => z.id == n) = some q ∧ q.bytes = some bs ∧
      (∀ z ∈ s.forme.sends, z.launch = q.launch → z.group = q.group → z.dmod = q.dmod → z.ch = q.ch → n ≤ z.id) ∧
      q.dmod = s.forme.modid.toNat ∧ s.mayEnter ⟨q.handle, s.forme.modid.toNat, q.ch, bs⟩ = true ∧ (s.ctx q.cl q.ctx).bnd.gen = q.gen,
    fun t => sget [] t.forme.chans q.ch = sget [] s.forme.chans q.ch ++ [⟨q.handle, s.forme.modid.toNat, q.ch, bs⟩] ∧
      (t.ctx q.cl q.ctx).spout = (s.ctx q.cl q.ctx).spout - 1 ∧ (∀ z ∈ t.forme.sends, z.id ≠ n) ∧ memSame s t),
   -- A SEND's bytes are read once every earlier access and copy of the group is performed (R383).
   (.spanMessageArrival n, (s.forme.sends.find? fun z => z.id == n) = some q ∧ q.bytes = none ∧
      s.injects q.cl = true ∧ s.allPerformed q.cl q.ctx n (groupBinding q.launch q.group q.gen) 3 = true,
    fun t => (∃ z, (t.forme.sends.find? fun z => z.id == n) = some z ∧
      z.bytes = some ((s.cluster q.cl).locRead q.addr (128 * q.nfl))) ∧ t.ctxs = s.ctxs ∧ memSame s t),
   (.spanMessageArrival n, (∀ z ∈ s.forme.sends, z.id ≠ n) ∧ (s.forme.arriving.find? fun z => z.1 == n) = some (n, m) ∧
      s.mayEnter m = true,
    fun t => calm s t ∧ sget [] t.forme.chans m.ch = sget [] s.forme.chans m.ch ++ [m] ∧ ∀ z ∈ t.forme.arriving, z.1 ≠ n),
   (.spanMessageDiscard n, (∀ z ∈ s.forme.sends, z.id ≠ n) ∧ (s.forme.arriving.find? fun z => z.1 == n) = some (n, m) ∧
      m.handle ∈ s.forme.spanGone ∧ s.spanBound ≠ some m.handle,
    fun t => t.ctxs = s.ctxs ∧ t.forme.chans = s.forme.chans ∧ ∀ z ∈ t.forme.arriving, z.1 ≠ n),
   (.spanLinkDown i, s.forme.spanUp.getLsbD i.toNat = true,
    fun t => t.ctxs = s.ctxs ∧ t.forme.spanUp.getLsbD i.toNat = false),
   (.spanLinkDown i, s.forme.spanUp.getLsbD i.toNat = false, fun t => t = s),
   (.owedWritePerformed n, s.acc? n = some a ∧ a.owed = true ∧ a.overAt 3 = true ∧ a.st ≠ .refused ∧ a.accepted = false ∧
      a.eng = 0 ∧ s.groupSt a.launch a.group = .bound k c,
    fun t => (∀ z ∈ t.accs, z.id ≠ n) ∧
      sget 0 (t.ctx k c).owed a.cls = sget 0 (s.ctx k c).owed a.cls - 1 ∧ memSame s t),
   -- A host write that MC0 has accepted is performed at MOD: its count falls while it goes on to the host (R103, R181).
   (.owedWritePerformed n, s.acc? n = some a ∧ a.owed = true ∧ a.overAt 3 = true ∧ a.st ≠ .refused ∧ a.accepted = true ∧
      a.eng = 0 ∧ s.groupSt a.launch a.group = .bound k c,
    fun t => (∃ z, t.acc? n = some z ∧ z.owed = false) ∧
      sget 0 (t.ctx k c).owed a.cls = sget 0 (s.ctx k c).owed a.cls - 1 ∧ memSame s t)]

end Sys2Proof.Claims

/-- R84 to R88, R99, R101 to R104, R126, R127, R280, R323, R453, R474: the events of the contexts complete. A cluster selects
its first READY context after the one selected last and issues the enabled slots of its bundle; a wait's bundle issues when
its condition holds; a block over its D sets BOVR and EOVR; a flag that another agent sets is 1; a stop at a wait rolls back
and saves; a watch ends when its bytes differ or its time is over; a group of a faulted launch is freed after 2^24
cycles. The model's choices: the selection follows R127's pseudocode against its text (log 95), and its stalls are tried in the
order of log 80. -/
def Obligations.ContextEvents : Prop :=
  ∀ (s : Sys2Proof.Machine.State) (k : Sys2Proof.ClusterNo) (c : Sys2Proof.CtxNo) (f : Sys2Proof.FReg)
      (l : Sys2Proof.Machine.Launch) (s2 s3 : Sys2Proof.Machine.State) (b : Sys2Proof.Bundle) (todo : List Sys2Proof.SlotNo)
      (a : Sys2Proof.Machine.Access) (r : Sys2Proof.AReg) (T : Nat),
    Sys2Proof.Claims.contextEvents s k c f l s2 s3 b todo a r T

/-- R96 to R99, R103, R277, R380 to R387, R473, R475, R486: the events of barriers, POSTs, span messages and owed writes
complete: an instance whose arrivals are all high releases each member at its latency and rank; otherwise nothing happens;
a message enters its channel or is discarded; a POSTed flag is set in its target, or kept with its record. The model's choices: an
accepted host write counts as performed at MOD (log 26), the numbers and counts of level 5's messages and members (log 54), the
time at which SPOUT falls (log 55) and LEADPOS is read (log 57). -/
def Obligations.BarrierEvents : Prop :=
  ∀ (s : Sys2Proof.Machine.State) (n : Nat) (r : Sys2Proof.Machine.Barrier) (g k c : Nat) (lead : Bool)
      (p : Sys2Proof.Machine.PostReq) (q : Sys2Proof.Machine.SendReq) (bs : List Sys2Proof.Byte) (m : Sys2Proof.Machine.SpanMsg)
      (a : Sys2Proof.Machine.Access) (i : BitVec 3),
    Sys2Proof.Claims.barrierEvents s n r g k c lead p q bs m a i

namespace Sys2Proof.Claims
open Sys2Proof.Machine

/-! ## Nests and plane operations (R57, R58, R69 to R73, R363 to R374, R481, R482) -/

/-- The plane of a cluster. -/
abbrev planeAt (s : State) (k : ClusterNo) (pl : PlaneNo) : Plane := (s.cluster k.toNat).plane pl.toNat

/-- The value of an accumulator after one term of R57: sign, scaled count, saturation at ±(2^47 − 1). -/
def accAfter (n : Nest) (a b : Edge) (acc : Int) : Int :=
  let bp := n.smode.getLsbD 5
  let sh := shiftOf n.seed (n.smode.getLsbD 4) n.q
  let cnt := siteCount bp sh a.m b.m n.range.1 n.range.2
  let t : Nat := if bp = true then (2 * (cnt : Int) - n.range.2).natAbs else cnt
  let neg : Bool := if bp = true then decide (2 * cnt < n.range.2) else a.neg != b.neg
  let sc := min 16 (a.s + b.s - n.eref.toInt)
  let mag : Int := if 0 ≤ sc then t * 2 ^ sc.toNat else t / 2 ^ (-sc).toNat
  max (-(2 ^ 47 - 1)) (min (2 ^ 47 - 1) (acc + if neg = true then -mag else mag))

/-- The site (r, c) of the iteration that the nest stands at, as row and column of its plane (R364). -/
def siteRow (n : Nest) (r : Nat) : Nat := walkRow n.hmv n.nv n.i + r
def siteCol (n : Nest) (c : Nat) : Nat := walkCol n.hmv n.nv n.i + c

/-- The placed sites of the iteration lie in the plane. -/
def sitesFit (n : Nest) : Prop :=
  siteRow n (shapeOf n.ashape).rows ≤ 512 ∧ siteCol n (shapeOf n.bshape).cols ≤ 512

/-- May the nest's move happen now? -/
def nestReady (s : State) (k : ClusterNo) (pl : PlaneNo) (n : Nest) : Prop :=
  (planeAt s k pl).nest = some n ∧ s.runs k.toNat = true ∧ n.due ≤ s.cycle

/-- No stop of the nest is asked for, and no accumulator error was met. -/
def unstopped (n : Nest) : Prop := n.sstop = false ∧ n.pstop = false ∧ n.apar = false

/-- The nest has ended on an accumulator error: its accumulators are undefined, its flag is set, and ENGINE is charged to its
SGO (R481). -/
def endsInError (t : State) (k : ClusterNo) (pl : PlaneNo) (n : Nest) : Prop :=
  let q := (t.cluster k.toNat).plane pl.toNat
  q.nest = none ∧ q.acc = [] ∧ q.tag ≠ 0 ∧ (∀ f, n.flag = some f → (t.ctx k.toNat n.ctx).regs.f.getLsbD f.toNat = true) ∧
    ∃ d ∈ (t.ctx k.toNat n.ctx).defer, bitsAt d.tcause.toNat 0 16 = 0x25 ∧ d.dest = true

/-- The context of the nest has room for a fault. -/
def errorRoom (s : State) (k : ClusterNo) (n : Nest) : Prop :=
  (s.ctx k.toNat n.ctx).defer.length < 8 ∧ (s.ctx k.toNat n.ctx).wait ≠ .exit

/-- A flag of the nest's context is set at its end (R374). -/
def flagUp (t : State) (k : ClusterNo) (n : Nest) : Prop :=
  ∀ f, n.flag = some f → (t.ctx k.toNat n.ctx).regs.f.getLsbD f.toNat = true

def nestEvents (s : State) (k : ClusterNo) (pl : PlaneNo) (n : Nest) (r c : Nat) (a b : Edge) (rest : List PlaneOp)
    (o : Nat × Nat) (gen : BitVec 16) (id lo prow pcol cnt : Nat) (bf : Bool) : Prop :=
  let p := planeAt s k pl
  let run := k.toNat < s.nclus
  eventsHold s <| [
   -- Every site of a k-step takes its term; every other accumulator keeps its value.
   (.nestKstep k pl, nestReady s k pl n ∧ n.endPass = false ∧ s.nestPoison k.toNat n = false ∧ n.skipped = false ∧ sitesFit n ∧
      r < (shapeOf n.ashape).rows ∧ c < (shapeOf n.bshape).cols ∧ n.aEdge (s.cluster k.toNat) r = some a ∧
      n.bEdge (s.cluster k.toNat) c = some b ∧ unstopped n,
    fun t => let q := planeAt t k pl
      (q.at (siteRow n r) (siteCol n c)).toInt = accAfter n a b (p.at (siteRow n r) (siteCol n c)).toInt ∧
        (∀ row col, row < 512 → col < 512 → (row < siteRow n 0 ∨ siteRow n (shapeOf n.ashape).rows ≤ row ∨
          col < siteCol n 0 ∨ siteCol n (shapeOf n.bshape).cols ≤ col) → q.at row col = p.at row col) ∧
        (∃ x, q.nest = some x ∧ x.q = n.q + 1) ∧ memSame s t ∧ t.ctxs = s.ctxs),
   (.nestKstep k pl, nestReady s k pl n ∧ n.endPass = false ∧ s.nestPoison k.toNat n = false ∧ n.skipped = true ∧ unstopped n,
    fun t => let q := planeAt t k pl
      q.acc = p.acc ∧ (∃ x, q.nest = some x ∧ x.q = n.q + 1 ∧ x.seb = n.seb) ∧ memSame s t ∧ t.ctxs = s.ctxs),
   (.nestKstep k pl, (planeAt s k pl).nest = some n ∧ run ∧ s.cycle < n.due, fun t => t = s),
   (.nestKstep k pl, nestReady s k pl n ∧ n.endPass = false ∧ n.skipped = true ∧ n.sstop = true ∧ n.apar = false ∧
      (nextIter n.nv n.i).isSome = true,
    fun t => (planeAt t k pl).nest = none ∧ (planeAt t k pl).pstat.getLsbD 2 = true ∧ flagUp t k n),
   -- After an accumulator error the nest ends at the k-step boundary (R481).
   (.nestKstep k pl, nestReady s k pl n ∧ n.endPass = false ∧ n.skipped = true ∧ n.apar = true ∧ s.nestPoison k.toNat n = false ∧
      errorRoom s k n, fun t => endsInError t k pl n),
   (.nestPassEnd k pl, nestReady s k pl n ∧ n.endPass = true ∧ n.apar = true ∧ errorRoom s k n, fun t => endsInError t k pl n),
   -- The end of a pass: JDONE, SEB, EB; the nest's end, or its next pass.
   (.nestPassEnd k pl, nestReady s k pl n ∧ n.endPass = true ∧ n.apar = false ∧ n.j ≤ n.pass ∧ n.pass < 32 ∧ n.seb < 2 ^ 48 ∧ n.sstop = false,
    fun t => let q := planeAt t k pl
      q.nest = none ∧ q.seb.toNat = n.seb ∧ q.eb.toNat = boundOf (n.smode.getLsbD 5) n.pass * n.seb % 2 ^ 56 ∧
        q.pstat.getLsbD 0 = true ∧ q.pstat.getLsbD 1 = false ∧ bitsAt q.pstat.toNat 16 5 = n.pass ∧ q.acc = p.acc ∧
        flagUp t k n ∧ memSame s t),
   (.nestPassEnd k pl, nestReady s k pl n ∧ n.endPass = true ∧ n.apar = false ∧ n.j ≤ n.pass ∧ n.pass < 32 ∧ n.sstop = true,
    fun t => let q := planeAt t k pl
      q.nest = none ∧ q.pstat.getLsbD 2 = true ∧ q.pstat.getLsbD 1 = false ∧ bitsAt q.pstat.toNat 16 5 = n.pass ∧ q.acc = p.acc ∧
        flagUp t k n ∧ memSame s t),
   -- The margin test ends a progressive nest before its last pass (R72).
   (.nestPassEnd k pl, nestReady s k pl n ∧ n.endPass = true ∧ n.apar = false ∧ n.pass < n.j ∧ n.pass < 32 ∧ (p.passEnd n).marginStops n = true,
    fun t => let q := planeAt t k pl
      q.nest = none ∧ q.pstat.getLsbD 0 = true ∧ q.pstat.getLsbD 7 = true ∧ q.pstat.getLsbD 1 = false ∧
        bitsAt q.pstat.toNat 11 5 = n.pass ∧ q.acc = p.acc ∧ flagUp t k n ∧ memSame s t),
   (.nestPassEnd k pl, nestReady s k pl n ∧ n.endPass = true ∧ n.apar = false ∧ n.pass < n.j ∧ n.smode.getLsbD 3 = false ∧ n.sstop = false ∧
      n.pstop = true,
    fun t => let q := planeAt t k pl
      q.nest = none ∧ q.stopped = true ∧ q.pstat.getLsbD 2 = true ∧ q.pstat.getLsbD 1 = false ∧ q.lpass = n.pass + 1 ∧ q.lq = 0 ∧
        q.acc = p.acc ∧ t.ctxs = s.ctxs ∧ memSame s t),
   (.nestPassEnd k pl, nestReady s k pl n ∧ n.endPass = true ∧ n.pass < n.j ∧ n.smode.getLsbD 3 = false ∧ unstopped n,
    fun t => let q := planeAt t k pl
      (∃ x, q.nest = some x ∧ x.pass = n.pass + 1 ∧ x.q = 0 ∧ x.endPass = false) ∧ q.acc = p.acc ∧ memSame s t ∧
        t.ctxs = s.ctxs)] ++
  [-- The plane-operation queue: SCLR zeroes, SGO starts, SACC writes the tile.
   (.planeOpComplete k pl, run ∧ s.runs k.toNat = true ∧ p.nest = none ∧ p.queue = .sclr o.1 o.2 :: rest,
    fun t => let q := planeAt t k pl
      (∀ row col, q.at row col = 0) ∧ q.pstat = 0 ∧ q.seb = 0 ∧ q.eb = 0 ∧ q.queue = rest ∧ calmCluster s t),
   (.planeOpComplete k pl, run ∧ s.runs k.toNat = true ∧ p.nest = none ∧ p.queue = .sgo n :: rest ∧
      (s.cluster k.toNat).nestWaits n = false,
    fun t => let q := planeAt t k pl
      (∃ x, q.nest = some x ∧ x = { n with due := x.due }) ∧ q.acc = p.acc ∧ q.pstat.getLsbD 1 = true ∧ q.pstat.getLsbD 0 = false ∧ q.seb = 0 ∧
        q.queue = rest ∧ calmCluster s t),
   (.planeOpComplete k pl, run ∧ s.runs k.toNat = true ∧ p.nest = none ∧
      p.queue = .sacc o.1 gen id lo prow pcol cnt bf :: rest ∧
      (s.cluster k.toNat).rangeBefore 2 lo (lo + cnt * if bf = true then 2 else 4) id false = false ∧ lo % 0xA000 + 4 * cnt ≤ 0xA000 ∧
      r < cnt,
    fun t => (planeAt t k pl).queue = rest ∧ (planeAt t k pl).acc = p.acc ∧
      (∃ v : Nat × Flags, v = p.readOne (if bf = true then .bf16 else .f32) prow (pcol + r) ∧
        ofBytes ((t.cluster k.toNat).tileRead (lo + r * if bf = true then 2 else 4) (if bf = true then 2 else 4)) = v.1) ∧ memSame s t),
   (.planeOpComplete k pl, run ∧ p.nest = some n, fun t => t = s),
   -- Replay and parity.
   (.segmentReplay k pl, nestReady s k pl n ∧ n.endPass = false ∧ n.retries ≠ 3 ∧ run,
    fun t => let q := planeAt t k pl
      q.acc = p.acc ∧ q.pstat = p.pstat ||| 0x40 ∧ (t.cluster k.toNat).rplcnt = (s.cluster k.toNat).rplcnt + 1 ∧
        (∃ x, q.nest = some x ∧ x.retries = n.retries + 1 ∧ x.i = n.i ∧ x.q = n.q) ∧ calmCluster s t),
   -- The column runs at its trimmed voltage for the first rerun, and 20 mV higher for each failure there.
   (.segmentReplay k pl, nestReady s k pl n ∧ n.endPass = false ∧ n.retries < 3 ∧
      ∀ y ∈ s.columnNests (columnOf k.toNat pl.toNat), y.retries ≤ n.retries,
    fun t => t.columnMv (columnOf k.toNat pl.toNat) =
      (bitsAt s.forme.volts.toNat (16 * columnOf k.toNat pl.toNat) 16 : Int) + 20 * n.retries),
   -- A fourth failure, or an error in a row of accumulators, is recorded; the nest runs to the next k-step boundary.
   (.segmentReplay k pl, nestReady s k pl n ∧ n.endPass = false ∧ n.retries = 3,
    fun t => (planeAt t k pl).nest = some { n with apar := true } ∧ (planeAt t k pl).acc = p.acc ∧ t.forme.coldNext = true ∧
      t.ctxs = s.ctxs ∧ (t.forme.eltail = s.forme.eltail + 1 ∨ t.forme.ellost = s.forme.ellost + 1)),
   (.accumulatorParityError k pl, run ∧ p.nest = some n,
    fun t => (planeAt t k pl).nest = some { n with apar := true } ∧ (planeAt t k pl).acc = p.acc ∧ t.ctxs = s.ctxs ∧
      (t.forme.eltail = s.forme.eltail + 1 ∨ t.forme.ellost = s.forme.ellost + 1)),
   (.accumulatorParityError k pl, run ∧ p.nest = none, fun t => t = s)]

end Sys2Proof.Claims

/-- R57, R58, R69 to R71, R363 to R374, R481, R482: the events of the nests and of the plane-operation queue complete: a
k-step adds every site's term and leaves every other accumulator; the end of a pass sets JDONE, SEB and EB and ends the
nest or begins its next pass; SCLR zeroes, SGO starts, SACC writes rounded values; a replay changes no accumulator, and
its column is raised (at g = 0 too, the model's choice of log 94); after a parity error, or a fourth failure of a segment, the nest
ends at its next k-step boundary and leaves its accumulators undefined. -/
def Obligations.NestEvents : Prop :=
  ∀ (s : Sys2Proof.Machine.State) (k : Sys2Proof.ClusterNo) (pl : Sys2Proof.PlaneNo) (n : Sys2Proof.Machine.Nest) (r c : Nat)
      (a b : Sys2Proof.Machine.Edge) (rest : List Sys2Proof.Machine.PlaneOp) (o : Nat × Nat) (gen : BitVec 16)
      (id lo prow pcol cnt : Nat) (bf : Bool),
    Sys2Proof.Claims.nestEvents s k pl n r c a b rest o gen id lo prow pcol cnt bf

namespace Sys2Proof.Claims
open Sys2Proof.Machine

/-! ## The compositor (R107 to R125, R471 to R475) -/

/-- The n bytes of host memory from h, as a number. -/
def hostNum (s : State) (h n : Nat) : Nat := ofBytes ((List.range n).map fun i => s.hostByte (h + i))

/-- Host memory changes in the n bytes from h alone, device memory nowhere. -/
def onlyHost (s t : State) (h n : Nat) : Prop :=
  t.mem = s.mem ∧ t.memFill = s.memFill ∧ ∀ j, j < h ∨ h + n ≤ j → t.hostByte j = s.hostByte j

/-- The record that a queue fetches next: its address, and its 128 bytes as a number (R109, R111). -/
def recordPlace (s : State) (q : BitVec 6) : Nat := (s.queue q.toNat).qbase.toNat + 128 * ((s.queue q.toNat).qhead.toNat % 256)

/-- No launch of the module has the number. -/
def launchGone (t : State) (n : Nat) : Prop := ∀ x ∈ t.forme.launches, x.id ≠ n

/-- The machine whose held places belong to launches that still want them. -/
def pruned (s : State) : State :=
  s.modForme fun m => { m with holds := m.holds.filter fun h => m.launches.any fun l => l.id == h.launch && l.faulted.isNone }

/-- The candidates in the order in which they are tried: those whose victims have all been saved come first (R119, R123). -/
def inOrder (s : State) : List Launch :=
  s.candidates.filter s.victimsGone ++ s.candidates.filter fun l => !s.victimsGone l

/-- A context as a binding leaves it (R81). -/
def bound (old y : Ctx) (l : Launch) (p : Spot) : Prop :=
  y.st = .ready ∧ y.pc = l.entry ∧ y.mpc = l.metaoff ∧ y.rpc = l.entry ∧ y.nr = false ∧ y.bnd.group = p.group ∧
    y.bnd.gen = old.bnd.gen + 1 ∧ sget ⟨0, false⟩ y.regs.s 0 = ⟨.ofNat 64 p.group, false⟩ ∧
    sget ⟨0, false⟩ y.regs.s 1 = ⟨.ofNat 64 l.gcount, false⟩ ∧ sget ⟨0, false⟩ y.regs.s 2 = ⟨.ofNat 64 l.param, false⟩ ∧
    (∀ i, 3 ≤ i → sget ⟨0, false⟩ y.regs.s i = ⟨0, false⟩) ∧ y.regs.v = [] ∧ y.regs.a = [] ∧ y.regs.p = 0 ∧ y.regs.f = 0

def compositorEvents (s : State) (q : BitVec 6) (v : BitVec 64) (n h : Nat) (l : Launch) (ls : List Launch) (p : Spot)
    (e : Nat × Nat × Nat) : Prop :=
  let x := s.queue q.toNat
  let w : BitVec 32 := v.setWidth 32
  let r := s.peekNum (recordPlace s q) 128
  let en := x.qctl.getLsbD 31
  eventsHold s <| [
   (.qtailWrite q v, s.isReady = true ∧ en = false, fun t => t = s.modQueue q.toNat fun x => { x with qtail := w, qhead := w }),
   (.qtailWrite q v, s.isReady = true ∧ en = true ∧ (w - x.qhead).toNat ≤ 256,
    fun t => t = (s.modQueue q.toNat fun x => { x with qtail := w }).soon [.recordFetch q]),
   (.qtailWrite q v, s.isReady = true ∧ en = true ∧ 256 < (w - x.qhead).toNat,
    fun t => t.forme.queues = s.forme.queues ∧ t.ctxs = s.ctxs),
   (.qtailWrite q v, s.isReady = false, fun t => t = s),
   (.qctlWrite q v, s.isReady = true,
    fun t => calm s t ∧ t.queue q.toNat = { x with qctl := w &&& 0x80071FFF } ∧ isDue t (.recordFetch q) ∧ isDue t .selection),
   (.recordFetch q, s.mayFetch q.toNat = true ∧ s.recordFree (recordPlace s q) = true ∧ openTo s (recordPlace s q) 128 ∧
      (recordPlace s q < 0x200000000000 → s.linePoison (s.linear (recordPlace s q)) = false),
    fun t => (∃ y, t.forme.launches = s.forme.launches ++ [y] ∧ y.id = s.forme.nextLaunch ∧ y.queue = q.toNat ∧
        y.handle = fieldAt r 4 4 ∧ y.kimage = fieldAt r 8 8 ∧ y.param = fieldAt r 0x10 8 ∧ y.gcount = fieldAt r 0x20 4 ∧
        (fieldAt r 0 2 ≠ x.qhead.toNat % 2 ^ 16 ∨ fieldAt r 2 1 ≠ 1 → y.status = 1 ∧ y.st = .retiring)) ∧
      t.queue q.toNat = { x with qhead := x.qhead + 1 } ∧ t.ctxs = s.ctxs),
   (.recordFetch q, s.mayFetch q.toNat = false ∨ s.recordFree (recordPlace s q) = false, fun t => t = s)] ++
  [(.launchRetirement n, s.launch? n = some l ∧ l.st ≠ .retiring ∧ l.bound = [] ∧ s.writesOver n = true ∧ l.faulted = none ∧
      l.nbound = l.gcount ∧ l.nexited = l.gcount ∧ l.succ = [] ∧ l.cplvec ≤ 2048 ∧ l.cpladdr = 0x200000000000 + h ∧ s.hostFree l.cpladdr 16 = true ∧
      l.handle < 2 ^ 32 ∧ l.status < 2 ^ 16,
    fun t => launchGone t n ∧ isDue t .selection ∧ hostNum t h 4 = l.handle ∧ hostNum t (h + 4) 2 = l.status ∧
      hostNum t (h + 6) 2 = 0 ∧ hostNum t (h + 8) 8 = l.cookie.toNat ∧ onlyHost s t h 16 ∧ t.ctxs = s.ctxs),
   (.launchRetirement n, s.launch? n = some l ∧ l.st ≠ .retiring ∧
      (l.bound ≠ [] ∨ (l.cpladdr ≠ 0 ∧ s.agentFree l.cpladdr 16 = false)), fun t => t = s),
   (.heldCreditApply n, s.launch? n = some l ∧ (s.forme.heldCredits.lookup n).isSome = true ∧ l.credits = [h] ∧
      (∀ y ∈ s.forme.launches, y.handle ≠ h) ∧ s.forme.precredit.lookup h = none ∧ s.forme.precredit.length < 4096 ∧
      l.cplvec ≤ 2048,
    fun t => launchGone t n ∧ t.forme.precredit = s.forme.precredit ++ [(h, -1)] ∧ memSame s t ∧ t.ctxs = s.ctxs),
   (.heldCreditApply n, s.launch? n = some l ∧ (s.forme.heldCredits.lookup n).isSome = true ∧ l.credits = [h] ∧
      (∀ y ∈ s.forme.launches, y.handle ≠ h) ∧ s.forme.precredit.lookup h = none ∧ 4096 ≤ s.forme.precredit.length,
    fun t => calm s t ∧ t.forme.precredit = s.forme.precredit ∧ (n, h) ∈ t.forme.heldCredits),
   (.launchFault n, s.launch? n = some l ∧ l.faulted = none ∧ l.st ≠ .retiring ∧ (∀ e ∈ l.bound, (s.ctx e.2.1 e.2.2).srsn ≠ 2) ∧
      e ∈ l.bound,
    fun t => (∀ y ∈ t.forme.launches, y.id = n → y.faulted = some s.cycle ∧ y.st = .running ∧ ∀ g ∈ y.groups, ∀ k, g.2 ≠ .saved k) ∧
      (t.ctx e.2.1 e.2.2).preempt = true ∧ isDue t (.launchRetirement n)),
   (.launchFault n, s.launch? n = some l ∧ l.faulted ≠ none, fun t => t = s)] ++
  [(.preemptTimeout n, (∃ z ∈ s.forme.stops, z.by' = some n ∧ z.since + 2 ^ 24 ≤ s.timer) ∧ s.slots = [],
    fun t => (∀ z ∈ t.forme.stops, z.by' ≠ some n) ∧ t.forme.reserve ≠ some n ∧ isDue t .selection),
   (.preemptTimeout n, ∀ z ∈ s.forme.stops, z.by' = some n → s.timer < z.since + 2 ^ 24, fun t => t = s),
   (.selection, s.accepts = true ∧ ∀ y ∈ s.forme.launches, s.eligible y = false, fun t => t = pruned s),
   (.selection, s.accepts = true ∧ inOrder (pruned s) = l :: ls ∧ (∀ z ∈ s.forme.stops, z.by' ≠ some l.id) ∧
      (pruned s).plan l [] = [p] ∧ s.launch? l.id = some l ∧ sget .unbound l.groups p.group = .unbound ∧
      p.cl / 4 ∉ s.forme.haltedChips,
    fun t => bound (s.ctx p.cl p.ctx) (t.ctx p.cl p.ctx) l p ∧ memSame s t ∧
      ∀ y ∈ t.forme.launches, y.id = l.id → sget .unbound y.groups p.group = .bound p.cl p.ctx),
   (.selection, s.accepts = false, fun t => t = s)]

/-! ## The batching units, and writes of registers (R129 to R149, R418, R422, R461 to R463, R476) -/

/-- Does a constraint record keep the checks of R134: its number, its count of bodies, its reserved bits? -/
def constraintOk (r head : Nat) : Prop :=
  bitsAt r 48 16 = head % 2 ^ 16 ∧ 1 ≤ bitsAt r 32 3 ∧ bitsAt r 32 3 ≤ 4 ∧ bitsAt r 35 5 = 0 ∧ bitsAt r 41 7 = 0 ∧
    bitsAt r 160 32 = 0

/-- Where a unit's next record lies (R133). -/
def constraintPlace (x : CbUnit) : Nat := x.rbase + 32 * (x.head.toNat % 2 ^ x.rlog)

/-- The unit with the record in its window: the constraint's number, bodies and payload, SEAL (R134, R135). -/
def admitted (x : CbUnit) (r : Nat) : CbUnit :=
  { x with head := x.head + 1, sealed := bitAt r 40,
           window := x.window ++ [⟨.ofNat 32 r, bitsAt r 32 3, .ofNat 96 (r / 2 ^ 64), .ofNat 64 (r / 2 ^ 192)⟩] }

/-- No two constraints of a list name a common body. -/
def disjointBodies (cs : List Constraint) : Prop := cs.Pairwise fun a b => ∀ y ∈ a.bodies, y ∉ b.bodies

/-- Request r, of access a, is the first that arrived at the unit in an earlier cycle; of one cycle's requests, that of the
lowest plane (R141). -/
def earliest (s : State) (x : CbUnit) (r : CbReq) (a : Access) : Prop :=
  ∃ T before rest, x.takes = before ++ r :: rest ∧ r.arrived = some T ∧ T < s.cycle ∧ s.acc? r.access = some a ∧
    (∀ q ∈ before, ∀ U b, q.arrived = some U → s.acc? q.access = some b →
      T < U ∨ (T = U ∧ s.msgPlane a.cl < s.msgPlane b.cl)) ∧
    ∀ q ∈ rest, ∀ U b, q.arrived = some U → s.acc? q.access = some b → T < U ∨ (T = U ∧ s.msgPlane a.cl ≤ s.msgPlane b.cl)

def batchEvents (s : State) (u : BitVec 2) (v : BitVec 64) (g : CbGroup) (c : Constraint) (i o h : Nat) (r : CbReq)
    (rest : List CbReq) (a : Access) (tag : BitVec 32) (ms : List Instr) : Prop :=
  let x := s.unit u.toNat
  let w : BitVec 32 := v.setWidth 32
  let d := s.peekNum (constraintPlace x) 32
  let m := s.forme
  eventsHold s <| [
   (.cbtailWrite u v, x.launch.isSome = true ∧ (w - x.head).toNat ≤ 2 ^ x.rlog,
    fun t => t = (s.modUnit u.toNat fun x => { x with tail := w }).soon [.cbRecordAdmit u]),
   (.cbtailWrite u v, x.launch.isSome = true ∧ 2 ^ x.rlog < (w - x.head).toNat,
    fun t => t.unit u.toNat = { x with cberr := x.cberr ||| 8 } ∧ t.ctxs = s.ctxs),
   (.cbtailWrite u v, x.launch = none, fun t => t = s),
   (.cberrWrite u v, x.launch.isSome = true,
    fun t => calm s t ∧ t.unit u.toNat = { x with cberr := x.cberr &&& ~~~w } ∧ isDue t (.cbRecordAdmit u)),
   (.cbRecordAdmit u, x.launch.isSome = true ∧ x.cberr = 0 ∧ x.sealed = false ∧ x.head ≠ x.tail ∧ x.window.length < x.win ∧
      openTo s (constraintPlace x) 32 ∧ (constraintPlace x < 0x200000000000 → s.linePoison (s.linear (constraintPlace x)) = false) ∧ constraintOk d x.head.toNat,
    fun t => calmHome s t ∧ t.unit u.toNat = admitted x d ∧
      isDue t (.cbGroupScan u)),
   (.cbRecordAdmit u, x.launch.isSome = true ∧ x.cberr = 0 ∧ x.sealed = false ∧ x.head ≠ x.tail ∧ x.window.length < x.win ∧
      openTo s (constraintPlace x) 32 ∧ (constraintPlace x < 0x200000000000 → s.linePoison (s.linear (constraintPlace x)) = false) ∧
      ¬ constraintOk d x.head.toNat,
    fun t => (t.unit u.toNat).cberr ≠ 0 ∧ (t.unit u.toNat).head = x.head ∧ (t.unit u.toNat).window = x.window),
   (.cbRecordAdmit u, s.agentFree (constraintPlace x) 32 = false, fun t => t = s),
   (.cbGroupScan u, x.mayScan = true,
    fun t => calm s t ∧ (t.unit u.toNat).gform = x.gform + 1 ∧ ∃ y, (t.unit u.toNat).groups = x.groups ++ [y] ∧
      y.isOpen = false ∧ y.members.length ≤ x.gmax ∧ disjointBodies (y.members.map (·.1)) ∧
      (y.members.map (·.1) ++ (t.unit u.toNat).window).Perm x.window),
   (.cbGroupOpen u, (x.groups.find? fun y => !y.isOpen) = some g ∧ x.nopen < 16 ∧ (∀ b ∈ g.bodies, b ∉ x.held),
    fun t => calm s t ∧ (∃ y ∈ (t.unit u.toNat).groups, y.gno = g.gno ∧ y.isOpen = true ∧ y.members = g.members) ∧
      (∀ b ∈ g.bodies, b ∈ (t.unit u.toNat).held) ∧ (t.unit u.toNat).gopen = x.gopen + 1),
   (.cbGroupOpen u, (x.groups.find? fun y => !y.isOpen) = some g ∧ (16 ≤ x.nopen ∨ ∃ b ∈ g.bodies, b ∈ x.held), fun t => t = s)] ++
  [(.cbHandout u, earliest s x r a ∧ a.op = .cbtake ∧ a.eng = 0 ∧
      (x.groups.findSome? fun y => y.next.map fun z => (y, z)) = some (g, i, c),
    fun t => memSame s t ∧ t.ctxs = s.ctxs ∧ isDue t (.farLoadReturn a.id) ∧ (∀ z ∈ (t.unit u.toNat).takes, z.access ≠ a.id) ∧
      ∃ y ∈ t.accs, y.id = a.id ∧ y.st = .performed ∧ y.data = toBytes 4 c.cid.toNat ++ toBytes 1 c.nb ++ toBytes 1 0 ++
        toBytes 2 0 ++ toBytes 12 c.body.toNat ++ toBytes 4 (g.gno % 2 ^ 23 * 512 + i) ++ toBytes 8 c.pay.toNat),
   (.cbHandout u, earliest s x r a ∧ a.op = .cbtake ∧ a.eng = 0 ∧
      (∀ y ∈ x.groups, y.next = none),
    fun t => memSame s t ∧ t.ctxs = s.ctxs ∧ (t.unit u.toNat).groups = x.groups ∧
      ∃ y ∈ t.accs, y.id = a.id ∧ y.st = .performed ∧ y.data.getD 5 0 = if x.exhausted = true then 2 else 1),
   (.cbdoneCount u, x.dones = r :: rest ∧ s.acc? r.access = some a ∧ r.tag = some tag ∧
      x.member? tag.toNat = some (g, i),
    fun t => (t.unit u.toNat).cdone = x.cdone + 1 ∧ (t.unit u.toNat).dones = rest ∧ memSame s t ∧ t.ctxs = s.ctxs),
   (.cbdoneCount u, x.dones = r :: rest ∧ s.acc? r.access = some a ∧ r.tag = some tag ∧ x.member? tag.toNat = none,
    fun t => (t.unit u.toNat).cdone = x.cdone ∧ (t.unit u.toNat).dones = rest ∧ t.ctxs = s.ctxs)] ++
  [(.elheadWrite v, (w - m.elhead).toNat ≤ (m.eltail - m.elhead).toNat, fun t => t = s.modForme fun m => { m with elhead := w }),
   (.elheadWrite v, (m.eltail - m.elhead).toNat < (w - m.elhead).toNat, fun t => t = s),
   (.registerWrite o v, regCovered o = true ∧ regSize o ≠ 0 ∧ regEvent o (v.toNat % 2 ^ (8 * regSize o)) = some ms,
    fun t => t = s.soon ms),
   (.registerWrite o v, regCovered o = true ∧ regSize o = 0, fun t => t = s),
   (.registerWrite o v, regCovered o = false, fun t => t = s.soon [.unmappedWindowAccess o]),
   (.registerWrite 0x10008 v, True, fun t => calm s t ∧ t.forme.grant = .ofNat 32 (v.toNat % 65536)),
   (.unmappedWindowAccess o, regCovered o = false ∧ (m.eltail - m.elhead).toNat < 4096 ∧ m.elbase.toNat = 0x200000000000 + h,
    fun t => let z := h + 64 * (m.eltail.toNat % 4096)
      t.forme.hostRead = some (List.replicate 8 0, false) ∧ t.forme.eltail = m.eltail + 1 ∧ hostNum t z 4 = m.eltail.toNat ∧
        hostNum t (z + 4) 2 = 0x36 ∧ hostNum t (z + 6) 1 = 5 ∧ hostNum t (z + 24) 8 = (0x300000000000 + o) % 2 ^ 64 ∧
        onlyHost s t z 64 ∧ t.ctxs = s.ctxs),
   (.unmappedWindowAccess o, regCovered o = false ∧ 4096 ≤ (m.eltail - m.elhead).toNat,
    fun t => calm s t ∧ t.forme.ellost = m.ellost + 1 ∧ t.forme.eltail = m.eltail)]

end Sys2Proof.Claims

/-- R81, R107 to R125, R471 to R475: the compositor's events complete: QTAIL publishes or is refused; a record is fetched into a
pending entry; a selection binds a placed group to its context with the state of R81; a complete launch writes its
completion record and is gone; a credit is applied or stays held; a fault of a launch discards its saved groups and asks the
others to stop; a stop not met in 2^24 cycles is withdrawn. The model's choices: a fault of a pending launch and the order of the
candidates (log 96), and the steps of a retirement (log 64). -/
def Obligations.CompositorEvents : Prop :=
  ∀ (s : Sys2Proof.Machine.State) (q : BitVec 6) (v : BitVec 64) (n h : Nat) (l : Sys2Proof.Machine.Launch)
      (ls : List Sys2Proof.Machine.Launch) (p : Sys2Proof.Machine.Spot) (e : Nat × Nat × Nat),
    Sys2Proof.Claims.compositorEvents s q v n h l ls p e

/-- R129 to R149, R418, R461 to R463, R476: the batching units' events and the writes of registers complete: records enter the
window in order; a scan forms one group whose constraints share no body; a group opens when no body of it is held; a
CBTAKE takes its record, a CBDONE is counted; a write of a register is the event of its own or is ignored; an access that
no register covers is recorded in the error log in the layout of R463, or lost when the ring is full. The model's choices: ESRC 5 of
that record (log 65), and the order of the CBTAKEs of one cycle (log 90). -/
def Obligations.BatchEvents : Prop :=
  ∀ (s : Sys2Proof.Machine.State) (u : BitVec 2) (v : BitVec 64) (g : Sys2Proof.Machine.CbGroup)
      (c : Sys2Proof.Machine.Constraint) (i o h : Nat) (r : Sys2Proof.Machine.CbReq) (rest : List Sys2Proof.Machine.CbReq)
      (a : Sys2Proof.Machine.Access) (tag : BitVec 32) (ms : List Sys2Proof.Instr),
    Sys2Proof.Claims.batchEvents s u v g c i o h r rest a tag ms

namespace Sys2Proof.Claims
open Sys2Proof.Machine

/-! ## Translation, paging and granules (R150 to R152, R162 to R164, R172 to R176, R448, R467, R500) -/

/-- May the walker read a table word at the address: in device or host memory, not poison-marked, not locked (R152, R220,
R465)? -/
def tableReadable (s : State) (a : Nat) : Prop :=
  a < 0x300000000000 ∧ (s.window a).isSome = true ∧ s.tablePoison a = false ∧ s.agentFree a 8 = true

/-- An entry that names a table (R151): V set, LEAF clear, reserved bits zero. -/
def tableEntry (e : Nat) : Prop := bitAt e 0 = true ∧ bitAt e 1 = false ∧ bitsAt e 46 18 = 0 ∧ bitAt e 5 = false

/-- The frame that an entry names. -/
def frameOf (e : Nat) : Nat := bitsAt e 12 34 * 4096

/-- The path of R152 from an address space's entry through three tables to the leaf of a 64 KiB page. -/
structure WalkPath where
  ent : Nat
  e3 : Nat
  e2 : Nat
  e1 : Nat
  leaf : Nat

/-- The path is what the tables in memory say. -/
def WalkPath.stands (p : WalkPath) (s : State) (asid va : Nat) : Prop :=
  let at' (a v : Nat) : Prop := tableReadable s a ∧ s.peekNum a 8 = v
  at' (s.forme.astbase.toNat + 8 * asid) p.ent ∧ bitAt p.ent 0 = true ∧ bitsAt p.ent 46 18 = 0 ∧ bitsAt p.ent 1 11 = 0 ∧
    at' (frameOf p.ent + 8 * bitsAt va 43 9) p.e3 ∧ tableEntry p.e3 ∧
    at' (frameOf p.e3 + 8 * bitsAt va 34 9) p.e2 ∧ tableEntry p.e2 ∧
    at' (frameOf p.e2 + 8 * bitsAt va 25 9) p.e1 ∧ tableEntry p.e1 ∧
    at' (frameOf p.e1 + 8 * bitsAt va 16 9) p.leaf ∧
    bitAt p.leaf 0 = true ∧ bitAt p.leaf 1 = true ∧ bitsAt p.leaf 46 18 = 0 ∧ bitAt p.leaf 5 = false ∧ bitsAt p.leaf 12 4 = 0

/-- The physical address of a 64 KiB leaf. -/
def WalkPath.pa (p : WalkPath) (va : Nat) : Nat := bitsAt p.leaf 16 30 * 65536 + va % 65536

/-- The window that a physical address lies in, as MT codes it (R151, R153). -/
def windowCode (pa mt : Nat) : Prop :=
  (mt = 0 ∧ (pa < 0xC000000000 ∨ (0x100000000000 ≤ pa ∧ pa < 0x10C000000000))) ∨
    (mt = 1 ∧ 0x200000000000 ≤ pa ∧ pa < 0x300000000000) ∨ (mt = 2 ∧ 0x300000000000 ≤ pa ∧ pa < 0x300100000000)

/-- Does an entry of a TLB match an invalidation: every one, those of an ASID, those of it that overlap a range (R173)? -/
def toDrop (s : State) (asid : Option Nat) (ranged : Bool) (e : TlbEntry) : Prop :=
  let size := if e.big = true then 2 ^ 25 else 2 ^ 16
  match asid with
  | none => True
  | some n => e.asid = n ∧ (ranged = true → s.forme.invlen.toNat ≠ 0 ∧
      e.vpage * size < s.forme.invaddr.toNat + s.forme.invlen.toNat ∧ s.forme.invaddr.toNat < e.vpage * size + size)

/-- An invalidation has begun: every matching entry of every cluster is gone, the others stay, BUSY is set (R173, R174). -/
def invalidating (s t : State) (asid : Option Nat) (ranged : Bool) : Prop :=
  t.forme.invbusy = true ∧ (∀ K e, e ∈ (t.cluster K).tlb ↔ e ∈ (s.cluster K).tlb ∧ ¬ toDrop s asid ranged e) ∧
    isDue t .invalidationDone ∧ memSame s t ∧ t.ctxs = s.ctxs ∧ t.accs = s.accs

/-- A granule of a region. -/
def hasGranule (r : Region) (idx : Nat) (st : GranSt) : Prop := ∃ g ∈ r.gran, g.idx = idx ∧ g.st = st

/-- No copy of a granule's lines is left in a region. -/
def granuleGone (s : State) (r : Region) (n : Nat) : Prop := ∀ i < 16, lineFree s r (s.granLine (n * 4096) i / 256)

/-- A fault of an access is recorded in its context, to be taken at a release point; `dest`: at a MARK (R445, R446). -/
def deferredFault (t : State) (a : Access) (cause : Nat) (dest : Bool) : Prop :=
  ∃ d ∈ (t.ctx a.cl a.ctx).defer, bitsAt d.tcause.toNat 0 16 = cause ∧ d.dest = dest

/-- A plain access of a context whose record of faults has room. -/
def plainAccess (s : State) (a : Access) : Prop :=
  a.eng = 0 ∧ a.spec = false ∧ a.isLdx = false ∧ (a.op = .load ∨ a.op = .store) ∧
    (∀ r d, a.dst ≠ .watch r d) ∧ (∀ x y z, a.dst ≠ .tile x y z) ∧ (s.ctx a.cl a.ctx).wait ≠ .exit ∧
    (s.ctx a.cl a.ctx).defer.length < 8

/-- The homes of a granule's lines answer a request of a region that holds the granule: no line is locked, and what they take
back of it leaves s2, in which no directory is full and the granule is there. -/
def homesAnswer (s s2 : State) (k r idx pa : Nat) (write : Bool) : Prop :=
  let lines := (List.range 16).map fun i => s.granLine pa i / 256
  (∀ l ∈ lines, s.lineLocked l = false) ∧ s.granReady pa lines (some (k, r)) (!write) = some s2 ∧
    (∀ i, (s2.slice i).dir.length < 32768) ∧ ∃ g ∈ ((s2.cluster k).region r).gran, g.idx = idx

def pagingEvents (s s1 : State) (n : Nat) (a : Access) (p : WalkPath) (asid : BitVec 12) (k : ClusterNo) (q : StashReq)
    (K C : Nat) (r : PagerReq) (tc : BitVec 32) (ti : BitVec 64) (big : Bool) (pa pte lvl cause : Nat) (bs : List Byte)
    (since : Nat) : Prop :=
  let m := s.forme
  let reg := (s.cluster k.toNat).region q.region
  let asked := k.toNat < s.nclus ∧ s.injects k.toNat = true ∧
    ((s.cluster k.toNat).stashReqs.find? fun z => z.id == n) = some q ∧ q.failed = none ∧
    reg.mode = .stash ∧ reg.map = some (q.va - q.idx * 4096, q.asid) ∧ reg.hasGran q.idx q.write = false
  let need : Need := if q.write = true then .write else .read
  eventsHold s <| [
   (.pageWalk n, s.acc? n = some a ∧ a.tr = .pending ∧ s.injects a.cl = true ∧ a.op = .load ∧ a.va < 2 ^ 52 ∧
      (s.cluster a.cl).tlbFind a.asid a.va .read = none ∧ p.stands s a.asid a.va ∧ bitAt p.leaf 2 = true ∧
      windowCode (p.pa a.va) (bitsAt p.leaf 8 2) ∧ (s.window (p.pa a.va)).isSome = true,
    fun t => (∃ y ∈ t.accs, y.id = n ∧ y.tr = .ok (p.pa a.va) (bitsAt p.leaf 8 2)) ∧
      (∃ e ∈ (t.cluster a.cl).tlb, e.asid = a.asid ∧ e.vpage = a.va / 65536 ∧ e.big = false) ∧
      (a.st = .sent → isDue t (.homeAccess n)) ∧ t.ctxs = s.ctxs),
   (.pageWalk n, s.acc? n = some a ∧ a.tr = .pending ∧ s.injects a.cl = true ∧ plainAccess s a ∧ s.xlate a.cl a.asid a.va a.needs = (.fault cause, s1) ∧
      cause < 2 ^ 16 ∧ cause ≠ 0x25,
    fun t => deferredFault t a cause false),
   (.pageWalk n, s.acc? n = some a ∧ (a.tr ≠ .pending ∨ s.injects a.cl = false), fun t => t = s),
   (.invAll, s.isReady = true ∧ m.invbusy = false, fun t => invalidating s t none false),
   (.invAsid asid, s.isReady = true ∧ m.invbusy = false, fun t => invalidating s t (some asid.toNat) false),
   (.invRange asid, s.isReady = true ∧ m.invbusy = false, fun t => invalidating s t (some asid.toNat) true),
   (.invAll, m.invbusy = true ∨ s.isReady = false, fun t => t = s),
   (.invAsid asid, m.invbusy = true ∨ s.isReady = false, fun t => t = s),
   (.invRange asid, m.invbusy = true ∨ s.isReady = false, fun t => t = s),
   (.invalidationDone, m.invbusy = true ∧ (∀ id ∈ m.invwait, ∀ y, s.acc? id = some y → y.overAt 3 = true),
    fun t => calm s t ∧ t.forme.invbusy = false),
   (.invalidationDone, s.acc? n = some a ∧ a.overAt 3 = false ∧ n ∈ m.invwait, fun t => t = s)] ++
  [(.bounceWrite n, s.acc? n = some a ∧ a.tr = .nonres ∧ a.eng ≠ 0 ∧ (s.job? a.cl (a.eng - 1)).isSome = true ∧ a.op = .store ∧ a.over = false ∧
      s.walk a.asid a.va = .nonres pa pte lvl ∧ m.bbWait = [] ∧ m.bounce.length < 2 ^ 20 ∧ a.va % 256 + a.data.length ≤ 256,
    fun t => (∃ b ∈ t.forme.bounce, b.asid = a.asid ∧ b.vline = a.va / 256 ∧ ∀ i < a.data.length,
        b.mask.getLsbD (a.va % 256 + i) = true ∧ bitsAt b.data.toNat (8 * (a.va % 256 + i)) 8 = (a.data.getD i 0).toNat) ∧
      (∃ y ∈ t.accs, y.id = n ∧ y.st = .performed) ∧ memSame s t ∧ t.ctxs = s.ctxs),
   (.bbfullRecord n, (m.bbWait.find? fun w => w.1 == n) = some (n, since) ∧ since + 2 ^ 20 ≤ s.cycle,
    fun t => (n, since + 2 ^ 20) ∈ t.forme.bbWait ∧ t.ctxs = s.ctxs),
   (.bbfullRecord n, (m.bbWait.find? fun w => w.1 == n) = some (n, since) ∧ s.cycle < since + 2 ^ 20, fun t => t = s),
   -- Firmware makes the page resident in two steps: it holds the page and invalidates its translations, then fills it (R176).
   (.pagerResolve n, (m.pager.find? fun z => z.id == n) = some r ∧ r.leaf = none ∧ s.walk r.asid (r.vpage * 2 ^ 16) = .nonres pa pte lvl ∧
      m.invbusy = false,
    fun t => (∃ z ∈ t.forme.pager, z.id = n ∧ z.leaf = some (pa, pte, if lvl = 1 then 2 ^ 25 else 2 ^ 16)) ∨
      ∀ z ∈ t.forme.pager, z.id ≠ n),
   (.pagerResolve n, (m.pager.find? fun z => z.id == n) = some r ∧ r.leaf = some (pa, pte, lvl) ∧ m.invbusy = false ∧
      s.agentFree pa 8 = true ∧ s.agentFree (framePa pte lvl) lvl = true ∧
      (s.reclaimAll (s.linesOf (framePa pte lvl) lvl) none false).isSome = true ∧ C < 4 ∧ (s.ctx K C).wait = .pager n tc ti ∧ K / 4 ∉ m.haltedChips,
    fun t => (t.ctx K C).st = .ready ∧ (t.ctx K C).wait = .none ∧ ∀ z ∈ t.forme.pager, z.id ≠ n),
   (.pagerResolve n, (m.pager.find? fun z => z.id == n) = some r ∧ r.leaf = some (pa, pte, lvl) ∧
      (m.invbusy = true ∨ s.agentFree pa 8 = false ∨ s.agentFree (framePa pte lvl) lvl = false ∨
        s.reclaimAll (s.linesOf (framePa pte lvl) lvl) none false = none), fun t => t = s),
   (.pagerResolve n, (m.pager.find? fun z => z.id == n) = some r ∧ r.leaf = none ∧ s.walk r.asid (r.vpage * 2 ^ 16) = .page big pa pte ∧
      C < 4 ∧ (s.ctx K C).wait = .pager n tc ti ∧ K / 4 ∉ m.haltedChips,
    fun t => (t.ctx K C).st = .ready ∧ (t.ctx K C).wait = .none ∧ (∀ z ∈ t.forme.pager, z.id ≠ n) ∧ memSame s t),
   (.stashGranuleFill k n, asked ∧ s.xlate k.toNat q.asid q.va need = (.nonres, s1) ∧ q.write = false ∧
      s1.bounceBytes q.asid q.va 4096 = some bs,
    fun t => hasGranule ((t.cluster k.toNat).region q.region) q.idx .shared ∧
      (∀ i < 4096, ((t.cluster k.toNat).region q.region).store.get (q.idx * 4096 + i) = bs.getD i 0) ∧
      ∀ z ∈ (t.cluster k.toNat).stashReqs, z.id ≠ n),
   (.stashGranuleFill k n, asked ∧ s.xlate k.toNat q.asid q.va need = (.ok pa 0, s1) ∧
      (∃ g ∈ ((s1.cluster k.toNat).region q.region).gran, g.idx = q.idx ∧ g.pa = some pa) ∧
      (∃ s2, homesAnswer s1 s2 k.toNat q.region q.idx pa q.write),
    fun t => hasGranule ((t.cluster k.toNat).region q.region) q.idx .exclusive ∧
      ∀ z ∈ (t.cluster k.toNat).stashReqs, z.id ≠ n),
   (.stashGranuleFill k n, asked ∧ s.xlate k.toNat q.asid q.va need = (.ok pa 1, s1) ∧
      (s1.cluster k.toNat).stashReqs = (s.cluster k.toNat).stashReqs,
    fun t => ∃ z ∈ (t.cluster k.toNat).stashReqs, z.id = n ∧ z.failed = some 0x23),
   (.granuleInvalidate k n, k.toNat < s.nclus ∧ n * 4096 < 0x200000000000 ∧ (s.dropReady k.toNat n).isSome = true,
    fun t => (∀ i, granuleGone t ((t.cluster k.toNat).region i) n) ∧ t.accs = s.accs ∧ (k.toNat, n) ∉ t.forme.invals),
   -- With no dirty granule of it in the cluster nothing is written back by a virtual address (R162).
   (.granuleInvalidate k n, k.toNat < s.nclus ∧ n * 4096 < 0x200000000000 ∧ (s.dropReady k.toNat n) = some s,
    fun t => t.ctxs = s.ctxs ∧ t.accs = s.accs ∧ t.hostMem = s.hostMem),
   (.granuleInvalidate k n, k.toNat < s.nclus ∧ n * 4096 < 0x200000000000 ∧ s.dropReady k.toNat n = none,
    fun t => calm s t ∧ (k.toNat, n) ∈ t.forme.invals),
   (.granuleInvalidate k n, k.toNat < s.nclus ∧ 0x200000000000 ≤ n * 4096, fun t => t = s)]

/-! ## Accesses at their homes, messages, replies, and what returns (R155 to R158, R177 to R184, R194 to R201, R209 to R223, R446,
R466, R470, R478) -/

/-- An access of a context to device memory that its home may perform at once, without a line of its own: no region holds
its line, no event or fill of it is on its way, nothing waits for it, no rule of R466 refuses it, and its launch has reached no
line by both aliases (R156). Its hint is BYP; the other hints add only the line that the slice brings in (R158). -/
def homeReady (s : State) (a : Access) (pa : Nat) : Prop :=
  let lin := s.linear pa
  let h := s.home lin
  a.tr = .ok pa 0 ∧ a.over = false ∧ a.st = .sent ∧ s.mayPerformAll a = true ∧ a.eng = 0 ∧ a.isLdx = false ∧ a.hint = .byp ∧
    a.missDone = true ∧ a.redirect = none ∧ s.refusal a pa = none ∧ s.laterPort a = false ∧ (∀ e ∈ s.forme.broken, e.1 ≠ a.launch) ∧
    s.linePoison lin = false ∧ (s.slice h).down = false ∧ (s.slice h).locked (lin / 256) = false ∧ (s.slice h).held = [] ∧
    (s.slice h).filling (lin / 256) = false ∧ (s.slice h).missing (lin / 256) = false ∧
    (∀ e ∈ s.otherRegions none, lineFree s ((s.cluster e.1).region e.2) (lin / 256)) ∧ s.cacheHit a.cl a.ctx a.asid a.va = none ∧ lin % 256 + a.len ≤ 256 ∧ (∀ b ∈ s.accs, b.heldBy a.cl a.ctx = false)

/-- The value of a register loaded from bytes: zero- or sign-extended (R317). -/
def extended (bs : List Byte) (sx : Bool) : Word :=
  .ofInt 64 (if sx = true ∧ 2 ^ (8 * bs.length - 1) ≤ ofBytes bs then (ofBytes bs : Int) - 2 ^ (8 * bs.length) else ofBytes bs)

def homeEvents (s : State) (n : Nat) (a : Access) (pa : Nat) (d : SReg) (sx : Bool) (pd : Pend) (w : RedWin) (x : BitVec 64)
    (sl : BitVec 9) (f : Fill) (tok : BitVec 64) (mt : Nat) (e : Ev) (es : List Ev) (bud ent : Nat) (r : Run) (y : Reply) : Prop :=
  let lin := s.linear pa
  let h := sl.toNat
  let sn := s.slice h
  let host := pa - 0x200000000000
  eventsHold s <| [
   (.homeAccess n, s.acc? n = some a ∧ a.op = .store ∧ a.dst = .none ∧ a.data.length = a.len ∧ homeReady s a pa,
    fun t => (∀ i < a.len, t.homeByte (lin + i) = a.data.getD i 0) ∧
      (∀ j, j < lin ∨ lin + a.len ≤ j → t.homeByte j = s.homeByte j) ∧ t.hostMem = s.hostMem ∧ t.ctxs = s.ctxs),
   (.homeAccess n, s.acc? n = some a ∧ a.op = .load ∧ a.dst = .s d sx ∧ homeReady s a pa,
    fun t => (∃ z ∈ t.accs, z.id = n ∧ z.st = .performed ∧ z.data = (List.range a.len).map fun i => s.homeByte (lin + i)) ∧
      isDue t (.farLoadReturn n) ∧ memSame s t ∧ t.ctxs = s.ctxs),
   (.homeAccess n, s.acc? n = some a ∧ a.tr = .ok pa 1 ∧ a.over = false ∧ a.st = .sent ∧ s.mayPerformAll a = true ∧
      (a.op = .load ∨ a.op = .store) ∧ (s.slice (host / 256 % 48)).down = false ∧
      s.laterPort a = false ∧ (∀ b ∈ s.accs, b.st ≠ .home),
    fun t => (∃ z ∈ t.accs, z.id = n ∧ z.st = .home) ∧ isDue t (.hostCompletion n) ∧ memSame s t ∧ t.ctxs = s.ctxs),
   (.homeAccess n, s.acc? n = some a ∧ (a.over = true ∨ a.st = .held ∨ s.mayPerformAll a = false), fun t => t = s),
   -- Of accesses that arrive at a line together, that of the earlier port is performed first (R183).
   (.homeAccess n, s.acc? n = some a ∧ (a.tr = .ok pa 0 ∨ a.tr = .ok pa 1) ∧ (a.op = .load ∨ a.op = .store) ∧ s.laterPort a = true,
    fun t => t = s),
   (.reductionShadowAdd n, s.acc? n = some a ∧ a.op = .red .fadd x ∧ a.tr = .ok pa 0 ∧ s.windowAt pa = some w ∧ a.over = false ∧
      a.st = .home ∧ s.mayPerformAll a = true,
    fun t => memSame s t ∧ t.ctxs = s.ctxs ∧ t.forme.windows = s.forme.windows.map fun v => if v.wid = w.wid then
      { v with shadows := sset Shadow.zero v.shadows pa ((sget Shadow.zero v.shadows pa).add (x.toNat % 2 ^ 32)) } else v),
   (.hostCompletion n, s.acc? n = some a ∧ a.op = .store ∧ a.dst = .none ∧ a.tr = .ok pa 1 ∧ a.st = .home,
    fun t => (∀ i < a.data.length, t.hostByte (host + i) = a.data.getD i 0) ∧ onlyHost s t host a.data.length ∧ t.ctxs = s.ctxs),
   (.hostCompletion n, s.acc? n = some a ∧ a.op = .load ∧ a.dst = .s d sx ∧ a.tr = .ok pa 1 ∧ a.st = .home ∧ a.eng = 0 ∧
      (∀ b ∈ s.accs, b.heldBy a.cl a.ctx = false),
    fun t => (∃ z ∈ t.accs, z.id = n ∧ z.st = .performed ∧ z.data = (List.range a.len).map fun i => s.hostByte (host + i)) ∧
      memSame s t ∧ t.ctxs = s.ctxs),
   (.hostErrorCompletion n, s.acc? n = some a ∧ a.tr = .ok pa 1 ∧ a.st = .home ∧ a.eng = 0,
    fun t => (∃ z ∈ t.accs, z.id = n ∧ z.st = .refused) ∧ isDue t (.destinationFaultReport n) ∧ t.ctxs = s.ctxs)] ++
  [(.farLoadReturn n, n ∉ s.forme.late ∧ s.acc? n = some a ∧ a.st = .performed ∧ a.eng = 0 ∧ a.owed = false ∧ a.dst = .s d sx ∧
      a.len = a.data.length ∧ a.len ∈ [1, 2, 4, 8] ∧ a.tag ≠ 0 ∧ (∀ b ∈ s.accs, b.tag = a.tag → b.id = n) ∧
      pd ∈ (s.ctx a.cl a.ctx).pend ∧ pd.tag = a.tag,
    fun t => { pd with val := (extended a.data sx).setWidth 1024, ready := true } ∈ (t.ctx a.cl a.ctx).pend ∧
      (∀ z ∈ t.accs, z.id ≠ n) ∧ memSame s t),
   (.farLoadReturn n, s.acc? n = some a ∧ a.st ≠ .performed, fun t => t = s),
   (.destinationFaultReport n, n ∉ s.forme.late ∧ s.acc? n = some a ∧ a.st = .refused ∧ a.op = .store ∧ plainAccess s a ∧
      a.owed = false ∧ a.tr = .ok pa 0 ∧ s.holdsGroup a.cl a.ctx a.bnd = true,
    fun t => deferredFault t a 0x24 true ∧ (∀ z ∈ t.accs, z.id ≠ n) ∧ memSame s t),
   (.lateResponseDiscard n, n ∈ s.forme.late ∧ s.acc? n = some a ∧ a.over = true,
    fun t => n ∉ t.forme.late ∧ (∀ z ∈ t.accs, z.id ≠ n) ∧ memSame s t ∧ t.ctxs = s.ctxs ∧ t.clusters = s.clusters),
   (.lateResponseDiscard n, n ∉ s.forme.late, fun t => t = s)] ++
  [(.channelFillArrival sl n, (sn.fills.find? fun z => z.line == n) = some f ∧
      (f.tenant = none ∨ f.noev = true) ∧ n ∉ s.memPoison ∧ (∃ l ∈ sn.lines, l.line = n),
    fun t => (∃ l ∈ (t.slice h).lines, l.line = n ∧ l.filling = false ∧ l.poison = false ∧
        l.data = .ofNat 2048 (ofBytes ((List.range 256).map fun i => s.dram (n * 256 + i)))) ∧
      (∀ z ∈ (t.slice h).fills, z.line ≠ n) ∧ memSame s t ∧ t.ctxs = s.ctxs),
   (.hmsgArrival n, s.acc? n = some a ∧ a.op = .hmsg tok ∧ a.tr = .ok pa mt ∧ a.over = false ∧ a.st = .sent ∧ s.mayPerformAll a = true ∧
      (∀ b ∈ s.accs, b.id = n ∨ ∀ z, b.op ≠ .hmsg z) ∧ (∀ b ∈ s.accs, b.id = n → b.ord = a.ord) ∧
      s.home lin = h ∧ sn.inbound < 32 ∧ sn.events.length < 64,
    fun t => (∃ v, (t.slice h).events = sn.events ++ [v] ∧ v.kind = 3 ∧ v.tenant = a.tenant ∧ v.laddr = lin / 256 * 256 ∧
        v.rtoken = tok ∧ v.msg = .ofNat 512 (ofBytes a.data)) ∧ isDue t (.handlerDispatch sl) ∧ memSame s t ∧ t.ctxs = s.ctxs),
   (.handlerDispatch sl, sn.run = none ∧ sn.events = e :: es ∧ sn.down = false ∧
      s.handlerFor h e.tenant e.kind e.cls = some (bud, ent),
    fun t => (t.slice h).events = es ∧ (t.slice h).seqn = sn.seqn + 1 ∧ memSame s t ∧ t.ctxs = s.ctxs ∧
      ∃ z, (t.slice h).run = some z ∧ z.ev = e ∧ z.pc = (s.codePart e.tenant).1 + ent ∧ z.used = 0 ∧ z.bud = bud ∧
        z.reg 10 = (s.dataPart e.tenant).1 % 2 ^ 64 ∧ z.reg 11 = e.laddr % 2 ^ 64 ∧ (∀ i, i ≠ 10 → i ≠ 11 → z.reg i = 0) ∧
        ofBytes ((t.slice h).data.read (s.dataPart e.tenant).1 4) = (e.kind + e.tenant * 16 + e.cls * 256) % 2 ^ 32 ∧
        ofBytes ((t.slice h).data.read ((s.dataPart e.tenant).1 + 8) 8) = e.laddr % 2 ^ 64),
   (.handlerDispatch sl, sn.run = some r, fun t => t = s),
   (.handlerBudgetAbort sl, sn.run = some r ∧ r.bud ≤ r.used ∧ r.ev.kind = 3,
    fun t => (t.slice h).run = none ∧ sget 0 (t.slice h).cnt (4 * r.ev.tenant) = sget 0 sn.cnt (4 * r.ev.tenant) + 1 ∧
      isDue t (.handlerDispatch sl)),
   (.handlerBudgetAbort sl, sn.run = some r ∧ r.used < r.bud, fun t => t = s),
   (.replyDelivery n, s.forme.replies[n]? = some y ∧
      (let K := bitsAt y.token.toNat 54 9
       let C := bitsAt y.token.toNat 52 2
       let z := s.ctx K C
       z.st = .ready ∧ z.bnd.gen.toNat = bitsAt y.token.toNat 36 16 ∧
        z.bnd.localOk (bitsAt y.token.toNat 6 17 * 64) 64 = true ∧
        ((s.cluster K).region (z.bnd.localPhys (bitsAt y.token.toNat 6 17 * 64) / 2 ^ 17)).mode = .plain),
    fun t => let K := bitsAt y.token.toNat 54 9
      let C := bitsAt y.token.toNat 52 2
      let b := (s.ctx K C).bnd
      ofBytes ((t.cluster K).locRead (b.localPhys (bitsAt y.token.toNat 6 17 * 64)) 64) = y.bytes.toNat ∧
        (t.ctx K C).regs.f.getLsbD (bitsAt y.token.toNat 30 6) = true ∧ memSame s t),
   (.replyDelivery n, s.forme.replies[n]? = some y ∧
      (s.ctx (bitsAt y.token.toNat 54 9) (bitsAt y.token.toNat 52 2)).bnd.gen.toNat ≠ bitsAt y.token.toNat 36 16,
    fun t => sget 0 (t.slice y.slice).cnt (4 * y.tenant + 3) = sget 0 (s.slice y.slice).cnt (4 * y.tenant + 3) + 1 ∧
      t.ctxs = s.ctxs)]

end Sys2Proof.Claims

/-- R150 to R152, R162 to R164, R172 to R176, R448, R467, R500: the events of translation, of the bounce buffer, of the pager and
of granules complete: a walk of valid tables translates an access; a fault is recorded; an invalidation drops exactly the
matching entries; a bounced write keeps its bytes; a context whose page is resident goes on; a granule enters its region, or
leaves it, or its invalidation waits. The model's choices: every TLB loses its entries at the command (log 81), the pager's two
steps (log 27), PHYS for a fill outside device memory (log 91), a walk in one step (log 76), and a granule from the bounce buffer
Shared (log 103). -/
def Obligations.PagingEvents : Prop :=
  ∀ (s s1 : Sys2Proof.Machine.State) (n : Nat) (a : Sys2Proof.Machine.Access) (p : Sys2Proof.Claims.WalkPath) (asid : BitVec 12)
      (k : Sys2Proof.ClusterNo) (q : Sys2Proof.Machine.StashReq) (K C : Nat) (r : Sys2Proof.Machine.PagerReq)
      (tc : BitVec 32) (ti : BitVec 64) (big : Bool) (pa pte lvl cause : Nat) (bs : List Sys2Proof.Byte) (since : Nat),
    Sys2Proof.Claims.pagingEvents s s1 n a p asid k q K C r tc ti big pa pte lvl cause bs since

/-- R155 to R158, R177 to R184, R194 to R201, R209 to R223, R315, R317, R446, R466, R470, R478: the events of the slices and of the
host's memory complete: an access performs at its home when the ordering rules let it, and a store changes its own bytes
alone; a load's value reaches its register; a RED adds to its shadow; a refusal reaches its group; a message, an event, an
exhausted budget and a reply have the effects of their rules. The model's choices: which accesses arrive at a line together
(log 90), and that a host access is taken up before it is completed (log 26); the clauses of an access at its home are for the
hint BYP. -/
def Obligations.HomeEvents : Prop :=
  ∀ (s : Sys2Proof.Machine.State) (n : Nat) (a : Sys2Proof.Machine.Access) (pa : Nat) (d : Sys2Proof.SReg) (sx : Bool)
      (pd : Sys2Proof.Machine.Pend) (w : Sys2Proof.Machine.RedWin) (x : BitVec 64) (sl : BitVec 9) (f : Sys2Proof.Machine.Fill)
      (tok : BitVec 64) (mt : Nat) (e : Sys2Proof.Machine.Ev) (es : List Sys2Proof.Machine.Ev) (bud ent : Nat)
      (r : Sys2Proof.Machine.Run) (y : Sys2Proof.Machine.Reply),
    Sys2Proof.Claims.homeEvents s n a pa d sx pd w x sl f tok mt e es bud ent r y

namespace Sys2Proof.Claims
open Sys2Proof.Machine

/-! ## The copy engine (R337 to R349, R468, R469) -/

/-- A job is gone. -/
def jobGone (t : State) (K n : Nat) : Prop := ∀ z ∈ (t.cluster K).copies, z.id ≠ n

/-- A job of the cluster, at the front of its context's jobs. -/
def jobAt (s : State) (K n : Nat) (y : Copy) : Prop := K < s.nclus ∧ s.job? K n = some y

/-- May a job move: the first of its context, held back by no ordering point, its cluster running (R188, R197, R337)? -/
def jobMoves (s : State) (K : Nat) (y : Copy) : Prop := s.jobFirst K y = true ∧ s.jobFree y = true ∧ s.runs K = true

/-- Does a copy's turn to begin come: no earlier range entry meets its own, and no held write its source (R171, R337)? -/
def copyMoves (s : State) (K n : Nat) (y : Copy) : Prop :=
  jobMoves s K y ∧ (s.cluster K).jobBlocked n = false ∧ s.heldOver K y = false

/-- The bytes of a segment that lies in local store or tiles (R335). -/
def hereBytes (s : State) (K : Nat) (b : Binding) (sp : Nat) (g : Nat × Nat) : List Byte :=
  match s.reach K b sp g.1 g.2 false with
  | .here sp' p => if sp' = 2 then (s.cluster K).tileRead p g.2 else (s.cluster K).locRead p g.2
  | _ => []

/-- The job's group is bound where it was, with room for a fault. -/
def jobHome (s : State) (K : Nat) (y : Copy) : Prop :=
  s.holdsGroup K y.ctx y.bnd = true ∧ (s.ctx K y.ctx).wait ≠ .exit ∧ (s.ctx K y.ctx).defer.length < 8

/-- ENGINE recorded for a job, to be taken at a MARK (R446, R468). -/
def engineFault (t : State) (K : Nat) (y : Copy) : Prop :=
  ∃ d ∈ (t.ctx K y.ctx).defer, bitsAt d.tcause.toNat 0 16 = 0x25 ∧ d.dest = true

/-- The job's flag is set in its context (R338). -/
def jobFlag (t : State) (K : Nat) (y : Copy) : Prop :=
  ∀ f, y.flag = some f → (t.ctx K y.ctx).regs.f.getLsbD f.toNat = true

/-- The regions that a RESHAPE drains: its own, and the context's other CACHE regions when the set of them changes (R161). -/
def reshapeRegions (s : State) (K : Nat) (y : Copy) (r : Nat) (mode : RegMode) : List Nat :=
  r :: if (((s.cluster K).region r).mode = .cache) ≠ (mode = .cache) then (s.cacheRegions K y.ctx).filter fun x => x != r else []

/-- The regions drained one after another. -/
def drained (s : State) (K : Nat) (y : Copy) (rs : List Nat) : Option State :=
  rs.foldl (fun t x => t.bind fun s => s.drainRegion K y x false) (some s)

/-- The number of dirty lines of regions. -/
def dirtyCount (s : State) (K : Nat) (rs : List Nat) : Nat := (rs.map fun x => ((s.cluster K).region x).dirtyLines.length).sum

/-- The result of RWIN in its context: RWST and RWID of CSTAT (R349). -/
def rwinResult (t : State) (K : Nat) (y : Copy) (st : Nat) : Prop :=
  bitsAt (t.ctx K y.ctx).regs.cstat.toNat 8 3 = st

def engineEvents (s : State) (k : ClusterNo) (g : GalleyNo) (n : Nat) (y : Copy) (c : CpyKind) (bs : List Byte) (p va len tag : Nat)
    (a : Access) (x : Galley) (v : VWord) (r base wid : Nat) (mode : RegMode) (keep : Bool) : Prop :=
  let K := k.toNat
  let side := srcPattern y.desc
  let segs := sourceSegs c y.desc []
  let w := copyBytes c y.desc y.mdata bs
  let old := (s.ctx K y.ctx).regs.cstat
  let parts := if side.space = 0 then byteRuns segs else segs
  let all := sourceSegs c y.desc y.mdata
  let turn := jobAt s K n y ∧ jobMoves s K y
  eventsHold s <| [
   (.copyDispatch k n, jobAt s K n y ∧ y.op.kind? = some c ∧ y.st = .queued ∧ ¬ copyMoves s K n y, fun t => t = s),
   (.copyDispatch k n, jobAt s K n y ∧ y.op.kind? = some c ∧ y.st = .queued ∧ copyMoves s K n y ∧ copyRefused c y.desc = true ∧
      jobHome s K y,
    fun t => jobGone t K n ∧ engineFault t K y ∧ jobFlag t K y),
   (.copyDispatch k n, jobAt s K n y ∧ y.op.kind? = some c ∧ c ≠ .cpye ∧ y.st = .queued ∧ copyMoves s K n y ∧
      copyRefused c y.desc = false ∧ intact s y.bnd.launch ∧
      (∀ z ∈ segs ++ parts, ∃ sp' q, s.reach K y.bnd side.space z.1 z.2 false = .here sp' q),
    fun t => isDue t (.copyDispatch k n) ∧ memSame s t ∧ t.ctxs = s.ctxs ∧ ∃ z ∈ (t.cluster K).copies, z.id = n ∧
      z.st = .reading ∧ z.desc = y.desc ∧ ∃ out, t.collect z segs = some out ∧ out.length = (segAddrs segs).length ∧
        ∀ (j i : Nat), (segAddrs segs)[j]? = some i → ∃ g ∈ parts, g.1 ≤ i ∧ i < g.1 + g.2 ∧
          out[j]? = (hereBytes s K y.bnd side.space g)[i - g.1]?),
   (.copyDispatch k n, jobAt s K n y ∧ y.op.kind? = some c ∧ y.st = .reading ∧ s.collect y all = none, fun t => t = s),
   (.copyDispatch k n, jobAt s K n y ∧ y.op.kind? = some c ∧ y.st = .reading ∧ s.collect y all = some bs ∧
      destSegs c y.desc = [(va, len)] ∧ 0 < len ∧
      (∀ i < len, s.reach K y.bnd (c.dst y.desc).space (va + i) 1 true = .here 1 (p + i)) ∧ w.1.length = len ∧
      s.vspot K y.bnd (c.dst y.desc).space va = none,
    fun t => (t.cluster K).locRead p len = w.1 ∧
      (∀ j, j < p ∨ p + len ≤ j → (t.cluster K).locRead j 1 = (s.cluster K).locRead j 1) ∧ isDue t (.copyComplete k n) ∧
      (∃ z ∈ (t.cluster K).copies, z.id = n ∧ z.st = .writing ∧ z.cstat = w.2) ∧ memSame s t ∧ t.ctxs = s.ctxs),
   (.copyComplete k n, jobAt s K n y ∧ y.op.kind? = some c ∧ y.st = .writing ∧ s.jobDone n = true ∧ jobHome s K y ∧ y.owed = false,
    fun t => jobGone t K n ∧ (t.ctx K y.ctx).regs.cstat = old ||| y.cstat ∧ jobFlag t K y ∧ memSame s t),
   (.copyComplete k n, jobAt s K n y ∧ (y.st ≠ .writing ∨ s.jobDone n = false), fun t => t = s),
   (.engineAccessAbandon n, (s.accs.find? fun b => b.ofJob n && b.st == .refused) = some a ∧ jobAt s a.cl n y ∧ jobHome s a.cl y ∧
      s.tearFree n = true,
    fun t => jobGone t a.cl n ∧ engineFault t a.cl y ∧ jobFlag t a.cl y ∧
      ∀ b ∈ t.accs, b.ofJob n = true → b.accepted = true),
   -- What an abandoned write leaves waits for a locked line, and for writebacks that must wait (R220).
   (.engineAccessAbandon n, (s.accs.find? fun b => b.ofJob n && b.st == .refused) = some a ∧ jobAt s a.cl n y ∧
      s.tearFree n = false, fun t => t = s),
   (.engineAccessAbandon n, (∀ b ∈ s.accs, b.ofJob n = true → b.st ≠ .refused), fun t => t = s)] ++
  [(.galleyFill k g, K < s.nclus ∧ (s.cluster K).copies = [y] ∧ y.op = .gfill g.toNat tag ∧ y.st = .reading ∧
      y.owed = false ∧ s.collect y (segsOf y.gesz y.gaddrs) = some bs,
    fun t => jobGone t K y.id ∧ memSame s t ∧ (t.cluster K).galleys = (s.cluster K).galleys.map fun e =>
      (e.1, { e.2 with q := e.2.q.map fun z => if z.1 = tag then (tag, some (.ofNat 1024 (ofBytes bs))) else z })),
   (.galleyFill k g, K < s.nclus ∧ (s.cluster K).copies = [y] ∧ y.op = .gstore g.toNat v ∧ y.st = .writing ∧
      y.owed = false ∧ s.jobDone y.id = true ∧ (s.cluster K).galleys = [(g.toNat, x)] ∧ (x.q.head?.map (·.1)) = some y.id,
    fun t => jobGone t K y.id ∧ memSame s t ∧
      (t.cluster K).galleys = [(g.toNat, { x with q := x.q.tail, pos := x.pos + y.gaddrs.length })]),
   (.galleyFill k g, K < s.nclus ∧ (s.cluster K).copies = [] ∧ (s.cluster K).galleys.lookup g.toNat = none, fun t => t = s)] ++
  [(.engineOpComplete k n, jobAt s K n y ∧ ¬ jobMoves s K y, fun t => t = s),
   (.engineOpComplete k n, turn ∧ jobHome s K y ∧ y.owed = false ∧ (y.op = .unbind Option.none ∨ y.op = .bind Option.none),
    fun t => jobGone t K n ∧ jobFlag t K y ∧ memSame s t ∧ t.accs = s.accs.filter fun b => !b.ofJob n || b.accepted),
   (.engineOpComplete k n, turn ∧ y.op = .reshape r mode ∧ y.st = .writing ∧ y.due ≤ s.cycle ∧ y.owed = false,
    fun t => ((t.cluster K).region r).mode = mode ∧ jobGone t K n ∧ memSame s t),
   (.engineOpComplete k n, turn ∧ y.op = .reshape r mode ∧ y.st = .writing ∧ s.cycle < y.due, fun t => t = s),
   (.engineOpComplete k n, turn ∧ y.op = .reshape r mode ∧ y.st = .queued ∧
      ((s.cluster K).jobBlocked y.id = true ∨ s.regionPending K (reshapeRegions s K y r mode) y = true), fun t => t = s),
   (.engineOpComplete k n, turn ∧ y.op = .reshape r mode ∧ y.st = .queued ∧ (s.cluster K).jobBlocked y.id = false ∧
      s.regionPending K (reshapeRegions s K y r mode) y = false ∧ (drained s K y (reshapeRegions s K y r mode)).isSome = true,
    fun t => (∃ z ∈ (t.cluster K).copies, z.id = n ∧ z.st = .writing ∧
        z.due = s.cycle + 64 + 2 * dirtyCount s K (reshapeRegions s K y r mode)) ∧ ((t.cluster K).region r).map = none ∧
      ∀ x ∈ reshapeRegions s K y r mode, ((t.cluster K).region x).lines = [] ∧ ((t.cluster K).region x).gran = []),
   (.engineOpComplete k n, turn ∧ y.op = .stash r base ∧ ((s.cluster K).region r).map = none ∧ y.owed = false,
    fun t => ((t.cluster K).region r).map = some (base, y.bnd.asid) ∧ jobGone t K n ∧ memSame s t),
   (.engineOpComplete k n, turn ∧ y.op = .cwb r keep ∧ ((s.cluster K).region r).dirtyLines = [] ∧ y.owed = false,
    fun t => jobGone t K n ∧ memSame s t ∧ ((t.cluster K).region r).dirtyLines = [] ∧
      (keep = false → ((t.cluster K).region r).lines = [] ∧ ((t.cluster K).region r).gran = [])),
   (.engineOpComplete k n, turn ∧ y.op = .rwin 0 wid ∧ wid < 4 ∧ jobHome s K y ∧ y.owed = false ∧
      (∃ z ∈ s.forme.windows, z.wid = wid ∧ z.launch = y.bnd.launch),
    fun t => (∀ z ∈ t.forme.windows, z.wid ≠ wid) ∧ rwinResult t K y 0 ∧ jobGone t K n ∧ jobFlag t K y ∧ memSame s t),
   (.engineOpComplete k n, turn ∧ y.op = .rwin 0 wid ∧ jobHome s K y ∧ y.owed = false ∧
      (∀ z ∈ s.forme.windows, z.wid = wid → z.launch ≠ y.bnd.launch),
    fun t => t.forme.windows = s.forme.windows ∧ rwinResult t K y 5 ∧ jobGone t K n ∧ jobFlag t K y ∧ memSame s t),
   (.engineOpComplete k n, turn ∧ y.op = .rwin len wid ∧ 0 < len ∧ jobHome s K y ∧ y.owed = false ∧ 4 ≤ s.forme.windows.length,
    fun t => t.forme.windows = s.forme.windows ∧ 0 < bitsAt (t.ctx K y.ctx).regs.cstat.toNat 8 3 ∧ jobGone t K n ∧
      jobFlag t K y ∧ memSame s t),
   (.engineOpComplete k n, turn ∧ y.op = .rwin len wid ∧ 0 < len ∧ jobHome s K y ∧ y.owed = false ∧
      s.rwinStatus (descBits y.desc 2 50 2) (descBits y.desc 0 0 64) (4 * len) = 0 ∧ openTo s (descBits y.desc 0 0 64) (4 * len),
    fun t => rwinResult t K y 0 ∧ jobGone t K n ∧ jobFlag t K y ∧ ∃ z, t.forme.windows = s.forme.windows ++ [z] ∧
      z.base = descBits y.desc 0 0 64 ∧ z.len = 4 * len ∧ z.launch = y.bnd.launch ∧
        bitsAt (t.ctx K y.ctx).regs.cstat.toNat 12 2 = z.wid)]

end Sys2Proof.Claims

/-- R337 to R349, R468, R469: the copy engine's events complete: a copy begins in its turn, reads its source, writes the bytes
that its rule gives and nothing else of local store, and reports; a refused copy and an abandoned job raise ENGINE; a galley's
entry is filled or stored; an unbinding, a mode change, a mapping, a writeback and a window end as their rules say. The model's
choices: a local source is read in one step (log 7), RESHAPE drains in one step and its cycles count from it (log 45), and what
an abandoned job leaves (log 44). -/
def Obligations.EngineEvents : Prop :=
  ∀ (s : Sys2Proof.Machine.State) (k : Sys2Proof.ClusterNo) (g : Sys2Proof.GalleyNo) (n : Nat) (y : Sys2Proof.Machine.Copy)
      (c : Sys2Proof.Machine.CpyKind) (bs : List Sys2Proof.Byte) (p va len tag : Nat) (a : Sys2Proof.Machine.Access)
      (x : Sys2Proof.Machine.Galley) (v : Sys2Proof.VWord) (r base wid : Nat) (mode : Sys2Proof.RegMode) (keep : Bool),
    Sys2Proof.Claims.engineEvents s k g n y c bs p va len tag a x v r base wid mode keep

namespace Sys2Proof.Claims
open Sys2Proof.Machine

/-! ## Chiplets, links, soft errors and the host's memory accesses (R20 to R22, R200, R417, R464, R479 to R485, R493, R494) -/

/-- A record is in the module's error log, or is counted as lost (R462). -/
def logged (s t : State) : Prop := t.forme.eltail = s.forme.eltail + 1 ∨ t.forme.ellost = s.forme.ellost + 1

/-- Every launch is to end with FAULT. -/
def allFault (s t : State) : Prop := ∀ l ∈ s.forme.launches, isDue t (.launchFault l.id)

/-- Are the two planes of one link lost with this plane and direction (R485)? -/
def secondPlane (s : State) (n : Nat) : Prop := ∃ i ∈ s.forme.failover, i / 8 = n / 8 ∧ i / 2 ≠ n / 2

/-- A context whose group ends with an unrestartable fault (R443, R474). -/
def endsFaulted (s t : State) (K C : Nat) : Prop :=
  (t.ctx K C).st = .saving ∧ (t.ctx K C).srsn = 2 ∧ isDue t (.launchFault ((s.ctx K C).bnd.launch - 1))

/-- The host may access device memory at the address: the module READY, the channel and the slice in service (R417, R496). -/
def hostOpen (s : State) (pa : Nat) : Prop :=
  pa < 96 * 2 ^ 33 ∧ pa % 8 = 0 ∧ s.isReady = true ∧ s.badChan (pa / 2 ^ 33) = false ∧ s.hdmOpen pa = true

/-- The slice holds the host's access back: it is down, or an event holds the line (R215, R220). -/
def hostHeld (s : State) (pa : Nat) : Prop :=
  pa < 96 * 2 ^ 33 ∧ pa % 8 = 0 ∧ s.isReady = true ∧ s.badChan (pa / 2 ^ 33) = false ∧ s.hdmOpen pa = false

def moduleEvents (s : State) (x : BitVec 7) (m : BitVec 3) (n T K C pa : Nat) (c : Bool) (v : BitVec 64) : Prop :=
  let X := x.toNat
  let on := X < s.nchips
  let links := s.forme.links
  let e := sget (0, 0) s.forme.cecc
  eventsHold s <| [
   (.chipletResetControlled x, on ∧ s.chip X = .on,
    fun t => t.chip X = .draining ∧ isDue t (.arcStopQuiesce x) ∧ (∀ w ∈ s.boundOn X, t.stopping w.cl w.ctx = true) ∧
      memSame s t ∧ t.clusters = s.clusters),
   (.chipletResetControlled x, on ∧ s.chip X ≠ .on, fun t => t = s),
   (.chipletResetUncontrolled x, on ∧ (s.chip X = .on ∨ s.chip X = .draining),
    fun t => t.chip X = .quiesce s.timer false ∧ isDue t (.arcStopQuiesce x) ∧
      (∀ w ∈ s.boundOn X, isDue t (.launchFault w.l.id)) ∧ (∀ i ∈ s.lostOn X, isDue t (.launchFault i)) ∧
      (∀ i < 4, (t.cluster (4 * X + i)).copies = []) ∧
      (∀ a ∈ t.accs, a.cl / 4 = X → a.st ≠ .held) ∧ memSame s t ∧ t.ctxs = s.ctxs),
   (.chipletResetUncontrolled x, on ∧ s.chip X ≠ .on ∧ s.chip X ≠ .draining, fun t => t = s),
   (.arcStopQuiesce x, on ∧ s.chip X = .draining ∧ s.drained X = true ∧ s.slots = [],
    fun t => t.chip X = .quiesce s.timer true ∧ isDue t (.arcStopQuiesce x) ∧ memSame s t ∧ t.ctxs = s.ctxs ∧
      t.clusters = s.clusters),
   (.arcStopQuiesce x, on ∧ s.chip X = .draining ∧ s.drained X = false, fun t => t = s),
   (.arcStopQuiesce x, on ∧ s.chip X = .quiesce T c ∧ s.slots = [] ∧ (s.respOwed X = false ∨ T + 65536 ≤ s.timer),
    fun t => t.chip X = .inReset ∧ logged s t ∧
      (∀ k, k / 4 = X → t.cluster k = Cluster.reset ∧ ∀ i < 4, t.ctx k i = Ctx.reset) ∧
      (∀ k, k / 4 ≠ X → ∀ i < 4, t.ctx k i = s.ctx k i) ∧ ∀ a ∈ t.accs, a.cl / 4 ≠ X),
   (.arcStopQuiesce x, on ∧ s.chip X = .quiesce T c ∧ s.respOwed X = true ∧ s.timer < T + 65536, fun t => t = s),
   (.arcStopQuiesce x, on ∧ s.chip X = .inReset,
    fun t => (t.chip X = .on ∨ t.chip X = .down) ∧ isDue t .selection ∧ memSame s t ∧ t.ctxs = s.ctxs ∧ t.forme = s.forme)] ++
  [(.memoryChipletReset m, m.toNat ∉ s.forme.memDown,
    fun t => m.toNat ∈ t.forme.memDown ∧ allFault s t ∧ logged s t ∧
      (∀ i < 48, let z := t.slice (48 * m.toNat + i)
        z.down = true ∧ z.lines = [] ∧ z.dir = [] ∧ z.fills = [] ∧ z.events = [] ∧ z.run = none) ∧
      (∀ i < 64, (sget Queue.reset t.forme.queues i).qctl.getLsbD 31 = false)),
   (.memoryChipletReset m, m.toNat ∈ s.forme.memDown, fun t => t = s),
   (.memoryChipletReturn m, m.toNat ∈ s.forme.memDown,
    fun t => m.toNat ∉ t.forme.memDown ∧ isDue t .selection ∧ memSame s t ∧ t.ctxs = s.ctxs ∧
      ∀ i < 48, let z := t.slice (48 * m.toNat + i)
        z.code = s.forme.masterCode ∧ z.table = s.forme.masterTable ∧ z.train = s.forme.trainOf (48 * m.toNat + i)),
   (.memoryChipletReturn m, m.toNat ∉ s.forme.memDown, fun t => t = s),
   (.flitCrcReplay n, sget 0 links n + 1 < 8,
    fun t => calm s t ∧ t.forme.failover = s.forme.failover ∧
      (sget 0 t.forme.links n = 1 ∨ sget 0 t.forme.links n = sget 0 links n + 1)),
   (.linkFailover n, 8 ≤ sget 0 links n ∧ n ∉ s.forme.failover ∧ ¬ secondPlane s n,
    fun t => n ∈ t.forme.failover ∧ t.forme.noLaunch = s.forme.noLaunch ∧ logged s t ∧ t.ctxs = s.ctxs),
   (.linkFailover n, 8 ≤ sget 0 links n ∧ n ∉ s.forme.failover ∧ secondPlane s n,
    fun t => n ∈ t.forme.failover ∧ t.forme.noLaunch = true ∧ allFault s t ∧ t.ctxs = s.ctxs),
   (.linkFailover n, sget 0 links n < 8 ∨ n ∈ s.forme.failover, fun t => t = s)] ++
  [(.uncorrectableError 0 n, True, fun t => n ∈ t.memPoison ∧ logged s t ∧ t.ctxs = s.ctxs),
   (.uncorrectableError 1 (2 * n), ((s.slice (s.home (n * 256))).line? n).isSome = true,
    fun t => (((t.slice (s.home (n * 256))).line? n).map Line.poison) = some true ∧ logged s t ∧ t.ctxs = s.ctxs),
   (.uncorrectableError 1 (2 * n + 1), True,
    fun t => (∀ d ∈ (t.slice (s.home (n * 256))).dir, s.granHas d.gran n = false) ∧ logged s t ∧ t.ctxs = s.ctxs),
   (.uncorrectableError 2 n, n / 2 ^ 19 < s.nclus,
    fun t => (n / 2 ^ 19, n / 2 ^ 18 % 2 + 1, n % 2 ^ 18) ∈ t.locPoison ∧ logged s t ∧ t.ctxs = s.ctxs),
   (.uncorrectableError 3 (4 * K + C), K < s.nclus ∧ C < 4 ∧ (s.ctx K C).bnd.launch ≠ 0 ∧
      ¬((s.ctx K C).st = .saving ∧ (s.ctx K C).srsn = 2),
    fun t => endsFaulted s t K C ∧ logged s t),
   (.uncorrectableError 4 (8 * K + 2 * C + c.toNat), K < s.nclus ∧ C < 4 ∧ (s.ctx K C).bnd.launch ≠ 0 ∧
      ¬((s.ctx K C).st = .saving ∧ (s.ctx K C).srsn = 2) ∧ ((s.ctx K C).nr = true ∨ c = true),
    fun t => endsFaulted s t K C ∧ logged s t),
   (.uncorrectableError 4 (8 * K + 2 * C), K < s.nclus ∧ C < 4 ∧ (s.ctx K C).bnd.launch ≠ 0 ∧
      (s.ctx K C).st ≠ .saving ∧ (s.ctx K C).nr = false,
    fun t => let y := t.ctx K C
      y.regs = (s.ctx K C).shadow ∧ y.pc = (s.ctx K C).rpc ∧ y.mpc = (s.ctx K C).rmpc ∧ y.pend = [] ∧ logged s t ∧
        ∀ a ∈ t.accs, a.heldBy K C = false),
   (.uncorrectableError 6 n, True,
    fun t => t.forme.mstat = 7 ∧ t.ctxs = [] ∧ t.clusters = [] ∧ t.slices = [] ∧ t.accs = [] ∧ logged s t),
   (.correctedErrorMerge n K, n < 16 ∧ ((e (16 * K + n)).2 = 0 ∨ s.cycle / 2 ^ 30 ≤ (e (16 * K + n)).1),
    fun t => calm s t ∧ sget (0, 0) t.forme.cecc (16 * K + n) = (s.cycle / 2 ^ 30, (e (16 * K + n)).2 + 1)),
   (.correctedErrorMerge (n + 16) K, n < 16 ∧ 0 < (e (16 * K + n)).2 ∧ (e (16 * K + n)).1 < s.cycle / 2 ^ 30,
    fun t => logged s t ∧ sget (0, 0) t.forme.cecc (16 * K + n) = (0, 0) ∧ t.ctxs = s.ctxs)] ++
  [(.hostMemRead pa, hostOpen s pa ∧ s.linePoison pa = false ∧ openTo s pa 8 ∧ (s.slice (s.home pa)).dir.length < 32768,
    fun t => t.forme.hostRead = some ((List.range 8).map fun i => s.homeByte (pa + i), false) ∧ memSame s t ∧ t.ctxs = s.ctxs),
   (.hostMemRead pa, pa < 96 * 2 ^ 33 ∧ pa % 8 = 0 ∧ s.isReady = false,
    fun t => (∃ bs, t.forme.hostRead = some (bs, true) ∧ bs.length = 8) ∧ calm s t),
   (.hostMemRead (0x200000000000 + pa), pa % 8 = 0 ∧ pa < 2 ^ 44,
    fun t => t.forme.hostRead = some ((List.range 8).map fun i => s.hostByte (pa + i), false) ∧ calm s t),
   (.hostMemRead (2 ^ 60 + 4096 * n), n < 2,
    fun t => calm s t ∧ ∃ bs, t.forme.hostRead = some (bs, false) ∧
      ofBytes (bs.take 4) = 0x1F5A + (if s.forme.degmap = 0 then 0xC960 else 0xC800) * 2 ^ 16),
   (.hostMemRead pa, hostHeld s pa ∧ s.linePoison pa = false, fun t => t = s),
   (.hostMemWrite pa v, hostOpen s pa ∧ s.agentFree pa 8 = true ∧ (s.reclaimAll (s.linesOf pa 8) none false).isSome = true,
    fun t => ∀ i < 8, t.homeByte (pa + i) = v.extractLsb' (8 * i) 8),
   (.hostMemWrite pa v, hostOpen s pa ∧ openTo s pa 8,
    fun t => (∀ i < 8, t.homeByte (pa + i) = v.extractLsb' (8 * i) 8) ∧ t.hostMem = s.hostMem ∧ t.ctxs = s.ctxs ∧
      ∀ j, j < pa ∨ pa + 8 ≤ j → t.homeByte j = s.homeByte j),
   (.hostMemWrite pa v, hostHeld s pa, fun t => t = s),
   (.hostMemWrite pa v, pa < 96 * 2 ^ 33 ∧ pa % 8 = 0 ∧ s.isReady = false, fun t => t = s),
   (.hostMemWrite (0x200000000000 + pa) v, pa % 8 = 0 ∧ pa < 2 ^ 44,
    fun t => (∀ i < 8, t.hostByte (pa + i) = v.extractLsb' (8 * i) 8) ∧ onlyHost s t pa 8 ∧ t.ctxs = s.ctxs)]

/-! ## Power, sensors, the debugger and starts (R420, R424 to R430, R432 to R437, R487 to R492) -/

/-- A start has begun: the module's state is that of reset, MSTAT reads RAILS; memory stands (R20, R424, R425). -/
def startBegun (s t : State) (kind : Nat) : Prop :=
  t.forme.starting = true ∧ t.forme.startKind = kind ∧ t.forme.mstat = 0 ∧ t.ctxs = [] ∧ t.clusters = [] ∧ t.slices = [] ∧
    t.accs = [] ∧ memSame s t

/-- The module has stopped: MSTAT reads FAILED, and nothing of its contexts is left (R489). -/
def stopped (t : State) : Prop := t.forme.mstat = 7 ∧ t.ctxs = [] ∧ t.clusters = [] ∧ t.slices = []

/-- Device memory is undefined but for the first n bytes of the error log's ring, which stand as they were (R424, R462, R489). -/
def memoryLost (s t : State) (n : Nat) : Prop :=
  let e := t.forme.elbase.toNat
  (∃ x y, s.free < y ∧ y < x ∧ t.memFill = (e + n, 96 * 2 ^ 33, x) :: (0, e, y) :: s.memFill) ∧
    (∀ z ∈ t.mem, e ≤ z.1 ∧ (z.1 < e + n ∨ 96 * 2 ^ 33 ≤ z.1)) ∧ ∀ l ∈ t.memPoison, e ≤ l * 256 ∧ l * 256 + 256 ≤ e + n

/-- Is a column of the chiplet at or above a temperature (R489)? -/
def hot (s : State) (X : Nat) (lim : Int) : Prop := ∃ i < 8, lim ≤ (s.column (8 * X + i)).temp

def powerEvents (s s2 : State) (k : ClusterNo) (x : BitVec 7) (n T amps : Nat) (t0 t1 t2 : Int) (l : Launch) (i : Image)
    (K C : Nat) : Prop :=
  let X := x.toNat
  let kc := s.cluster k.toNat
  let m := s.forme
  let st := m.mstat.toNat % 16
  let recent := kc.duty.filter fun z => s.cycle < z + 256
  let halted := s.modCtx K C fun y =>
    { y with stopWait := y.wait.isStop, stopNr0 := !y.nr, nestsAt := some (s.ownedPlanes K C) }
  eventsHold s <| [
   (.energyWindow k, k.toNat < s.nclus ∧ kc.win = s.cycle / 256 + 1, fun t => t = s),
   (.energyWindow k, k.toNat < s.nclus ∧ kc.win = s.cycle / 256 ∧ kc.win ≠ 0,
    fun t => let z := t.cluster k.toNat
      z.win = s.cycle / 256 + 1 ∧ z.u = 256 * kc.nestPower ∧ z.al = min (s.grantFor k.toNat)
        ((if kc.eheld = true ∨ kc.estall = true then kc.al else kc.u) + s.ramp) ∧ memSame s t ∧ t.ctxs = s.ctxs ∧ t.forme = m),
   (.droopInject k, k.toNat < s.nclus ∧ recent.length < 16,
    fun t => t.forme.droopcnt = m.droopcnt + 1 ∧ s.cycle ∈ (t.cluster k.toNat).duty ∧ memSame s t ∧ t.ctxs = s.ctxs),
   (.droopInject k, k.toNat < s.nclus ∧ 16 ≤ recent.length,
    fun t => (t.cluster k.toNat).droop = true ∧ t.forme = m ∧ memSame s t ∧ t.ctxs = s.ctxs),
   (.droopClear k, k.toNat < s.nclus,
    fun t => (t.cluster k.toNat).droop = false ∧ t.forme = m ∧ memSame s t ∧ t.ctxs = s.ctxs),
   (.temperatureReading n t0 t1 t2, n < 8 * s.nchips ∧ -40 ≤ t0 ∧ t0 ≤ t1 ∧ t1 ≤ t2 ∧ t2 ≤ 150 ∧ t1 < 125,
    fun t => (t.column n).temp = t1 ∧ t.ctxs = s.ctxs),
   (.temperatureReading n t0 t1 t2, n < 8 * s.nchips ∧ -40 ≤ t0 ∧ t0 ≤ t1 ∧ t1 ≤ t2 ∧ t2 ≤ 150 ∧ 125 ≤ t1,
    fun t => stopped t),
   (.throttleEnter n, n < s.nchips ∧ n ∉ m.throttled ∧ hot s n 105,
    fun t => n ∈ t.forme.throttled ∧ logged s t ∧ t.ctxs = s.ctxs),
   (.throttleEnter n, n < s.nchips ∧ (n ∈ m.throttled ∨ ¬ hot s n 105), fun t => t = s),
   (.throttleLeave n, n < s.nchips ∧ n ∈ m.throttled ∧ ¬ hot s n 95,
    fun t => n ∉ t.forme.throttled ∧ logged s t ∧ t.ctxs = s.ctxs),
   (.throttleLeave n, n < s.nchips ∧ (n ∉ m.throttled ∨ hot s n 95), fun t => t = s),
   (.thermalTrip n, n < 8 * s.nchips ∧ 125 ≤ (s.column n).temp,
    fun t => stopped t ∧ logged s t ∧ memoryLost s t (2 ^ 18)),
   (.thermalTrip n, n < 8 * s.nchips ∧ (s.column n).temp < 125, fun t => t = s)] ++
  [(.currentHalving, 7700 < m.railAmps ∧ m.halvings < 3, fun t => t.forme.halvings = m.halvings + 1 ∧ t.ctxs = s.ctxs),
   (.currentHalving, m.railAmps ≤ 7700 ∨ 3 ≤ m.halvings, fun t => t = s),
   (.currentRestore, m.lowSince = some T ∧ T + 2 ^ 20 ≤ s.cycle ∧ 0 < m.halvings,
    fun t => t.forme.halvings = m.halvings - 1 ∧ t.forme.lowSince = some s.cycle ∧ t.ctxs = s.ctxs),
   (.currentRestore, m.lowSince = some T ∧ s.cycle < T + 2 ^ 20, fun t => t = s),
   (.imonDisagree n amps, n ≤ amps ∧ amps < 5 * (amps - n) ∧ m.imonAt = none,
    fun t => t.forme.railAmps = amps ∧ t.forme.imonAt = some s.cycle ∧ t.ctxs = s.ctxs ∧
      (t.forme.eltail ≠ m.eltail ∨ t.forme.ellost ≠ m.ellost)),
   (.imonDisagree n amps, n ≤ amps ∧ 5 * (amps - n) ≤ amps ∧ amps ≤ 7700,
    fun t => calm s t ∧ t.forme.railAmps = amps ∧ t.forme.imonAt = none),
   (.debugHalt x, X < s.nchips ∧ X ∉ m.haltedChips ∧ s.slots = [] ∧ K / 4 = X ∧ C < 4 ∧
      ((s.ctx K C).st = .ready ∨ (s.ctx K C).st = .blocked),
    fun t => X ∈ t.forme.haltedChips ∧ (t.ctx K C).st = .halted ∧ (t.ctx K C).haltFrom = (s.ctx K C).st ∧
      (t.ctx K C).regs = (s.ctx K C).regs ∧ (t.ctx K C).pc = (s.ctx K C).pc ∧ memSame s t ∧ t.accs = s.accs),
   (.debugSave x, X < s.nchips ∧ K / 4 = X ∧ C < 4 ∧ (s.ctx K C).st = .halted ∧
      (∀ k' c', k' / 4 = X → c' < 4 → 4 * k' + c' ≠ 4 * K + C → (s.ctx k' c').st ≠ .halted) ∧
      s.haltedFree K C = true ∧ s.launch? ((s.ctx K C).bnd.launch - 1) = some l ∧ halted.writeRecord l K C 3 = some s2 ∧
      (∀ k' c', 4 * k' + c' ≠ 4 * K + C → s2.ctx k' c' = s.ctx k' c'),
    fun t => t = s2.modCtx K C fun y =>
      { y with stopWait := (s.ctx K C).stopWait, stopNr0 := (s.ctx K C).stopNr0, nestsAt := (s.ctx K C).nestsAt }),
   (.debugRelease x, X < s.nchips ∧ X ∈ m.haltedChips ∧ K / 4 = X ∧ C < 4 ∧ (s.ctx K C).st = .halted,
    fun t => X ∉ t.forme.haltedChips ∧ (t.ctx K C).st = (s.ctx K C).haltFrom ∧ (t.ctx K C).regs = (s.ctx K C).regs ∧
      (t.ctx K C).pc = (s.ctx K C).pc ∧ memSame s t),
   (.debugRelease x, X < s.nchips ∧ X ∉ m.haltedChips, fun t => t = s)] ++
  [(.coldStart, m.starting = false, fun t => startBegun s t 1), (.warmStart, m.starting = false, fun t => startBegun s t 2),
   (.warmStartKeep, m.starting = false, fun t => startBegun s t 3), (.hostReset, m.starting = false, fun t => startBegun s t 1),
   (.coldStart, m.starting = true, fun t => t.forme.mstat = m.mstat ∧ t.forme.starting = true ∧ logged s t ∧ t.ctxs = s.ctxs),
   (.railGood, m.starting = false, fun t => t = s),
   (.railGood, m.starting = true ∧ st = 0,
    fun t => t.forme.mstat = 1 ∧ t.forme.starts = m.starts + 1 ∧ calm s t ∧ (m.eltail ≠ 0 → t.forme.elbase = m.elbase) ∧
      (m.eltail = 0 → t.forme.elbase.toNat % 4096 = 0 ∧ t.forme.elbase.toNat + 2 ^ 18 ≤ 96 * 2 ^ 33)),
   (.railGood, m.starting = true ∧ st = 1 ∧ ∀ j ∈ m.slots, m.accepts j = false,
    fun t => t.forme.mstat = 1 ∧ isDue t .startFailure ∧ calm s t),
   (.railGood, m.starting = true ∧ st = 1 ∧ m.firmware = some i ∧ m.identified = false,
    fun t => t.forme.mstat = 1 ∧ isDue t .startFailure ∧ calm s t),
   (.railGood, m.starting = true ∧ st = 1 ∧ m.firmware = some i ∧ m.identified = true ∧ m.startKind = 1,
    fun t => t.forme.mstat = 2 ∧ t.forme.trained = false ∧ t.forme.trainedBy = i.bytes ∧ calm s t ∧
      t.forme.attLog.map (·.1) = if m.degraded = [] then [0, 1, 2] else [0, 1, 2, 4]),
   (.railGood, m.starting = true ∧ st = 1 ∧ (∃ j, (m.slots = [j, i] ∨ m.slots = [i, j]) ∧ j.svn < i.svn) ∧ m.accepts i = true ∧
      m.identified = true ∧ m.startKind = 1,
    fun t => t.forme.mstat = 2 ∧ t.forme.trainedBy = i.bytes),
   (.railGood, m.starting = true ∧ st = 1 ∧ m.firmware = some i ∧ m.identified = true ∧ m.warmOk i = true,
    fun t => t.forme.mstat = 3 ∧ t.forme.startKind = m.startKind ∧ t.forme.trained = m.trained ∧ calm s t),
   (.railGood, m.starting = true ∧ st = 2 ∧ Config.startStepOk m.starts 2 = false,
    fun t => t.forme.mstat = 2 ∧ isDue t .startFailure ∧ calm s t),
   (.railGood, m.starting = true ∧ st = 2 ∧ Config.startStepOk m.starts 2 = true ∧ ∃ n < 96, sget 8 m.fitted n ≠ 8,
    fun t => t.forme.mstat = 7 ∧ t.forme.starting = false ∧ logged s t ∧ t.ctxs = s.ctxs),
   (.railGood, m.starting = true ∧ st = 2 ∧ Config.startStepOk m.starts 2 = true ∧ ∀ n < 96, sget 8 m.fitted n = 8,
    fun t => t.forme.mstat = 3 ∧ calm s t)] ++
  [(.railGood, m.starting = true ∧ st = 3 ∧ Config.startStepOk m.starts 3 = false,
    fun t => t.forme.mstat = 3 ∧ isDue t .startFailure ∧ calm s t),
   (.railGood, m.starting = true ∧ st = 3 ∧ Config.startStepOk m.starts 3 = true ∧ m.startKind = 1,
    fun t => t.forme.mstat = 4 ∧ t.forme.trainedDeg = m.degraded ∧ (∀ e ∈ t.forme.temps, e.2.trim = e.2.temp) ∧ calm s t),
   (.railGood, m.starting = true ∧ st = 3 ∧ Config.startStepOk m.starts 3 = true ∧ m.startKind ≠ 1,
    fun t => t.forme.mstat = 4 ∧ t.forme.degraded = m.degraded ++ m.degPend ∧ (m.degPend = [] → memSame s t) ∧ t.ctxs = s.ctxs),
   (.railGood, m.starting = true ∧ st = 4 ∧ Config.startStepOk m.starts 4 = false,
    fun t => t.forme.mstat = 4 ∧ isDue t .startFailure ∧ calm s t),
   (.railGood, m.starting = true ∧ st = 4 ∧ Config.startStepOk m.starts 4 = true,
    fun t => t.forme.starting = false ∧ t.forme.failed = 0 ∧ t.forme.trained = true ∧ t.ctxs = s.ctxs ∧ t.hostMem = s.hostMem ∧
      t.forme.modid.toNat < t.forme.nmod.toNat ∧
      t.forme.mstat = (if m.startKind = 1 then 5 else if m.startKind = 3 then 0x305 else 0x105) ∧
      (t.forme.elbase.toNat, t.forme.elbase.toNat + 2 ^ 18) ∈ t.forme.reserved ∧ t.forme.bbbase.toNat % 2 ^ 28 = 0 ∧
      (t.forme.bbbase.toNat, t.forme.bbbase.toNat + 2 ^ 28) ∈ t.forme.reserved ∧
      if m.startKind = 3 then t.mem = s.mem ∧ t.memFill = s.memFill ∧ t.memPoison = s.memPoison
      else memoryLost s t (64 * min 4096 m.eltail.toNat) ∧
        ∀ i < 64 * min 4096 m.eltail.toNat, t.dram (m.elbase.toNat + i) = s.dram (m.elbase.toNat + i)),
   (.startFailure, m.starting = false, fun t => t = s),
   (.startFailure, m.starting = true ∧ m.failed + 1 < 3,
    fun t => t.forme.failed = m.failed + 1 ∧ t.forme.startKind = 1 ∧ t.forme.mstat = 7 ∧ t.forme.starting = true ∧ logged s t),
   (.startFailure, m.starting = true ∧ 3 ≤ m.failed + 1,
    fun t => t.forme.starting = false ∧ logged s t ∧
      t.forme.mstat = if m.accepts m.recovery = true then 6 else 7),
   (.getMeasurements n, True,
    fun t => calm s t ∧ ∃ r, t.forme.doe = some r ∧ r.nonce = n ∧
      r.blocks = (m.attLog.map fun e => toBytes 1 e.1 ++ e.2) ++ [m.m] ∧
      r.sig = Config.ed25519Sign m.seed (Config.spdmTranscript n r.blocks.flatten))]

end Sys2Proof.Claims

/-- R20 to R22, R200, R417, R464, R479 to R485, R493, R494: the events of resets, links, soft errors and of the host's accesses to
device memory complete: a chiplet drains, is quiesced and is reset with its own state alone; a memory chiplet's reset ends
every launch; a replayed flit changes nothing else; an uncorrectable error marks what it met, or ends its group; the host
reads and writes the bytes at their homes, or waits. The model's choices: how the error events number their units (log 67), kinds
from 16 as the end of a period (log 68), the names of host addresses (log 100), and the places of the configuration space
(log 97). -/
def Obligations.ModuleEvents : Prop :=
  ∀ (s : Sys2Proof.Machine.State) (x : BitVec 7) (m : BitVec 3) (n T K C pa : Nat) (c : Bool) (v : BitVec 64),
    Sys2Proof.Claims.moduleEvents s x m n T K C pa c v

/-- R420, R424 to R430, R432 to R437, R487 to R492: the events of energy, droop, sensors, the debugger and starts complete: an
allowance follows the last window's use; a chiplet throttles at its limits, and the module stops at 125 °C; a halted
context goes on as it was; a start leaves the module as reset, and comes to READY or to its failure. The model's choices: a host
reset is a cold start (log 31), the larger reading counts when the monitors agree (log 33), the course of a warm start (log 69),
the kind numbers of the attestation log (log 70), the allowance of a window (log 79), where firmware places the ring and the
bounce buffer (log 10), the layout of a measurement block (log 30), and the record of a halted group (log 73). -/
def Obligations.PowerEvents : Prop :=
  ∀ (s s2 : Sys2Proof.Machine.State) (k : Sys2Proof.ClusterNo) (x : BitVec 7) (n T amps : Nat) (t0 t1 t2 : Int)
      (l : Sys2Proof.Machine.Launch) (i : Sys2Proof.Machine.Image) (K C : Nat),
    Sys2Proof.Claims.powerEvents s s2 k x n T amps t0 t1 t2 l i K C

namespace Sys2Proof.Claims
open Sys2Proof.Machine

/-! ## The handler cores (R205 to R207, R211, R215 to R221, R226 to R236, R410) -/

/-- A handler runs on the slice whose core executes, with more than `cost` of its budget left. -/
def handling (s : State) (r : Run) (cost : Nat) : Prop := s.sl.run = some r ∧ r.used + cost < r.bud

/-- Registers of a handler as numbers modulo 2^64; x0 reads zero. -/
def hreg (r : Run) (n : XReg) : BitVec 64 := .ofNat 64 (r.reg n)

/-- The handler goes on: its count and its PC, its registers but one, its locks; the rest of it is as it was. -/
def goesOn (s t : State) (r : Run) (pc cost : Nat) (rd : XReg) (v : BitVec 64) (locks : List Nat) : Prop :=
  t.hart = s.hart ∧ ∃ z, t.sl.run = some z ∧ z.ev = r.ev ∧ z.pc = pc ∧ z.used = r.used + cost ∧ z.bud = r.bud ∧ z.wait = .none ∧ z.next = r.next + 2 * cost ∧
    z.locks = locks ∧ (rd ≠ 0 → z.reg rd = v.toNat) ∧ ∀ n, n ≠ rd → z.reg n = r.reg n

/-- Nothing outside the slices and the forme die's queues changes. -/
def onlySlices (s t : State) : Prop :=
  memSame s t ∧ t.ctxs = s.ctxs ∧ t.clusters = s.clusters ∧ t.accs = s.accs

/-- The handler waits a cycle: its count goes on, its PC stands, and nothing else of it changes but what it waits for. -/
def waitsOn (s t : State) (r : Run) (w : RunWait) : Prop :=
  t.hart = s.hart ∧ ∃ z, t.sl.run = some z ∧ z.ev = r.ev ∧ z.pc = r.pc ∧ z.used = r.used + 1 ∧ z.bud = r.bud ∧ z.wait = w ∧
    z.next = r.next + 2 ∧ z.locks = r.locks ∧ ∀ n, z.reg n = r.reg n

/-- The event of the running handler has ended, and the core takes up its next one (R211, R217). -/
def eventOver (s t : State) : Prop :=
  (t.slice s.hart).run = none ∧ isDue t (.handlerDispatch (.ofNat 9 s.hart))

/-- A handler fault: counted, and the event ends (R217, R478). -/
def handlerFaulted (s t : State) (r : Run) : Prop :=
  eventOver s t ∧ sget 0 (t.slice s.hart).cnt (4 * r.ev.tenant + 1) = sget 0 (s.slice s.hart).cnt (4 * r.ev.tenant + 1) + 1

/-! ### Base instructions, as the RISC-V unprivileged specification has them (the model's reading, log 6) -/

/-- The cost of R410. -/
def rvCost : RvOp → Nat
  | .jal .. => 2 | .jalr .. => 2 | .load .. => 2 | .store .. => 2 | .lr .. => 4 | .sc .. => 4 | .amo .. => 4
  | .mulDiv o _ _ _ => if o ∈ [RvMul.mul, .mulh, .mulhsu, .mulhu] then 3 else 20
  | .mulDivW o _ _ _ => if o = .mulw then 3 else 20
  | _ => 1

/-- A word sign-extended. -/
def sx32 (x : BitVec 32) : BitVec 64 := x.signExtend 64

/-- The value that an instruction without a memory access gives its destination. -/
def rvValue (r : Run) (len : Nat) (o : RvOp) : XReg × BitVec 64 :=
  let x (n : XReg) : BitVec 64 := hreg r n
  let y (n : XReg) : BitVec 32 := (hreg r n).setWidth 32
  match o with
  | .lui rd i => (rd, (i ++ 0#12).signExtend 64)
  | .auipc rd i => (rd, BitVec.ofNat 64 r.pc + (i ++ 0#12).signExtend 64)
  | .jal rd _ => (rd, .ofNat 64 (r.pc + len))
  | .jalr rd _ _ => (rd, .ofNat 64 (r.pc + len))
  | .opImm .addi rd a i => (rd, x a + i.signExtend 64)
  | .opImm .slti rd a i => (rd, if (x a).slt (i.signExtend 64) then 1 else 0)
  | .opImm .sltiu rd a i => (rd, if (x a).ult (i.signExtend 64) then 1 else 0)
  | .opImm .xori rd a i => (rd, x a ^^^ i.signExtend 64)
  | .opImm .ori rd a i => (rd, x a ||| i.signExtend 64)
  | .opImm .andi rd a i => (rd, x a &&& i.signExtend 64)
  | .shImm .sll rd a n => (rd, x a <<< n.toNat)
  | .shImm .srl rd a n => (rd, x a >>> n.toNat)
  | .shImm .sra rd a n => (rd, (x a).sshiftRight n.toNat)
  | .op .add rd a b => (rd, x a + x b)
  | .op .sub rd a b => (rd, x a - x b)
  | .op .sll rd a b => (rd, x a <<< ((x b).toNat % 64))
  | .op .slt rd a b => (rd, if (x a).slt (x b) then 1 else 0)
  | .op .sltu rd a b => (rd, if (x a).ult (x b) then 1 else 0)
  | .op .xor rd a b => (rd, x a ^^^ x b)
  | .op .srl rd a b => (rd, x a >>> ((x b).toNat % 64))
  | .op .sra rd a b => (rd, (x a).sshiftRight ((x b).toNat % 64))
  | .op .or rd a b => (rd, x a ||| x b)
  | .op .and rd a b => (rd, x a &&& x b)
  | .addiw rd a i => (rd, sx32 (y a + i.signExtend 32))
  | .shImmW .sll rd a n => (rd, sx32 (y a <<< n.toNat))
  | .shImmW .srl rd a n => (rd, sx32 (y a >>> n.toNat))
  | .shImmW .sra rd a n => (rd, sx32 ((y a).sshiftRight n.toNat))
  | .opW .addw rd a b => (rd, sx32 (y a + y b))
  | .opW .subw rd a b => (rd, sx32 (y a - y b))
  | .opW .sllw rd a b => (rd, sx32 (y a <<< ((x b).toNat % 32)))
  | .opW .srlw rd a b => (rd, sx32 (y a >>> ((x b).toNat % 32)))
  | .opW .sraw rd a b => (rd, sx32 ((y a).sshiftRight ((x b).toNat % 32)))
  | .mulDiv .mul rd a b => (rd, x a * x b)
  | .mulDiv .mulh rd a b => (rd, ((x a).signExtend 128 * (x b).signExtend 128).extractLsb' 64 64)
  | .mulDiv .mulhsu rd a b => (rd, ((x a).signExtend 128 * (x b).setWidth 128).extractLsb' 64 64)
  | .mulDiv .mulhu rd a b => (rd, ((x a).setWidth 128 * (x b).setWidth 128).extractLsb' 64 64)
  | .mulDiv .div rd a b => (rd, if x b = 0 then -1 else (x a).sdiv (x b))
  | .mulDiv .divu rd a b => (rd, if x b = 0 then -1 else x a / x b)
  | .mulDiv .rem rd a b => (rd, if x b = 0 then x a else (x a).srem (x b))
  | .mulDiv .remu rd a b => (rd, if x b = 0 then x a else x a % x b)
  | .mulDivW .mulw rd a b => (rd, sx32 (y a * y b))
  | .mulDivW .divw rd a b => (rd, sx32 (if y b = 0 then -1 else (y a).sdiv (y b)))
  | .mulDivW .divuw rd a b => (rd, sx32 (if y b = 0 then -1 else y a / y b))
  | .mulDivW .remw rd a b => (rd, sx32 (if y b = 0 then y a else (y a).srem (y b)))
  | .mulDivW .remuw rd a b => (rd, sx32 (if y b = 0 then y a else y a % y b))
  | _ => (0, 0)

/-- Is a branch's condition true? -/
def rvCond (c : RvBr) (x y : BitVec 64) : Bool :=
  match c with
  | .beq => x == y
  | .bne => x != y
  | .blt => x.slt y
  | .bge => !(x.slt y)
  | .bltu => x.ult y
  | .bgeu => !(x.ult y)

/-- The PC after an instruction of `len` bytes, and what it costs. -/
def rvNext (r : Run) (len : Nat) (o : RvOp) : Nat × Nat :=
  match o with
  | .jal _ off => ((BitVec.ofNat 64 r.pc + (off ++ 0#1).signExtend 64).toNat, 2)
  | .jalr _ a i => (((hreg r a + i.signExtend 64) &&& ~~~1#64).toNat, 2)
  | .branch c a b off =>
    if rvCond c (hreg r a) (hreg r b) then ((BitVec.ofNat 64 r.pc + (off ++ 0#1).signExtend 64).toNat, 2) else (r.pc + len, 1)
  | o => (r.pc + len, rvCost o)

/-- The memory access of an instruction: address and bytes. -/
def rvAccess (r : Run) (o : RvOp) : Option (Nat × Nat) :=
  let n (d : Bool) : Nat := if d then 8 else 4
  match o with
  | .load w _ a i =>
    some ((hreg r a + i.signExtend 64).toNat, match w with
      | .lb => 1 | .lbu => 1 | .lh => 2 | .lhu => 2 | .lw => 4 | .lwu => 4 | .ld => 8)
  | .store w a _ i =>
    some ((hreg r a + i.signExtend 64).toNat, match w with
      | .sb => 1 | .sh => 2 | .sw => 4 | .sd => 8)
  | .lr d _ _ _ a => some ((hreg r a).toNat, n d)
  | .sc d _ _ _ a _ => some ((hreg r a).toNat, n d)
  | .amo _ d _ _ _ a _ => some ((hreg r a).toNat, n d)
  | _ => none

/-- A number of n bytes sign-extended to 64 bits. -/
def sxBytes (n v : Nat) : BitVec 64 := (BitVec.ofNat (8 * n) v).signExtend 64

/-- What an AMO stores: old value and operand of n bytes. -/
def amoStored (o : RvAmo) (n : Nat) (x y : BitVec (8 * n)) : BitVec (8 * n) :=
  match o with
  | .swap => y
  | .add => x + y
  | .xor => x ^^^ y
  | .and => x &&& y
  | .or => x ||| y
  | .min => if x.sle y then x else y
  | .max => if y.sle x then x else y
  | .minu => if x.ule y then x else y
  | .maxu => if y.ule x then x else y

/-- What an access gives its destination, and what it stores: old is the number in memory, ok the reservation's match. -/
def rvMemory (r : Run) (o : RvOp) (old : Nat) (ok : Bool) : XReg × BitVec 64 × Option Nat :=
  match o with
  | .load .lb rd _ _ => (rd, sxBytes 1 old, none)
  | .load .lh rd _ _ => (rd, sxBytes 2 old, none)
  | .load .lw rd _ _ => (rd, sxBytes 4 old, none)
  | .load _ rd _ _ => (rd, .ofNat 64 old, none)
  | .store _ _ b _ => (0, 0, some (r.reg b))
  | .lr d _ _ rd _ => (rd, sxBytes (if d then 8 else 4) old, none)
  | .sc _ _ _ rd _ b => (rd, if ok then 0 else 1, if ok then some (r.reg b) else none)
  | .amo o d _ _ rd _ b =>
    let n := if d then 8 else 4
    (rd, sxBytes n old, some (amoStored o n (.ofNat _ old) (.ofNat _ (r.reg b))).toNat)
  | _ => (0, 0, none)

/-- The number in n bytes of the handler memory. -/
def dataNum (s : State) (a n : Nat) : Nat := ofBytes ((List.range n).map fun i => s.sl.data.get (a + i))

/-- The handler memory after a store of the low n bytes of v, or of nothing. -/
def dataStored (s t : State) (a n : Nat) (v : Option Nat) : Prop :=
  match v with
  | some v => (∀ i < n, t.sl.data.get (a + i) = .ofNat 8 (v / 2 ^ (8 * i))) ∧ ∀ j, j < a ∨ a + n ≤ j → t.sl.data.get j = s.sl.data.get j
  | none => t.sl.data = s.sl.data

/-! ### Custom instructions -/

/-- Bit v of a status word. -/
def bitIf (p : Prop) [Decidable p] (v : Nat) : Nat := if p then v else 0

/-- The new value of SLAMO (R227). -/
def slamoNew (op : AmoOp) (x y : BitVec 64) : BitVec 64 :=
  match op with
  | .add => x + y
  | .and => x &&& y
  | .or => x ||| y
  | .xor => x ^^^ y
  | .min => if x.sle y then x else y
  | .max => if y.sle x then x else y
  | .minn => if x.ule y then x else y
  | .maxn => if y.ule x then x else y
  | .swap => y

/-- The word at an address that the handler may access: reachable, aligned, its line present and not poisoned (R218, R227). -/
def wordAt (s : State) (r : Run) (a lin : Nat) : Prop :=
  s.reachable r.ev.tenant a = some lin ∧ lin % 8 = 0 ∧ ∃ l, s.sl.line? (lin / 256) = some l ∧ l.poison = false

/-- Nobody holds a copy of the line that an access takes back: for a read one held for writing, for a write any, the host's
too (R200, R219). -/
def noCopies (s : State) (line : Nat) (reading : Bool) : Prop :=
  (∀ e ∈ s.otherRegions none, let reg := (s.cluster e.1).region e.2
    (∀ g ∈ reg.gran, s.granHolds g line = true → reading = true ∧ g.st ≠ .exclusive) ∧
    ∀ l ∈ reg.lines, s.granHas l.gran line = true → reading = true ∧ l.excl = false) ∧
  (reading = false → ∀ d ∈ s.sl.dir, s.granHas d.gran line = true → d.mask.getLsbD 96 = false)

/-- The word at its home. -/
def wordNum (s : State) (lin : Nat) : Nat := ofBytes ((List.range 8).map fun i => s.homeByte (lin + i))

/-- The word at its home has become v, and no other byte of device memory has changed. -/
def wordPut (s t : State) (lin : Nat) (v : BitVec 64) : Prop :=
  (∀ i < 8, t.homeByte (lin + i) = v.extractLsb' (8 * i) 8) ∧
    (∀ j, j < lin ∨ lin + 8 ≤ j → t.homeByte j = s.homeByte j) ∧ t.hostMem = s.hostMem ∧ t.ctxs = s.ctxs

/-- A fill may start: the line's set has a free way. -/
def roomFor (s : State) (line : Nat) : Prop :=
  (s.sl.lines.filter fun e => setOfLine e.line == setOfLine line).length < 16

def handlerInstrs (s : State) (r : Run) (rd rs1 rs2 : XReg) (noev : Bool) (op : AmoOp) (lin dest : Nat) (l : Line) (w : RvWord)
    (o : RvOp) (len a n : Nat) : Prop :=
  let adr := r.reg rs1
  let v := r.reg rs2
  let line := lin / 256
  let next := r.pc + 4
  let reach := s.reachable r.ev.tenant adr
  let gone : Prop := s.sl.line? line = none
  let own : Prop := (r.ev.kind = 1 ∨ r.ev.kind = 2) ∧ r.ev.laddr = line * 256
  let status (t : State) (cost : Nat) (x : BitVec 64) : Prop := goesOn s t r next cost rd x r.locks ∧ onlySlices s t
  let base : Prop := (w = .full o ∧ len = 4) ∨ (∃ b, w = .compressed b ∧ rvcExpand b.toNat = some o ∧ len = 2)
  eventsHold s <| [
   (.handlerBase w, base ∧ rvAccess r o = none ∧ handling s r (rvNext r len o).2,
    fun t => goesOn s t r (rvNext r len o).1 (rvNext r len o).2 (rvValue r len o).1 (rvValue r len o).2 r.locks ∧
      onlySlices s t ∧ t.sl.data = s.sl.data),
   (.handlerBase w, base ∧ rvAccess r o = some (a, n) ∧ handling s r (rvCost o) ∧ s.inData r a n n = true,
    fun t =>
      let m := rvMemory r o (dataNum s a n) (r.resv == some (a * 16 + n))
      goesOn s t r (r.pc + len) (rvCost o) m.1 m.2.1 r.locks ∧ onlySlices s t ∧ dataStored s t a n m.2.2),
   (.handlerBase w, base ∧ rvAccess r o = some (a, n) ∧ s.sl.run = some r ∧ s.inData r a n n = false, fun t => handlerFaulted s t r),
   (.handlerBase w, s.sl.run = none, fun t => t = s)] ++
  [(.slrd rd rs1, handling s r 4 ∧ wordAt s r adr lin ∧ noCopies s line true,
    fun t => status t 4 (.ofNat 64 (wordNum s lin))),
   (.slwr rs1 rs2, handling s r 4 ∧ wordAt s r adr lin ∧ noCopies s line false,
    fun t => goesOn s t r next 4 0 0 r.locks ∧ wordPut s t lin (.ofNat 64 v)),
   (.slamo op rd rs1 rs2, handling s r 6 ∧ wordAt s r adr lin ∧ noCopies s line false,
    fun t => goesOn s t r next 6 rd (.ofNat 64 (wordNum s lin)) r.locks ∧
      wordPut s t lin (slamoNew op (.ofNat 64 (wordNum s lin)) (.ofNat 64 v))),
   (.slrd rd rs1, s.sl.run = some r ∧ (reach = none ∨ reach = some lin ∧ lin % 8 ≠ 0), fun t => handlerFaulted s t r),
   (.slrd rd rs1, handling s r 1 ∧ reach = some lin ∧ lin % 8 = 0 ∧ gone ∧ s.sl.filling line = true,
    fun t => waitsOn s t r (.fill line) ∧ onlySlices s t),
   (.slwr rs1 rs2, s.sl.run = some r ∧ (reach = none ∨ reach = some lin ∧ lin % 8 ≠ 0), fun t => handlerFaulted s t r),
   (.slnext noev rd rs1, handling s r 4 ∧ wordAt s r adr lin ∧ noCopies s line true ∧
      s.reachable r.ev.tenant (wordNum s lin) = none,
    fun t => status t 4 (.ofNat 64 (wordNum s lin))),
   (.slnext noev rd rs1, handling s r 4 ∧ wordAt s r adr lin ∧ noCopies s line true ∧
      s.reachable r.ev.tenant (wordNum s lin) = some dest ∧ s.sl.line? (dest / 256) = none ∧ s.sl.filling (dest / 256) = false ∧
      s.sl.handlerFills < 16 ∧ roomFor s (dest / 256),
    fun t => status t 4 (.ofNat 64 (wordNum s lin)) ∧ t.sl.filling (dest / 256) = true),
   (.slnext noev rd rs1, handling s r 4 ∧ wordAt s r adr lin ∧ noCopies s line true ∧
      s.reachable r.ev.tenant (wordNum s lin) = some dest ∧ s.sl.line? (dest / 256) = none ∧ s.sl.filling (dest / 256) = false ∧
      s.sl.handlerFills < 16 ∧ s.hfill r.ev.tenant dest noev 4 = none,
    fun t => waitsOn s t r r.wait ∧ onlySlices s t)] ++
  [(.sllk rd rs1, handling s r 2 ∧ reach = some lin ∧ gone, fun t => status t 2 1),
   (.sllk rd rs1, handling s r 2 ∧ reach = some lin ∧ s.sl.line? line = some l ∧ (line ∈ r.locks ∨ own),
    fun t => status t 2 0),
   (.sllk rd rs1, handling s r 2 ∧ reach = some lin ∧ s.sl.line? line = some l ∧ line ∉ r.locks ∧ ¬ own ∧ r.locks.length < 4,
    fun t => goesOn s t r next 2 rd 0 (r.locks ++ [line]) ∧ onlySlices s t),
   (.sllk rd rs1, handling s r 2 ∧ reach = some lin ∧ s.sl.line? line = some l ∧ line ∉ r.locks ∧ ¬ own ∧ 4 ≤ r.locks.length,
    fun t => handlerFaulted s t r),
   (.slunlk rs1, handling s r 1 ∧ reach = some lin,
    fun t => goesOn s t r next 1 0 0 (r.locks.filter fun z => z != line) ∧ onlySlices s t),
   (.slunlk rs1, s.sl.run = some r ∧ reach = none, fun t => handlerFaulted s t r),
   (.slfill noev rd rs1, handling s r 2 ∧ reach = none, fun t => status t 2 3),
   (.slfill noev rd rs1, handling s r 2 ∧ reach = some lin ∧ s.sl.line? line = some l, fun t => status t 2 1),
   (.slfill noev rd rs1, handling s r 2 ∧ reach = some lin ∧ gone ∧ s.sl.filling line = true, fun t => status t 2 2),
   (.slfill noev rd rs1, handling s r 2 ∧ reach = some lin ∧ gone ∧ s.sl.filling line = false ∧ 16 ≤ s.sl.handlerFills,
    fun t => status t 2 4),
   (.slfill noev rd rs1, handling s r 2 ∧ reach = some lin ∧ gone ∧ s.sl.filling line = false ∧ s.sl.handlerFills < 16 ∧
      roomFor s line,
    fun t => status t 2 0 ∧ t.sl.filling line = true),
   (.slfill noev rd rs1, handling s r 2 ∧ reach = some lin ∧ gone ∧ s.sl.filling line = false ∧ s.sl.handlerFills < 16 ∧
      s.hfill r.ev.tenant lin noev 2 = none,
    fun t => waitsOn s t r r.wait ∧ onlySlices s t),
   (.sldrop rs1, handling s r 4 ∧ reach = some lin ∧ noCopies s line false ∧ s.sl.line? line = some l ∧ l.line = line ∧
      l.dirty = true ∧ ¬ own,
    fun t => t.sl.line? line = none ∧ (∀ i < 256, t.dram (line * 256 + i) = .ofNat 8 (l.data.toNat / 2 ^ (8 * i))) ∧
      goesOn s t r next 4 0 0 (r.locks.filter fun z => z != line) ∧ t.ctxs = s.ctxs),
   (.sldrop rs1, s.sl.run = some r ∧ reach = some lin ∧ own,
    fun t => handlerFaulted s t r),
   (.slwb rs1, handling s r 4 ∧ reach = some lin ∧ s.sl.line? line = some l ∧ l.line = line ∧ l.dirty = true,
    fun t => (∀ i < 256, t.dram (line * 256 + i) = .ofNat 8 (l.data.toNat / 2 ^ (8 * i))) ∧
      ((t.sl.line? line).map Line.dirty) = some false ∧ goesOn s t r next 4 0 0 r.locks ∧ t.ctxs = s.ctxs),
   (.slwb rs1, s.sl.run = some r ∧ reach = none, fun t => handlerFaulted s t r)] ++
  [(.slwait rd rs1, handling s r 1 ∧ (reach = none ∨ reach = some lin ∧ gone ∧ s.sl.filling line = false ∧ r.wait ≠ .fill line),
    fun t => status t 1 2),
   (.slwait rd rs1, handling s r 1 ∧ reach = some lin ∧ s.sl.line? line = some l ∧ r.wait ≠ .fill line,
    fun t => status t 1 (if line ∈ r.failed then 1 else 0)),
   (.slwait rd rs1, handling s r 0 ∧ reach = some lin ∧ s.sl.line? line = some l ∧ r.wait = .fill line,
    fun t => status t 0 (if line ∈ r.failed then 1 else 0)),
   (.slwait rd rs1, handling s r 1 ∧ reach = some lin ∧ gone ∧ s.sl.filling line = true,
    fun t => onlySlices s t ∧ waitsOn s t r (.fill line)),
   (.slage rs1 rs2, handling s r 1 ∧ reach = some lin ∧ v < 4 ∧ s.sl.line? line = some l,
    fun t => goesOn s t r next 1 0 0 r.locks ∧ onlySlices s t ∧
      ((t.sl.line? line).map Line.pos) = some (([0, 5, 10, 15] : List Nat).getD v 0)),
   (.slage rs1 rs2, s.sl.run = some r ∧ (reach = none ∨ 4 ≤ v), fun t => handlerFaulted s t r),
   (.slhas rd rs1, handling s r 2 ∧ reach = none, fun t => status t 2 (.ofNat 64 (2 ^ 63))),
   (.slhas rd rs1, handling s r 2 ∧ reach = some lin ∧ s.sl.line? line = some l,
    fun t => status t 2 (.ofNat 64 (1 + bitIf (l.dirty = true) 2 + bitIf (line ∈ r.locks) 8 +
      bitIf (s.heldLine line none = true) 16 + l.way * 256))),
   (.slhas rd rs1, handling s r 2 ∧ reach = some lin ∧ gone,
    fun t => status t 2 (.ofNat 64 (bitIf (s.sl.filling line = true) 4 + bitIf (s.heldLine line none = true) 16))),
   (.slevt rd rs1, handling s r 8 ∧ s.inData r adr 128 8 = true,
    fun t => goesOn s t r next 8 rd (.ofNat 64 ((r.ev.kind + r.ev.tenant * 16 + r.ev.cls * 256) % 2 ^ 32)) r.locks ∧
      onlySlices s t ∧ dataNum t adr 4 = (r.ev.kind + r.ev.tenant * 16 + r.ev.cls * 256) % 2 ^ 32 ∧
      dataNum t (adr + 8) 8 = r.ev.laddr % 2 ^ 64 ∧ ∀ j, j < adr ∨ adr + 128 ≤ j → t.sl.data.get j = s.sl.data.get j),
   (.slevt rd rs1, s.sl.run = some r ∧ s.inData r adr 128 8 = false, fun t => handlerFaulted s t r),
   (.slbud rd, handling s r 1, fun t => status t 1 (.ofNat 64 (r.bud - r.used))),
   (.slret rs1, handling s r 1 ∧ (adr = 0 ∨ adr = 1 ∧ (r.ev.kind = 1 ∨ r.ev.kind = 2)), fun t => eventOver s t),
   (.slret rs1, handling s r 1 ∧ 1 < adr, fun t => handlerFaulted s t r),
   (.slmsg rd rs1 rs2, handling s r 8 ∧ s.inData r adr 64 64 = true ∧ 2 ^ 63 ≤ v ∧ bitsAt v 23 7 = 0 ∧ bitsAt v 0 6 = 0,
    fun t => status t 8 0 ∧ isDue t (.replyDelivery s.forme.replies.length) ∧ ∃ y, t.forme.replies = s.forme.replies ++ [y] ∧
      y.token.toNat = v ∧ y.bytes.toNat = dataNum s adr 64 ∧ y.slice = s.hart ∧ y.tenant = r.ev.tenant),
   (.slmsg rd rs1 rs2, handling s r 8 ∧ s.inData r adr 64 64 = true ∧ v < 96 * 2 ^ 33 ∧ s.window v = some .linear ∧
      s.addrClass r.ev.tenant v ≠ 0 ∧ (s.slice (s.home v)).inbound < 32 ∧ (s.slice (s.home v)).events.length < 64,
    fun t => status t 8 0 ∧ isDue t (.handlerDispatch (.ofNat 9 (s.home v))) ∧ ∃ e, (t.slice (s.home v)).events =
      (s.slice (s.home v)).events ++ [e] ∧ e.kind = 3 ∧ e.laddr = v / 256 * 256 ∧ e.msg.toNat = dataNum s adr 64),
   (.slmsg rd rs1 rs2, handling s r 8 ∧ s.inData r adr 64 64 = true ∧ v < 96 * 2 ^ 33 ∧ s.addrClass r.ev.tenant v = 0,
    fun t => status t 8 2),
   (.slmsg rd rs1 rs2, s.sl.run = some r ∧ s.inData r adr 64 64 = false, fun t => handlerFaulted s t r)]

end Sys2Proof.Claims

/-- R205, R206, R216 to R221, R226 to R236, R410: the instructions of the handler cores complete with their costs: a base
instruction has its RV64IMAC effect on registers, PC and the tenant's data partition (the model's reading of the RISC-V
specification, log 6); a custom instruction has its effect at the slice, and its status; the failed checks end the event. That slwait gives
1 for a present line whose fill had failed, and that slhas does not count the event's own line as locked, are the model's readings
too (logs 28, 47). -/
def Obligations.HandlerInstructions : Prop :=
  ∀ (s : Sys2Proof.Machine.State) (r : Sys2Proof.Machine.Run) (rd rs1 rs2 : Sys2Proof.XReg) (noev : Bool)
      (op : Sys2Proof.AmoOp) (lin dest : Nat) (l : Sys2Proof.Machine.Line) (w : Sys2Proof.RvWord) (o : Sys2Proof.RvOp)
      (len a n : Nat),
    Sys2Proof.Claims.handlerInstrs s r rd rs1 rs2 noev op lin dest l w o len a n

namespace Sys2Proof.Claims
open Sys2Proof.Machine

/-! ## Encodings (R225, R226, R237 to R243) -/

/-- The seven opcode maps of the slots (R242). -/
def slotKind (k : Kind) : Prop := k ∈ [Kind.y, .s, .v, .m, .l, .t, .c]

/-- A slot that has an encoding in a map: a well-formed instruction of it, or a NOP, whose bits are zero but in the Y slot of
a BLK bundle (R243). -/
def encodable (k : Kind) (blk : Bool) (e : Slot) : Prop :=
  (e.instr.kind = k ∧ e.instr.wf = true) ∨ e = ⟨false, 0, .nop 0⟩ ∨ (blk = true ∧ k = .y ∧ ∃ d, e.instr = .nop d)

/-- A bundle that has an encoding: its slots have one, its header keeps R238 and R83, and no slot breaks a rule over several
slots (R243, R276, R279). -/
def encodableBundle (b : Bundle) : Prop :=
  (∀ n ∈ SlotNo.all, encodable n.kind b.hdr.blk (b.slot n)) ∧ (∀ n ∈ SlotNo.all, bundleRule b n = none) ∧ b.hdr.sf ≠ 3 ∧
    (b.hdr.blk = true → b.y.pn = false ∧ b.y.ps = 0 ∧ ∃ d : BitVec 48, b.y.instr = .nop d ∧ bitsAt d.toNat 32 16 ≠ 0) ∧
    (b.hdr.sf = 1 ↔ opcode b.y.instr = 0x0B) ∧ (b.hdr.sf = 2 ↔ opcode b.y.instr = 0x0C)

/-- A handler instruction that has an encoding: every one, and of the 16-bit words those of the C extension. -/
def encodableHandler (i : Instr) : Prop :=
  i.kind = .handler ∧ ∀ b, i = .handlerBase (.compressed b) → b.toNat % 4 ≠ 3 ∧ (rvcExpand b.toNat).isSome = true

end Sys2Proof.Claims

/-- R237 to R243: decoding and encoding agree: every well-formed slot and every well-formed bundle is read back from its word,
whatever its operands; and a slot word has one meaning: no two words are read as the same slot. -/
def Obligations.BundleEncoding : Prop :=
  (∀ (k : Sys2Proof.Kind) (blk : Bool) (e : Sys2Proof.Slot), Sys2Proof.Claims.slotKind k →
    Sys2Proof.Claims.encodable k blk e →
    Sys2Proof.encodeSlot e < 2 ^ 60 ∧ Sys2Proof.decodeSlot k blk (Sys2Proof.encodeSlot e) = .ok e) ∧
  (∀ (k : Sys2Proof.Kind) (blk : Bool) (e : Sys2Proof.Slot) (w : Nat), Sys2Proof.Claims.slotKind k → w < 2 ^ 60 →
    Sys2Proof.decodeSlot k blk w = .ok e → Sys2Proof.encodeSlot e = w) ∧
  ∀ b : Sys2Proof.Bundle, Sys2Proof.Claims.encodableBundle b →
    Sys2Proof.decodeBundle (Sys2Proof.encodeBundle b) = .ok b

/-- R205, R225, R226: every instruction of the handler cores is read back from its word, whatever its operands: the custom
instructions, and the base instructions after the RISC-V specification (the model's reading, log 6). -/
def Obligations.HandlerEncoding : Prop :=
  ∀ i : Sys2Proof.Instr, Sys2Proof.Claims.encodableHandler i →
    Sys2Proof.decodeHandler (Sys2Proof.encodeHandler i) = some i

/-- R237 to R243, R225, R226: words written out from the spec's encodings are read as the instructions they stand for. -/
def Obligations.DecodedWords : Prop :=
  (∀ e ∈ ([(.s, 0x00200C1080000000, ⟨false, 0, .add 3 1 2 0⟩), (.s, 0x03400C1080000002, ⟨false, 0, .cmp .lt 3 1 2⟩),
      (.y, 0x0022003FFFFFFFFD, ⟨false, 2, .br ⟨-1, -3⟩⟩), (.y, 0x0120000000000000, ⟨false, 0, .loope 0 ⟨0, 0⟩⟩),
      (.v, 0x04400502C180D200, ⟨false, 0, .vfma .pp .f32 .rne 10 11 12 13 2⟩),
      (.v, 0x05800A0042A0000C, ⟨false, 0, .vcvtx false .f32 .mxi8 .rne 20 1 21 0⟩),
      (.m, 0x0020071400000000, ⟨false, 0, .sgo true 0 0 (some 5)⟩), (.m, 0x01C0000000000002, ⟨false, 0, .slit (.n 1)⟩),
      (.l, 0x002000A321800040, ⟨false, 0, .ld (.s 5) .b8 false ⟨false, 3, 0x40, 2, .none⟩⟩),
      (.t, 0x0140C00000300048, ⟨false, 0, .fence true .mod 4⟩),
      (.t, 0x0020036401000000, ⟨false, 0, .st (.s 27) .b4 ⟨false, 4, 0, 0, .none⟩⟩)] :
      List (Sys2Proof.Kind × Nat × Sys2Proof.Slot)), (Sys2Proof.decodeSlot e.1 false e.2.1).toOption = some e.2.2) ∧
  ∀ e ∈ ([(0x0003438B, .slfill false 7 6), (0x0000202B, .slret 0), (0x0005C62B, .slnext false 12 11), (0x00003F2B, .slbud 30),
      (0x0202C3AB, .slnext true 7 5), (0x000F0F0B, .slrd 30 30), (0x0003D32B, .slwait 6 7), (0x01FF1F2B, .slmsg 30 30 31)] :
      List (Nat × Sys2Proof.Instr)), Sys2Proof.decodeHandler e.1 = some e.2

/-- A step runs what is decoded (log 1): the next slot of the bundle in issue, when its predicate enables it; else the first
move that is due: an event, or the instruction that a handler core reads at its PC; else the agents' next moves become due.
A selected context's bundle is the one that the 64 bytes at its PC decode to, and a word that decodes to none traps. -/
def Obligations.StepRunsDecoded : Prop :=
  ∀ s : Sys2Proof.Machine.State,
    (∀ e es n ns, s.slots = e :: es → s.slotNos = n :: ns → (s.nextSlot n).enabled e = true →
      ∀ t, Sys2Proof.Machine.exec e.instr (s.nextSlot n) = .next t → Sys2Proof.Machine.step s = .next t.afterSlot) ∧
    (∀ e es n ns, s.slots = e :: es → s.slotNos = n :: ns → (s.nextSlot n).enabled e = false →
      Sys2Proof.Machine.step s = .next (s.nextSlot n).afterSlot) ∧
    (∀ i ms, s.slots = [] → s.agenda = .act i :: ms → Sys2Proof.Machine.step s = Sys2Proof.Machine.exec i { s with agenda := ms }) ∧
    (∀ h ms r i, s.slots = [] → s.agenda = .hart h :: ms → (s.slice h).run = some r → r.wait = .none →
      let n := if (s.slice h).codeRead r.pc 2 % 4 = 3 then 4 else 2
      (s.codePart r.ev.tenant).1 ≤ r.pc → r.pc + n ≤ (s.codePart r.ev.tenant).2 →
      Sys2Proof.decodeHandler ((s.slice h).codeRead r.pc n) = some i →
      Sys2Proof.Machine.step s = Sys2Proof.Machine.exec i { s with agenda := ms, hart := h }) ∧
    (s.slots = [] → s.agenda = [] → Sys2Proof.Machine.step s = .next s.idle) ∧
    (∀ K C w s1 b, (s.ctx K C).rest = [] →
      ((s.landDue K C ((s.ctx K C).bundle + 1)).aim K C).fetchBundle = .inl (w, s1) → Sys2Proof.decodeBundle w = .ok b →
      s.tryCtx K C = s1.tryBundle b) ∧
    (∀ K C w s1 e, (s.ctx K C).rest = [] →
      ((s.landDue K C ((s.ctx K C).bundle + 1)).aim K C).fetchBundle = .inl (w, s1) → Sys2Proof.decodeBundle w = .error e →
      s.tryCtx K C = .ended ({ s1 with cur := { s1.cur with slot := e.part.getD .y } }.trap (Sys2Proof.Machine.illopTrap e))) ∧
    ∀ K asid va n pa mt s1, s.xlate K asid va .fetch = (.ok pa mt, s1) → Sys2Proof.Claims.openTo s1 pa n →
      (mt = 0 → s1.linePoison (s1.linear pa) = false) →
      s.fetch K asid va n = (.ok (Sys2Proof.Machine.ofBytes (s1.physRead pa n)), s1.touched pa n)

/-- The meaning that a trial of a bundle's slots uses is that of `exec` (R440): one meaning for each slot instruction. -/
def Obligations.TrialsUseExec : Prop :=
  ∀ (i : Sys2Proof.Instr) (s : Sys2Proof.Machine.State), i.kind ≠ .handler → i.kind ≠ .event →
    Sys2Proof.Machine.runSlot i s = Sys2Proof.Machine.exec i s

/-- R153, R419: device and host memory keep their canonical form through every step: addresses strictly rising, and no entry
equal to what its address reads as without it. -/
def Obligations.MemoryStaysCanonical : Prop :=
  ∀ s t : Sys2Proof.Machine.State, Sys2Proof.Machine.Memory.wf s → Sys2Proof.Machine.step s = .next t →
    Sys2Proof.Machine.Memory.wf t

/-- R20, R108, R126, R173, R422, R423, R461: after reset memory is in its canonical form, every context is FREE with nothing
bound, no access or bundle is under way, and the registers of the window read the values that their tables give for
reset. -/
def Obligations.ResetValues : Prop :=
  let s := Sys2Proof.Machine.State.reset
  Sys2Proof.Machine.Memory.wf s ∧ s.slots = [] ∧ s.accs = [] ∧
    (∀ k c, (s.ctx k c).st = .free ∧ (s.ctx k c).bnd.launch = 0 ∧ (s.ctx k c).trapm = false) ∧
    (∀ e ∈ ([(0x0, 4, 1), (0x4, 4, 4096), (0x8, 4, 4096), (0xC, 4, 1024), (0x6000, 8, 0), (0x10000, 4, 0), (0x10008, 4, 65535),
        (0x1000C, 4, 1200), (0x10014, 4, 0), (0x10018, 4, 0), (0x10108, 4, 4096), (0x1010C, 4, 0), (0x10110, 4, 0),
        (0x10114, 4, 0), (0x10118, 2, 0)] : List (Nat × Nat × Nat)),
      Sys2Proof.Machine.ofBytes (s.regRead e.1 e.2.1) = e.2.2) ∧
    ∀ q < 64, Sys2Proof.Machine.ofBytes (s.regRead (0x1000 + 0x40 * q) 8) = 0 ∧
      Sys2Proof.Machine.ofBytes (s.regRead (0x1008 + 0x40 * q) 4) = 0 ∧
      Sys2Proof.Machine.ofBytes (s.regRead (0x1010 + 0x40 * q) 4) = 0
end

