-- ==== Sys2Proof/Laws/Dispatch.lean ====
section
/-!
SUPPORT. The meaning of each constructor, one lemma each: proofs cite them instead of unfolding `exec`.
-/
namespace Sys2Proof.Machine

theorem exec_nop (desc : BitVec 48) (s : State) : exec (.nop desc) s = execNop desc s := rfl
theorem exec_br (t : BrTarget) (s : State) : exec (.br t) s = execBr t s := rfl
theorem exec_bra (l : LReg) (s : State) : exec (.bra l) s = execBra l s := rfl
theorem exec_brs (cc : SumTest) (z : ZReg) (t : BrTarget) (s : State) : exec (.brs cc z t) s = execBrs cc z t s := rfl
theorem exec_brv (cc : MaskTest) (k : KReg) (t : BrTarget) (s : State) : exec (.brv cc k t) s = execBrv cc k t s := rfl
theorem exec_call (l : LReg) (t : BrTarget) (s : State) : exec (.call l t) s = execCall l t s := rfl
theorem exec_ret (l : LReg) (s : State) : exec (.ret l) s = execRet l s := rfl
theorem exec_jmpl (ld l : LReg) (s : State) : exec (.jmpl ld l) s = execJmpl ld l s := rfl
theorem exec_loopi (l : LReg) (count : BitVec 16) (s : State) : exec (.loopi l count) s = execLoopi l count s := rfl
theorem exec_loope (l : LReg) (t : BrTarget) (s : State) : exec (.loope l t) s = execLoope l t s := rfl
theorem exec_chk (r : PoisonReg) (t : BrTarget) (s : State) : exec (.chk r t) s = execChk r t s := rfl
theorem exec_wait (fs : WaitFlags) (s : State) : exec (.wait fs) s = execWait fs s := rfl
theorem exec_waitp (es : WaitEntries) (s : State) : exec (.waitp es) s = execWaitp es s := rfl
theorem exec_setf (f : FReg) (s : State) : exec (.setf f) s = execSetf f s := rfl
theorem exec_clrf (f : FReg) (s : State) : exec (.clrf f) s = execClrf f s := rfl
theorem exec_setp (pd : PReg) (src : SetpSrc) (s : State) : exec (.setp pd src) s = execSetp pd src s := rfl
theorem exec_post (tgt : PostTarget) (f : FReg) (s : State) : exec (.post tgt f) s = execPost tgt f s := rfl
theorem exec_dbar (lvl : BitVec 3) (lead : Bool) (s : State) : exec (.dbar lvl lead) s = execDbar lvl lead s := rfl
theorem exec_send (dmod : BitVec 12) (ch : BitVec 4) (l : LReg) (nfl : BitVec 4) (s : State) : exec (.send dmod ch l nfl) s = execSend dmod ch l nfl s := rfl
theorem exec_recv (smod : BitVec 12) (ch : BitVec 4) (l : LReg) (nfl : BitVec 4) (s : State) : exec (.recv smod ch l nfl) s = execRecv smod ch l nfl s := rfl
theorem exec_mark (lm : BitVec 16) (s : State) : exec (.mark lm) s = execMark lm s := rfl
theorem exec_yield (s : State) : exec (.yield) s = execYield s := rfl
theorem exec_exit (s : State) : exec (.exit) s = execExit s := rfl
theorem exec_trap (code : BitVec 16) (val : BitVec 32) (s : State) : exec (.trap code val) s = execTrap code val s := rfl
theorem exec_tret (s : State) : exec (.tret) s = execTret s := rfl
theorem exec_add (sd sa sb : SReg) (sh : BitVec 6) (s : State) : exec (.add sd sa sb sh) s = execAdd sd sa sb sh s := rfl
theorem exec_sub (sd sa sb : SReg) (sh : BitVec 6) (s : State) : exec (.sub sd sa sb sh) s = execSub sd sa sb sh s := rfl
theorem exec_addi (sd sa : SReg) (imm : BitVec 36) (s : State) : exec (.addi sd sa imm) s = execAddi sd sa imm s := rfl
theorem exec_mul (sd sa sb : SReg) (acc : Option SReg) (s : State) : exec (.mul sd sa sb acc) s = execMul sd sa sb acc s := rfl
theorem exec_mulh (sd sa sb : SReg) (s : State) : exec (.mulh sd sa sb) s = execMulh sd sa sb s := rfl
theorem exec_mulhn (sd sa sb : SReg) (s : State) : exec (.mulhn sd sa sb) s = execMulhn sd sa sb s := rfl
theorem exec_div (sd sa sb : SReg) (s : State) : exec (.div sd sa sb) s = execDiv sd sa sb s := rfl
theorem exec_divn (sd sa sb : SReg) (s : State) : exec (.divn sd sa sb) s = execDivn sd sa sb s := rfl
theorem exec_rem (sd sa sb : SReg) (s : State) : exec (.rem sd sa sb) s = execRem sd sa sb s := rfl
theorem exec_remn (sd sa sb : SReg) (s : State) : exec (.remn sd sa sb) s = execRemn sd sa sb s := rfl
theorem exec_and (sd sa sb : SReg) (s : State) : exec (.and sd sa sb) s = execAnd sd sa sb s := rfl
theorem exec_or (sd sa sb : SReg) (s : State) : exec (.or sd sa sb) s = execOr sd sa sb s := rfl
theorem exec_xor (sd sa sb : SReg) (s : State) : exec (.xor sd sa sb) s = execXor sd sa sb s := rfl
theorem exec_andn (sd sa sb : SReg) (s : State) : exec (.andn sd sa sb) s = execAndn sd sa sb s := rfl
theorem exec_shl (sd sa : SReg) (amt : ShAmt) (s : State) : exec (.shl sd sa amt) s = execShl sd sa amt s := rfl
theorem exec_shr (sd sa : SReg) (amt : ShAmt) (s : State) : exec (.shr sd sa amt) s = execShr sd sa amt s := rfl
theorem exec_sar (sd sa : SReg) (amt : ShAmt) (s : State) : exec (.sar sd sa amt) s = execSar sd sa amt s := rfl
theorem exec_rot (sd sa : SReg) (amt : ShAmt) (s : State) : exec (.rot sd sa amt) s = execRot sd sa amt s := rfl
theorem exec_clz (sd sa : SReg) (s : State) : exec (.clz sd sa) s = execClz sd sa s := rfl
theorem exec_ctz (sd sa : SReg) (s : State) : exec (.ctz sd sa) s = execCtz sd sa s := rfl
theorem exec_popc (sd sa : SReg) (s : State) : exec (.popc sd sa) s = execPopc sd sa s := rfl
theorem exec_min (sd sa sb : SReg) (s : State) : exec (.min sd sa sb) s = execMin sd sa sb s := rfl
theorem exec_max (sd sa sb : SReg) (s : State) : exec (.max sd sa sb) s = execMax sd sa sb s := rfl
theorem exec_minn (sd sa sb : SReg) (s : State) : exec (.minn sd sa sb) s = execMinn sd sa sb s := rfl
theorem exec_maxn (sd sa sb : SReg) (s : State) : exec (.maxn sd sa sb) s = execMaxn sd sa sb s := rfl
theorem exec_cmp (cc : Cond) (pd : PReg) (sa sb : SReg) (s : State) : exec (.cmp cc pd sa sb) s = execCmp cc pd sa sb s := rfl
theorem exec_cmpi (cc : Cond) (pd : PReg) (sa : SReg) (imm : BitVec 32) (s : State) : exec (.cmpi cc pd sa imm) s = execCmpi cc pd sa imm s := rfl
theorem exec_sel (sd : SReg) (neg : Bool) (p : PReg) (sa sb : SReg) (s : State) : exec (.sel sd neg p sa sb) s = execSel sd neg p sa sb s := rfl
theorem exec_li (sd : SReg) (imm : BitVec 42) (s : State) : exec (.li sd imm) s = execLi sd imm s := rfl
theorem exec_lih (sd : SReg) (imm : BitVec 22) (s : State) : exec (.lih sd imm) s = execLih sd imm s := rfl
theorem exec_mov (sd sa : SReg) (s : State) : exec (.mov sd sa) s = execMov sd sa s := rfl
theorem exec_xsv (vd : VReg) (lane : BitVec 5) (ss : SReg) (s : State) : exec (.xsv vd lane ss) s = execXsv vd lane ss s := rfl
theorem exec_xvs (sd : SReg) (vs : VReg) (lane : BitVec 5) (s : State) : exec (.xvs sd vs lane) s = execXvs sd vs lane s := rfl
theorem exec_xsa (ad : AReg) (ss : SReg) (s : State) : exec (.xsa ad ss) s = execXsa ad ss s := rfl
theorem exec_xas (sd : SReg) (sa : AReg) (s : State) : exec (.xas sd sa) s = execXas sd sa s := rfl
theorem exec_xsl (ld : LReg) (ss : SReg) (s : State) : exec (.xsl ld ss) s = execXsl ld ss s := rfl
theorem exec_xls (sd : SReg) (ls : LReg) (s : State) : exec (.xls sd ls) s = execXls sd ls s := rfl
theorem exec_mfc (sd : SReg) (creg : BitVec 12) (s : State) : exec (.mfc sd creg) s = execMfc sd creg s := rfl
theorem exec_mtc (creg : BitVec 12) (ss : SReg) (s : State) : exec (.mtc creg ss) s = execMtc creg ss s := rfl
theorem exec_vadd (f : VInt) (vd va vb : VReg) (k : KReg) (s : State) : exec (.vadd f vd va vb k) s = execVadd f vd va vb k s := rfl
theorem exec_vsub (f : VInt) (vd va vb : VReg) (k : KReg) (s : State) : exec (.vsub f vd va vb k) s = execVsub f vd va vb k s := rfl
theorem exec_vmul (f : VInt) (vd va vb : VReg) (k : KReg) (s : State) : exec (.vmul f vd va vb k) s = execVmul f vd va vb k s := rfl
theorem exec_vmulh (w : EW) (n : Bool) (vd va vb : VReg) (k : KReg) (s : State) : exec (.vmulh w n vd va vb k) s = execVmulh w n vd va vb k s := rfl
theorem exec_vmad (f : VInt) (vd va vb vc : VReg) (k : KReg) (s : State) : exec (.vmad f vd va vb vc k) s = execVmad f vd va vb vc k s := rfl
theorem exec_vabs (w : EW) (sat : Bool) (vd va : VReg) (k : KReg) (s : State) : exec (.vabs w sat vd va k) s = execVabs w sat vd va k s := rfl
theorem exec_vmin (w : EW) (vd va vb : VReg) (k : KReg) (s : State) : exec (.vmin w vd va vb k) s = execVmin w vd va vb k s := rfl
theorem exec_vmax (w : EW) (vd va vb : VReg) (k : KReg) (s : State) : exec (.vmax w vd va vb k) s = execVmax w vd va vb k s := rfl
theorem exec_vminn (w : EW) (vd va vb : VReg) (k : KReg) (s : State) : exec (.vminn w vd va vb k) s = execVminn w vd va vb k s := rfl
theorem exec_vmaxn (w : EW) (vd va vb : VReg) (k : KReg) (s : State) : exec (.vmaxn w vd va vb k) s = execVmaxn w vd va vb k s := rfl
theorem exec_vand (vd va vb : VReg) (k : KReg) (s : State) : exec (.vand vd va vb k) s = execVand vd va vb k s := rfl
theorem exec_vor (vd va vb : VReg) (k : KReg) (s : State) : exec (.vor vd va vb k) s = execVor vd va vb k s := rfl
theorem exec_vxor (vd va vb : VReg) (k : KReg) (s : State) : exec (.vxor vd va vb k) s = execVxor vd va vb k s := rfl
theorem exec_vlut3 (tt : BitVec 8) (vd va vb vc : VReg) (k : KReg) (s : State) : exec (.vlut3 tt vd va vb vc k) s = execVlut3 tt vd va vb vc k s := rfl
theorem exec_vshl (w : EW) (vd va : VReg) (amt : VAmt) (k : KReg) (s : State) : exec (.vshl w vd va amt k) s = execVshl w vd va amt k s := rfl
theorem exec_vshr (w : EW) (vd va : VReg) (amt : VAmt) (k : KReg) (s : State) : exec (.vshr w vd va amt k) s = execVshr w vd va amt k s := rfl
theorem exec_vsar (w : EW) (vd va : VReg) (amt : VAmt) (k : KReg) (s : State) : exec (.vsar w vd va amt k) s = execVsar w vd va amt k s := rfl
theorem exec_vfsl (w : EW) (vd va vb : VReg) (amt : VAmt) (k : KReg) (s : State) : exec (.vfsl w vd va vb amt k) s = execVfsl w vd va vb amt k s := rfl
theorem exec_vfsr (w : EW) (vd va vb : VReg) (amt : VAmt) (k : KReg) (s : State) : exec (.vfsr w vd va vb amt k) s = execVfsr w vd va vb amt k s := rfl
theorem exec_vrot (w : EW) (vd va : VReg) (amt : VAmt) (k : KReg) (s : State) : exec (.vrot w vd va amt k) s = execVrot w vd va amt k s := rfl
theorem exec_vpopc (w : EW) (vd va : VReg) (k : KReg) (s : State) : exec (.vpopc w vd va k) s = execVpopc w vd va k s := rfl
theorem exec_vclz (w : EW) (vd va : VReg) (k : KReg) (s : State) : exec (.vclz w vd va k) s = execVclz w vd va k s := rfl
theorem exec_vcmp (cc : Cond) (w : EW) (agg : Bool) (kd : KReg) (va vb : VReg) (k : KReg) (s : State) : exec (.vcmp cc w agg kd va vb k) s = execVcmp cc w agg kd va vb k s := rfl
theorem exec_vsel (neg : Bool) (kn : KReg) (vd va vb : VReg) (k : KReg) (s : State) : exec (.vsel neg kn vd va vb k) s = execVsel neg kn vd va vb k s := rfl
theorem exec_vbcst (w : EW) (vd va : VReg) (idx : BitVec 7) (k : KReg) (s : State) : exec (.vbcst w vd va idx k) s = execVbcst w vd va idx k s := rfl
theorem exec_vperm (w : EW) (vd va vb : VReg) (k : KReg) (s : State) : exec (.vperm w vd va vb k) s = execVperm w vd va vb k s := rfl
theorem exec_vrotl (w : EW) (vd va : VReg) (r : BitVec 7) (k : KReg) (s : State) : exec (.vrotl w vd va r k) s = execVrotl w vd va r k s := rfl
theorem exec_vreda (f : RedaForm) (vd va : VReg) (k : KReg) (s : State) : exec (.vreda f vd va k) s = execVreda f vd va k s := rfl
theorem exec_vredm (max : Bool) (f : RedmForm) (vd va : VReg) (k : KReg) (s : State) : exec (.vredm max f vd va k) s = execVredm max f vd va k s := rfl
theorem exec_vtest (zd : ZReg) (src : TestSrc) (k : KReg) (s : State) : exec (.vtest zd src k) s = execVtest zd src k s := rfl
theorem exec_vfadd (t : FT) (rm : Rm) (vd va vb : VReg) (k : KReg) (s : State) : exec (.vfadd t rm vd va vb k) s = execVfadd t rm vd va vb k s := rfl
theorem exec_vfsub (t : FT) (rm : Rm) (vd va vb : VReg) (k : KReg) (s : State) : exec (.vfsub t rm vd va vb k) s = execVfsub t rm vd va vb k s := rfl
theorem exec_vfmul (t : FT) (rm : Rm) (vd va vb : VReg) (k : KReg) (s : State) : exec (.vfmul t rm vd va vb k) s = execVfmul t rm vd va vb k s := rfl
theorem exec_vfma (f : FmaForm) (t : FT) (rm : Rm) (vd va vb vc : VReg) (k : KReg) (s : State) : exec (.vfma f t rm vd va vb vc k) s = execVfma f t rm vd va vb vc k s := rfl
theorem exec_vfmin (t : FT) (vd va vb : VReg) (k : KReg) (s : State) : exec (.vfmin t vd va vb k) s = execVfmin t vd va vb k s := rfl
theorem exec_vfmax (t : FT) (vd va vb : VReg) (k : KReg) (s : State) : exec (.vfmax t vd va vb k) s = execVfmax t vd va vb k s := rfl
theorem exec_vfcmp (cc : FCond) (t : FT) (agg : Bool) (kd : KReg) (va vb : VReg) (k : KReg) (s : State) : exec (.vfcmp cc t agg kd va vb k) s = execVfcmp cc t agg kd va vb k s := rfl
theorem exec_vfrcp (t : FT) (rm : Rm) (vd va : VReg) (k : KReg) (s : State) : exec (.vfrcp t rm vd va k) s = execVfrcp t rm vd va k s := rfl
theorem exec_vfrsq (t : FT) (rm : Rm) (vd va : VReg) (k : KReg) (s : State) : exec (.vfrsq t rm vd va k) s = execVfrsq t rm vd va k s := rfl
theorem exec_vfexp2 (t : FT) (rm : Rm) (vd va : VReg) (k : KReg) (s : State) : exec (.vfexp2 t rm vd va k) s = execVfexp2 t rm vd va k s := rfl
theorem exec_vflog2 (t : FT) (rm : Rm) (vd va : VReg) (k : KReg) (s : State) : exec (.vflog2 t rm vd va k) s = execVflog2 t rm vd va k s := rfl
theorem exec_vcvt (dt st : CvtT) (rm : Rm) (vd va : VReg) (p : BitVec 3) (k : KReg) (s : State) : exec (.vcvt dt st rm vd va p k) s = execVcvt dt st rm vd va p k s := rfl
theorem exec_vcvti (toFloat : Bool) (t : FT) (n : Bool) (w : EW) (rm : Rm) (vd va : VReg) (p : BitVec 3) (k : KReg) (s : State) : exec (.vcvti toFloat t n w rm vd va p k) s = execVcvti toFloat t n w rm vd va p k s := rfl
theorem exec_vcvtx (fromBlk : Bool) (t : FT) (bt : BlkT) (rm : Rm) (vd va vb : VReg) (p : BitVec 3) (s : State) : exec (.vcvtx fromBlk t bt rm vd va vb p) s = execVcvtx fromBlk t bt rm vd va vb p s := rfl
theorem exec_vpack (sw : PackW) (n dn sat : Bool) (vd va vb : VReg) (k : KReg) (s : State) : exec (.vpack sw n dn sat vd va vb k) s = execVpack sw n dn sat vd va vb k s := rfl
theorem exec_vunpk (dw : PackW) (n : Bool) (vd va : VReg) (p : BitVec 1) (k : KReg) (s : State) : exec (.vunpk dw n vd va p k) s = execVunpk dw n vd va p k s := rfl
theorem exec_vtrd (cv : TileCv) (vd : VReg) (tile : TileNo) (idx : BitVec 11) (seg : BitVec 5) (k : KReg) (s : State) : exec (.vtrd cv vd tile idx seg k) s = execVtrd cv vd tile idx seg k s := rfl
theorem exec_vtcd (cv : TileCv) (vd : VReg) (tile : TileNo) (idx : BitVec 11) (seg : BitVec 5) (k : KReg) (s : State) : exec (.vtcd cv vd tile idx seg k) s = execVtcd cv vd tile idx seg k s := rfl
theorem exec_vtwr (cv : TileCv) (vs : VReg) (tile : TileNo) (idx : BitVec 11) (seg : BitVec 5) (k : KReg) (s : State) : exec (.vtwr cv vs tile idx seg k) s = execVtwr cv vs tile idx seg k s := rfl
theorem exec_vmov (vd va : VReg) (k : KReg) (s : State) : exec (.vmov vd va k) s = execVmov vd va k s := rfl
theorem exec_viota (src : IotaSrc) (vd : VReg) (k : KReg) (s : State) : exec (.viota src vd k) s = execViota src vd k s := rfl
theorem exec_vkop (f : KopForm) (s : State) : exec (.vkop f) s = execVkop f s := rfl
theorem exec_sgo (sw : Bool) (hm : BitVec 2) (pl : PlaneNo) (flag : Option FReg) (s : State) : exec (.sgo sw hm pl flag) s = execSgo sw hm pl flag s := rfl
theorem exec_slen (j : BitVec 5) (s : State) : exec (.slen j) s = execSlen j s := rfl
theorem exec_sseed (s : State) : exec (.sseed) s = execSseed s := rfl
theorem exec_smode (afmt bfmt : EdgeFmt) (bp noshift prog : Bool) (s : State) : exec (.smode afmt bfmt bp noshift prog) s = execSmode afmt bfmt bp noshift prog s := rfl
theorem exec_sref (e : BitVec 10) (s : State) : exec (.sref e) s = execSref e s := rfl
theorem exec_sclr (pls : PlaneSet) (s : State) : exec (.sclr pls) s = execSclr pls s := rfl
theorem exec_sacc (bf : Bool) (tile : TileNo) (trow : BitVec 11) (pl : PlaneNo) (prow pcol : BitVec 9) (s : State) : exec (.sacc bf tile trow pl prow pcol) s = execSacc bf tile trow pl prow pcol s := rfl
theorem exec_smarg (drow col0 : BitVec 9) (ncol : BitVec 10) (s : State) : exec (.smarg drow col0 ncol) s = execSmarg drow col0 ncol s := rfl
theorem exec_sdrain (pls : PlaneSet) (s : State) : exec (.sdrain pls) s = execSdrain pls s := rfl
theorem exec_stest (pl : PlaneNo) (s : State) : exec (.stest pl) s = execStest pl s := rfl
theorem exec_sstop (pls : PlaneSet) (s : State) : exec (.sstop pls) s = execSstop pls s := rfl
theorem exec_svmrg (g : BitVec 3) (new : BitVec 8) (s : State) : exec (.svmrg g new) s = execSvmrg g new s := rfl
theorem exec_spos (pl : PlaneNo) (sel : BitVec 3) (s : State) : exec (.spos pl sel) s = execSpos pl sel s := rfl
theorem exec_slit (tgt : SlitTgt) (s : State) : exec (.slit tgt) s = execSlit tgt s := rfl
theorem exec_ld (d : SAReg) (w : SW) (sx : Bool) (a : MAddr) (s : State) : exec (.ld d w sx a) s = execLd d w sx a s := rfl
theorem exec_ldv (vd : VReg) (w : VW) (a : MAddr) (s : State) : exec (.ldv vd w a) s = execLdv vd w a s := rfl
theorem exec_lds (d : LdsDst) (a : MAddr) (s : State) : exec (.lds d a) s = execLds d a s := rfl
theorem exec_ldg (vd : VReg) (w : SW) (a : GAddr) (s : State) : exec (.ldg vd w a) s = execLdg vd w a s := rfl
theorem exec_ldx (g : GalleyNo) (hint : Hint) (a : FAddr) (s : State) : exec (.ldx g hint a) s = execLdx g hint a s := rfl
theorem exec_lda (d : SAReg) (w : SW) (scope : Scope) (ab : AReg) (cls : Cls) (mask : BitVec 16) (s : State) : exec (.lda d w scope ab cls mask) s = execLda d w scope ab cls mask s := rfl
theorem exec_pref (cls : Cls) (hint : Hint) (a : FAddr) (s : State) : exec (.pref cls hint a) s = execPref cls hint a s := rfl
theorem exec_waitaddr (ad : AReg) (w : AW) (ab : AReg) (tout : BitVec 7) (cls : Cls) (s : State) : exec (.waitaddr ad w ab tout cls) s = execWaitaddr ad w ab tout cls s := rfl
theorem exec_ldt (a : TAddr) (s : State) : exec (.ldt a) s = execLdt a s := rfl
theorem exec_cbtake (vd : VReg) (cls : Cls) (s : State) : exec (.cbtake vd cls) s = execCbtake vd cls s := rfl
theorem exec_rfetch (sd : SReg) (cls : Cls) (a : FAddr) (s : State) : exec (.rfetch sd cls a) s = execRfetch sd cls a s := rfl
theorem exec_st (d : SAReg) (w : SW) (a : MAddr) (s : State) : exec (.st d w a) s = execSt d w a s := rfl
theorem exec_stv (vs : VReg) (w : VW) (a : MAddr) (s : State) : exec (.stv vs w a) s = execStv vs w a s := rfl
theorem exec_sts (vs : VReg) (w : SW) (idx : BitVec 7) (loc : Bool) (ab : AReg) (off : BitVec 15) (cls : Cls) (hint : Hint) (s : State) : exec (.sts vs w idx loc ab off cls hint) s = execSts vs w idx loc ab off cls hint s := rfl
theorem exec_stx (vs : VReg) (w : SW) (a : GAddr) (s : State) : exec (.stx vs w a) s = execStx vs w a s := rfl
theorem exec_strl (d : SAReg) (w : SW) (scope : Scope) (ab : AReg) (cls : Cls) (mask : BitVec 16) (s : State) : exec (.strl d w scope ab cls mask) s = execStrl d w scope ab cls mask s := rfl
theorem exec_stt (a : TAddr) (s : State) : exec (.stt a) s = execStt a s := rfl
theorem exec_red (op : AtomOp) (w : AW) (ab : AReg) (ss : SReg) (cls : Cls) (hint : Hint) (s : State) : exec (.red op w ab ss cls hint) s = execRed op w ab ss cls hint s := rfl
theorem exec_rflush (cls : Cls) (a : FAddr) (s : State) : exec (.rflush cls a) s = execRflush cls a s := rfl
theorem exec_fence (b : Bool) (scope : Scope) (mask : BitVec 16) (s : State) : exec (.fence b scope mask) s = execFence b scope mask s := rfl
theorem exec_cline (op : ClineOp) (cls : Cls) (a : FAddr) (s : State) : exec (.cline op cls a) s = execCline op cls a s := rfl
theorem exec_cbdone (ss : SReg) (s : State) : exec (.cbdone ss) s = execCbdone ss s := rfl
theorem exec_cpy (a : CpyArgs) (s : State) : exec (.cpy a) s = execCpy a s := rfl
theorem exec_cpyc (a : CpyArgs) (s : State) : exec (.cpyc a) s = execCpyc a s := rfl
theorem exec_cpyt (a : CpyArgs) (s : State) : exec (.cpyt a) s = execCpyt a s := rfl
theorem exec_cpye (a : CpyArgs) (s : State) : exec (.cpye a) s = execCpye a s := rfl
theorem exec_bind (sw : Bool) (kind : BindKind) (g : GalleyNo) (hc : BitVec 2) (cls : Cls) (hint : Hint) (s : State) : exec (.bind sw kind g hc cls hint) s = execBind sw kind g hc cls hint s := rfl
theorem exec_unbind (g : GalleyNo) (flag : Option FReg) (s : State) : exec (.unbind g flag) s = execUnbind g flag s := rfl
theorem exec_reshape (mode : RegMode) (r : RegionNo) (cls : Cls) (flag : Option FReg) (s : State) : exec (.reshape mode r cls flag) s = execReshape mode r cls flag s := rfl
theorem exec_stash (sw : Bool) (r : RegionNo) (hc : BitVec 2) (hint : Hint) (flag : Option FReg) (s : State) : exec (.stash sw r hc hint flag) s = execStash sw r hc hint flag s := rfl
theorem exec_cwb (keep : Bool) (r : RegionNo) (cls : Cls) (flag : Option FReg) (s : State) : exec (.cwb keep r cls flag) s = execCwb keep r cls flag s := rfl
theorem exec_cqry (flag : FReg) (mask : BitVec 16) (s : State) : exec (.cqry flag mask) s = execCqry flag mask s := rfl
theorem exec_rwin (sw : Bool) (hc : BitVec 2) (len : BitVec 25) (wid : BitVec 2) (flag : Option FReg) (s : State) : exec (.rwin sw hc len wid flag) s = execRwin sw hc len wid flag s := rfl
theorem exec_slrd (rd rs1 : XReg) (s : State) : exec (.slrd rd rs1) s = execSlrd rd rs1 s := rfl
theorem exec_slwr (rs1 rs2 : XReg) (s : State) : exec (.slwr rs1 rs2) s = execSlwr rs1 rs2 s := rfl
theorem exec_sllk (rd rs1 : XReg) (s : State) : exec (.sllk rd rs1) s = execSllk rd rs1 s := rfl
theorem exec_slunlk (rs1 : XReg) (s : State) : exec (.slunlk rs1) s = execSlunlk rs1 s := rfl
theorem exec_slfill (noev : Bool) (rd rs1 : XReg) (s : State) : exec (.slfill noev rd rs1) s = execSlfill noev rd rs1 s := rfl
theorem exec_sldrop (rs1 : XReg) (s : State) : exec (.sldrop rs1) s = execSldrop rs1 s := rfl
theorem exec_slwb (rs1 : XReg) (s : State) : exec (.slwb rs1) s = execSlwb rs1 s := rfl
theorem exec_slamo (op : AmoOp) (rd rs1 rs2 : XReg) (s : State) : exec (.slamo op rd rs1 rs2) s = execSlamo op rd rs1 rs2 s := rfl
theorem exec_slevt (rd rs1 : XReg) (s : State) : exec (.slevt rd rs1) s = execSlevt rd rs1 s := rfl
theorem exec_slmsg (rd rs1 rs2 : XReg) (s : State) : exec (.slmsg rd rs1 rs2) s = execSlmsg rd rs1 rs2 s := rfl
theorem exec_slret (rs1 : XReg) (s : State) : exec (.slret rs1) s = execSlret rs1 s := rfl
theorem exec_slbud (rd : XReg) (s : State) : exec (.slbud rd) s = execSlbud rd s := rfl
theorem exec_slnext (noev : Bool) (rd rs1 : XReg) (s : State) : exec (.slnext noev rd rs1) s = execSlnext noev rd rs1 s := rfl
theorem exec_slwait (rd rs1 : XReg) (s : State) : exec (.slwait rd rs1) s = execSlwait rd rs1 s := rfl
theorem exec_slage (rs1 rs2 : XReg) (s : State) : exec (.slage rs1 rs2) s = execSlage rs1 rs2 s := rfl
theorem exec_slhas (rd rs1 : XReg) (s : State) : exec (.slhas rd rs1) s = execSlhas rd rs1 s := rfl
theorem exec_handlerBase (w : RvWord) (s : State) : exec (.handlerBase w) s = execHandlerBase w s := rfl
theorem exec_contextSelection (k : ClusterNo) (s : State) : exec (.contextSelection k) s = execContextSelection k s := rfl
theorem exec_blockStart (k : ClusterNo) (c : CtxNo) (s : State) : exec (.blockStart k c) s = execBlockStart k c s := rfl
theorem exec_blockOverrun (k : ClusterNo) (c : CtxNo) (s : State) : exec (.blockOverrun k c) s = execBlockOverrun k c s := rfl
theorem exec_waitReissue (k : ClusterNo) (c : CtxNo) (s : State) : exec (.waitReissue k c) s = execWaitReissue k c s := rfl
theorem exec_flagSetByAgent (k : ClusterNo) (c : CtxNo) (f : FReg) (s : State) : exec (.flagSetByAgent k c f) s = execFlagSetByAgent k c f s := rfl
theorem exec_postFlagDelivery (n : Nat) (s : State) : exec (.postFlagDelivery n) s = execPostFlagDelivery n s := rfl
theorem exec_barrierRelease (n : Nat) (s : State) : exec (.barrierRelease n) s = execBarrierRelease n s := rfl
theorem exec_leadRestart (k : ClusterNo) (c : CtxNo) (s : State) : exec (.leadRestart k c) s = execLeadRestart k c s := rfl
theorem exec_spanBarrierMessage (n : Nat) (s : State) : exec (.spanBarrierMessage n) s = execSpanBarrierMessage n s := rfl
theorem exec_preemptStopAtWait (k : ClusterNo) (c : CtxNo) (s : State) : exec (.preemptStopAtWait k c) s = execPreemptStopAtWait k c s := rfl
theorem exec_saveRecordWritten (k : ClusterNo) (c : CtxNo) (s : State) : exec (.saveRecordWritten k c) s = execSaveRecordWritten k c s := rfl
theorem exec_owedWritePerformed (n : Nat) (s : State) : exec (.owedWritePerformed n) s = execOwedWritePerformed n s := rfl
theorem exec_nestKstep (k : ClusterNo) (pl : PlaneNo) (s : State) : exec (.nestKstep k pl) s = execNestKstep k pl s := rfl
theorem exec_nestPassEnd (k : ClusterNo) (pl : PlaneNo) (s : State) : exec (.nestPassEnd k pl) s = execNestPassEnd k pl s := rfl
theorem exec_planeOpComplete (k : ClusterNo) (pl : PlaneNo) (s : State) : exec (.planeOpComplete k pl) s = execPlaneOpComplete k pl s := rfl
theorem exec_qtailWrite (q : BitVec 6) (v : BitVec 64) (s : State) : exec (.qtailWrite q v) s = execQtailWrite q v s := rfl
theorem exec_qctlWrite (q : BitVec 6) (v : BitVec 64) (s : State) : exec (.qctlWrite q v) s = execQctlWrite q v s := rfl
theorem exec_recordFetch (q : BitVec 6) (s : State) : exec (.recordFetch q) s = execRecordFetch q s := rfl
theorem exec_launchRetirement (n : Nat) (s : State) : exec (.launchRetirement n) s = execLaunchRetirement n s := rfl
theorem exec_heldCreditApply (n : Nat) (s : State) : exec (.heldCreditApply n) s = execHeldCreditApply n s := rfl
theorem exec_launchFault (n : Nat) (s : State) : exec (.launchFault n) s = execLaunchFault n s := rfl
theorem exec_faultStopTimeout (k : ClusterNo) (c : CtxNo) (s : State) : exec (.faultStopTimeout k c) s = execFaultStopTimeout k c s := rfl
theorem exec_preemptTimeout (n : Nat) (s : State) : exec (.preemptTimeout n) s = execPreemptTimeout n s := rfl
theorem exec_barrierTimeout (n : Nat) (s : State) : exec (.barrierTimeout n) s = execBarrierTimeout n s := rfl
theorem exec_cbtailWrite (u : BitVec 2) (v : BitVec 64) (s : State) : exec (.cbtailWrite u v) s = execCbtailWrite u v s := rfl
theorem exec_cbRecordAdmit (u : BitVec 2) (s : State) : exec (.cbRecordAdmit u) s = execCbRecordAdmit u s := rfl
theorem exec_cbGroupScan (u : BitVec 2) (s : State) : exec (.cbGroupScan u) s = execCbGroupScan u s := rfl
theorem exec_cbGroupOpen (u : BitVec 2) (s : State) : exec (.cbGroupOpen u) s = execCbGroupOpen u s := rfl
theorem exec_cbHandout (u : BitVec 2) (s : State) : exec (.cbHandout u) s = execCbHandout u s := rfl
theorem exec_cbdoneCount (u : BitVec 2) (s : State) : exec (.cbdoneCount u) s = execCbdoneCount u s := rfl
theorem exec_cberrWrite (u : BitVec 2) (v : BitVec 64) (s : State) : exec (.cberrWrite u v) s = execCberrWrite u v s := rfl
theorem exec_pageWalk (n : Nat) (s : State) : exec (.pageWalk n) s = execPageWalk n s := rfl
theorem exec_invAsid (asid : BitVec 12) (s : State) : exec (.invAsid asid) s = execInvAsid asid s := rfl
theorem exec_invRange (asid : BitVec 12) (s : State) : exec (.invRange asid) s = execInvRange asid s := rfl
theorem exec_bounceWrite (n : Nat) (s : State) : exec (.bounceWrite n) s = execBounceWrite n s := rfl
theorem exec_pagerResolve (n : Nat) (s : State) : exec (.pagerResolve n) s = execPagerResolve n s := rfl
theorem exec_stashGranuleFill (k : ClusterNo) (n : Nat) (s : State) : exec (.stashGranuleFill k n) s = execStashGranuleFill k n s := rfl
theorem exec_granuleInvalidate (k : ClusterNo) (n : Nat) (s : State) : exec (.granuleInvalidate k n) s = execGranuleInvalidate k n s := rfl
theorem exec_homeAccess (n : Nat) (s : State) : exec (.homeAccess n) s = execHomeAccess n s := rfl
theorem exec_reductionShadowAdd (n : Nat) (s : State) : exec (.reductionShadowAdd n) s = execReductionShadowAdd n s := rfl
theorem exec_channelFillArrival (sl : BitVec 9) (n : Nat) (s : State) : exec (.channelFillArrival sl n) s = execChannelFillArrival sl n s := rfl
theorem exec_hmsgArrival (n : Nat) (s : State) : exec (.hmsgArrival n) s = execHmsgArrival n s := rfl
theorem exec_handlerDispatch (sl : BitVec 9) (s : State) : exec (.handlerDispatch sl) s = execHandlerDispatch sl s := rfl
theorem exec_handlerBudgetAbort (sl : BitVec 9) (s : State) : exec (.handlerBudgetAbort sl) s = execHandlerBudgetAbort sl s := rfl
theorem exec_replyDelivery (n : Nat) (s : State) : exec (.replyDelivery n) s = execReplyDelivery n s := rfl
theorem exec_farLoadReturn (n : Nat) (s : State) : exec (.farLoadReturn n) s = execFarLoadReturn n s := rfl
theorem exec_destinationFaultReport (n : Nat) (s : State) : exec (.destinationFaultReport n) s = execDestinationFaultReport n s := rfl
theorem exec_copyDispatch (k : ClusterNo) (n : Nat) (s : State) : exec (.copyDispatch k n) s = execCopyDispatch k n s := rfl
theorem exec_copyComplete (k : ClusterNo) (n : Nat) (s : State) : exec (.copyComplete k n) s = execCopyComplete k n s := rfl
theorem exec_engineAccessAbandon (n : Nat) (s : State) : exec (.engineAccessAbandon n) s = execEngineAccessAbandon n s := rfl
theorem exec_galleyFill (k : ClusterNo) (g : GalleyNo) (s : State) : exec (.galleyFill k g) s = execGalleyFill k g s := rfl
theorem exec_engineOpComplete (k : ClusterNo) (n : Nat) (s : State) : exec (.engineOpComplete k n) s = execEngineOpComplete k n s := rfl
theorem exec_spanMessageArrival (n : Nat) (s : State) : exec (.spanMessageArrival n) s = execSpanMessageArrival n s := rfl
theorem exec_spanMessageDiscard (n : Nat) (s : State) : exec (.spanMessageDiscard n) s = execSpanMessageDiscard n s := rfl
theorem exec_waitaddrWake (k : ClusterNo) (c : CtxNo) (s : State) : exec (.waitaddrWake k c) s = execWaitaddrWake k c s := rfl
theorem exec_waitaddrTimeout (k : ClusterNo) (c : CtxNo) (s : State) : exec (.waitaddrTimeout k c) s = execWaitaddrTimeout k c s := rfl
theorem exec_arcStopQuiesce (x : BitVec 7) (s : State) : exec (.arcStopQuiesce x) s = execArcStopQuiesce x s := rfl
theorem exec_elheadWrite (v : BitVec 64) (s : State) : exec (.elheadWrite v) s = execElheadWrite v s := rfl
theorem exec_unmappedWindowAccess (a : Nat) (s : State) : exec (.unmappedWindowAccess a) s = execUnmappedWindowAccess a s := rfl
theorem exec_energyWindow (k : ClusterNo) (s : State) : exec (.energyWindow k) s = execEnergyWindow k s := rfl
theorem exec_hostCompletion (n : Nat) (s : State) : exec (.hostCompletion n) s = execHostCompletion n s := rfl
theorem exec_segmentReplay (k : ClusterNo) (pl : PlaneNo) (s : State) : exec (.segmentReplay k pl) s = execSegmentReplay k pl s := rfl
theorem exec_accumulatorParityError (k : ClusterNo) (pl : PlaneNo) (s : State) : exec (.accumulatorParityError k pl) s = execAccumulatorParityError k pl s := rfl
theorem exec_lateResponseDiscard (n : Nat) (s : State) : exec (.lateResponseDiscard n) s = execLateResponseDiscard n s := rfl
theorem exec_chipletResetControlled (x : BitVec 7) (s : State) : exec (.chipletResetControlled x) s = execChipletResetControlled x s := rfl
theorem exec_chipletResetUncontrolled (x : BitVec 7) (s : State) : exec (.chipletResetUncontrolled x) s = execChipletResetUncontrolled x s := rfl
theorem exec_memoryChipletReset (m : BitVec 3) (s : State) : exec (.memoryChipletReset m) s = execMemoryChipletReset m s := rfl
theorem exec_flitCrcReplay (n : Nat) (s : State) : exec (.flitCrcReplay n) s = execFlitCrcReplay n s := rfl
theorem exec_linkFailover (n : Nat) (s : State) : exec (.linkFailover n) s = execLinkFailover n s := rfl
theorem exec_spanLinkDown (n : BitVec 3) (s : State) : exec (.spanLinkDown n) s = execSpanLinkDown n s := rfl
theorem exec_uncorrectableError (kind unit : Nat) (s : State) : exec (.uncorrectableError kind unit) s = execUncorrectableError kind unit s := rfl
theorem exec_correctedErrorMerge (kind unit : Nat) (s : State) : exec (.correctedErrorMerge kind unit) s = execCorrectedErrorMerge kind unit s := rfl
theorem exec_getMeasurements (n : Nat) (s : State) : exec (.getMeasurements n) s = execGetMeasurements n s := rfl
theorem exec_hostMemRead (a : Nat) (s : State) : exec (.hostMemRead a) s = execHostMemRead a s := rfl
theorem exec_hostMemWrite (a : Nat) (v : BitVec 64) (s : State) : exec (.hostMemWrite a v) s = execHostMemWrite a v s := rfl
theorem exec_hostErrorCompletion (n : Nat) (s : State) : exec (.hostErrorCompletion n) s = execHostErrorCompletion n s := rfl
theorem exec_droopInject (k : ClusterNo) (s : State) : exec (.droopInject k) s = execDroopInject k s := rfl
theorem exec_temperatureReading (n : Nat) (t0 t1 t2 : Int) (s : State) : exec (.temperatureReading n t0 t1 t2) s = execTemperatureReading n t0 t1 t2 s := rfl
theorem exec_throttleEnter (n : Nat) (s : State) : exec (.throttleEnter n) s = execThrottleEnter n s := rfl
theorem exec_throttleLeave (n : Nat) (s : State) : exec (.throttleLeave n) s = execThrottleLeave n s := rfl
theorem exec_imonDisagree (a b : Nat) (s : State) : exec (.imonDisagree a b) s = execImonDisagree a b s := rfl
theorem exec_thermalTrip (n : Nat) (s : State) : exec (.thermalTrip n) s = execThermalTrip n s := rfl
theorem exec_debugHalt (x : BitVec 7) (s : State) : exec (.debugHalt x) s = execDebugHalt x s := rfl
theorem exec_debugSave (x : BitVec 7) (s : State) : exec (.debugSave x) s = execDebugSave x s := rfl
theorem exec_debugRelease (x : BitVec 7) (s : State) : exec (.debugRelease x) s = execDebugRelease x s := rfl
theorem exec_registerWrite (a : Nat) (v : BitVec 64) (s : State) : exec (.registerWrite a v) s = execRegisterWrite a v s := rfl
theorem exec_memoryChipletReturn (m : BitVec 3) (s : State) : exec (.memoryChipletReturn m) s = execMemoryChipletReturn m s := rfl
theorem exec_droopClear (k : ClusterNo) (s : State) : exec (.droopClear k) s = execDroopClear k s := rfl
theorem exec_bbfullRecord (n : Nat) (s : State) : exec (.bbfullRecord n) s = execBbfullRecord n s := rfl
theorem exec_invAll (s : State) : exec (.invAll) s = execInvAll s := rfl
theorem exec_selection (s : State) : exec (.selection) s = execSelection s := rfl
theorem exec_invalidationDone (s : State) : exec (.invalidationDone) s = execInvalidationDone s := rfl
theorem exec_coldStart (s : State) : exec (.coldStart) s = execColdStart s := rfl
theorem exec_warmStart (s : State) : exec (.warmStart) s = execWarmStart s := rfl
theorem exec_warmStartKeep (s : State) : exec (.warmStartKeep) s = execWarmStartKeep s := rfl
theorem exec_hostReset (s : State) : exec (.hostReset) s = execHostReset s := rfl
theorem exec_startFailure (s : State) : exec (.startFailure) s = execStartFailure s := rfl
theorem exec_currentHalving (s : State) : exec (.currentHalving) s = execCurrentHalving s := rfl
theorem exec_currentRestore (s : State) : exec (.currentRestore) s = execCurrentRestore s := rfl
theorem exec_railGood (s : State) : exec (.railGood) s = execRailGood s := rfl
theorem exec_atom (op : AtomOp) (w : AW) (ab : AReg) (ss : SReg) (cls : Cls) (hint : Hint) (ret : Option (BitVec 18))
    (s : State) : exec (.atom op w ab ss cls hint ret) s = execAtom op w ab ss cls hint ret s := rfl
theorem exec_hmsg (vs : VReg) (ab : AReg) (cls : Cls) (rpl : Option (FReg × BitVec 16)) (s : State) :
    exec (.hmsg vs ab cls rpl) s = execHmsg vs ab cls rpl s := rfl

end Sys2Proof.Machine
end

