-- ==== Sys2Proof/Laws/Sparse.lean ====
section
/-!
SUPPORT. Laws of the finite maps: a read after a write, a write elsewhere, and that a write keeps the canonical form.
-/
namespace Sys2Proof.Machine

variable {α : Type}

theorem sget_serase (d : α) (m : Sparse α) (k : Nat) : sget d (serase m k) k = d := by
  induction m with
  | nil => rfl
  | cons e m ih =>
    obtain ⟨i, x⟩ := e
    by_cases h : i = k
    · simpa [serase, h] using ih
    · simpa [serase, sget, h] using ih

theorem sget_serase_ne (d : α) (m : Sparse α) {k j : Nat} (h : j ≠ k) : sget d (serase m k) j = sget d m j := by
  induction m with
  | nil => rfl
  | cons e m ih =>
    obtain ⟨i, x⟩ := e
    by_cases hi : i = k
    · subst hi
      have : sget d ((i, x) :: m) j = sget d m j := by simp [sget, Ne.symm h]
      rw [this, ← ih]
      simp [serase]
    · have : serase ((i, x) :: m) k = (i, x) :: serase m k := by simp [serase, hi]
      rw [this]
      simp only [sget, ih]

theorem sget_sinsert (d : α) (m : Sparse α) (k : Nat) (v : α) (hm : ∀ e ∈ m, e.1 ≠ k) :
    sget d (sinsert m k v) k = v := by
  induction m with
  | nil => simp [sinsert, sget]
  | cons e m ih =>
    obtain ⟨i, x⟩ := e
    have hi : i ≠ k := hm (i, x) (by simp)
    by_cases h : k < i
    · simp [sinsert, sget, h]
    · simpa [sinsert, sget, h, hi] using ih fun e he => hm e (by simp [he])

theorem sget_sinsert_ne (d : α) (m : Sparse α) {k j : Nat} (v : α) (h : j ≠ k) :
    sget d (sinsert m k v) j = sget d m j := by
  induction m with
  | nil => simp [sinsert, sget, Ne.symm h]
  | cons e m ih =>
    obtain ⟨i, x⟩ := e
    by_cases hk : k < i
    · simp [sinsert, sget, hk, Ne.symm h]
    · simp [sinsert, sget, hk, ih]

theorem ne_of_mem_serase {m : Sparse α} {k : Nat} {e : Nat × α} (h : e ∈ serase m k) : e.1 ≠ k := by
  simpa using (List.mem_filter.mp h).2

/-- A read after a write to the same key gives the value written. -/
@[simp] theorem sget_sset [DecidableEq α] (d : α) (m : Sparse α) (k : Nat) (v : α) : sget d (sset d m k v) k = v := by
  by_cases h : v = d
  · simp [sset, h, sget_serase]
  · simpa [sset, h] using sget_sinsert d (serase m k) k v fun e he => ne_of_mem_serase he

/-- A write leaves every other key alone. -/
theorem sget_sset_ne [DecidableEq α] (d : α) (m : Sparse α) {k j : Nat} (v : α) (h : j ≠ k) :
    sget d (sset d m k v) j = sget d m j := by
  by_cases hv : v = d
  · simp [sset, hv, sget_serase_ne d m h]
  · simp [sset, hv, sget_sinsert_ne d _ v h, sget_serase_ne d m h]

/-- The read of any key after a write. -/
theorem sget_sset_eq [DecidableEq α] (d : α) (m : Sparse α) (k j : Nat) (v : α) :
    sget d (sset d m k v) j = if j = k then v else sget d m j := by
  split
  · subst_vars; simp
  · exact sget_sset_ne d m v ‹_›

/-- The same, read and written with defaults of their own: what a list says, it says under every default. -/
theorem sget_sset_ne' [DecidableEq α] (d d' : α) (m : Sparse α) {k j : Nat} (v : α) (h : j ≠ k) :
    sget d' (sset d m k v) j = sget d' m j := by
  by_cases hv : v = d
  · simp [sset, hv, sget_serase_ne d' m h]
  · simp [sset, hv, sget_sinsert_ne d' _ v h, sget_serase_ne d' m h]

theorem mem_sinsert {m : Sparse α} {k : Nat} {v : α} {e : Nat × α} (h : e ∈ sinsert m k v) : e = (k, v) ∨ e ∈ m := by
  induction m with
  | nil => exact .inl (by simpa [sinsert] using h)
  | cons f m ih =>
    obtain ⟨i, x⟩ := f
    by_cases hk : k < i
    · simpa [sinsert, hk] using h
    · rcases (by simpa [sinsert, hk] using h : e = (i, x) ∨ e ∈ sinsert m k v) with h | h
      · exact .inr (by simp [h])
      · exact (ih h).imp id fun h => by simp [h]

theorem pairwise_sinsert {m : Sparse α} {k : Nat} (v : α) (hm : m.Pairwise fun a b => a.1 < b.1)
    (hk : ∀ e ∈ m, e.1 ≠ k) : (sinsert m k v).Pairwise fun a b => a.1 < b.1 := by
  induction m with
  | nil => simp [sinsert]
  | cons f m ih =>
    obtain ⟨i, x⟩ := f
    rw [List.pairwise_cons] at hm
    by_cases h : k < i
    · simp only [sinsert, h, if_true, List.pairwise_cons]
      refine ⟨fun e he => ?_, hm⟩
      rcases List.mem_cons.mp he with rfl | he
      · exact h
      · exact Nat.lt_trans h (hm.1 e he)
    · simp only [sinsert, h, if_false, List.pairwise_cons]
      refine ⟨fun e he => ?_, ih hm.2 fun e he => hk e (by simp [he])⟩
      rcases mem_sinsert he with rfl | he
      · have := hk (i, x) (by simp); simp at this ⊢; omega
      · exact hm.1 e he

/-- A filtered map is canonical when the map is. -/
theorem Sparse.wf_filter [DecidableEq α] {d : Nat → α} {m : Sparse α} (h : Sparse.wf d m) (p : Nat × α → Bool) :
    Sparse.wf d (m.filter p) :=
  ⟨h.1.filter p, fun e he => h.2 e (List.mem_filter.mp he).1⟩

/-- A write keeps the canonical form. -/
theorem Sparse.wf_sset [DecidableEq α] {d : Nat → α} {m : Sparse α} (h : Sparse.wf d m) (k : Nat) (v : α) :
    Sparse.wf d (sset (d k) m k v) := by
  have he : Sparse.wf d (serase m k) := Sparse.wf_filter h _
  by_cases hv : v = d k
  · simpa [sset, hv] using he
  · refine ⟨?_, fun e h' => ?_⟩
    · simpa [sset, hv] using pairwise_sinsert v he.1 fun e he => ne_of_mem_serase he
    · rcases mem_sinsert (by simpa [sset, hv] using h') with rfl | h'
      · exact hv
      · exact he.2 e h'

/-- A listed entry is what its key reads. -/
theorem sget_of_mem {d : α} {m : Sparse α} (h : m.Pairwise fun a b => a.1 < b.1) {e : Nat × α} (he : e ∈ m) :
    sget d m e.1 = e.2 := by
  induction m with
  | nil => simp at he
  | cons f m ih =>
    obtain ⟨i, x⟩ := f
    rw [List.pairwise_cons] at h
    rcases List.mem_cons.mp he with rfl | he
    · simp [sget]
    · have : i ≠ e.1 := Nat.ne_of_lt (h.1 e he)
      simpa [sget, this] using ih h.2 he

end Sys2Proof.Machine
end

