-- ==== Sys2Proof/Laws/Memory.lean ====
section
/-!
SUPPORT. Laws of memory: a byte read after a byte written, and that every operation over memory keeps its canonical form.
-/
namespace Sys2Proof.Machine

theorem dram_setDram (s : State) (a : Nat) (b : Byte) : (s.setDram a b).dram a = b := by
  simp [State.dram, State.setDram, State.fillAt]

theorem dram_setDram_ne (s : State) {a j : Nat} (b : Byte) (h : j ≠ a) : (s.setDram a b).dram j = s.dram j := by
  simp only [State.dram, State.setDram]
  exact sget_sset_ne' _ _ _ _ h

theorem hostByte_setHostByte (s : State) (a : Nat) (b : Byte) : (s.setHostByte a b).hostByte a = b := by
  simp [State.hostByte, State.setHostByte]

theorem hostByte_setHostByte_ne (s : State) {a j : Nat} (b : Byte) (h : j ≠ a) :
    (s.setHostByte a b).hostByte j = s.hostByte j := by
  simp only [State.hostByte, State.setHostByte]
  exact sget_sset_ne' _ _ _ _ h

/-- Whatever keeps the memories and the undefined ranges keeps the form. -/
theorem Memory.wf_of_eq {s t : State} (h : Memory.wf s) (hm : t.mem = s.mem) (hf : t.memFill = s.memFill)
    (hh : t.hostMem = s.hostMem) : Memory.wf t := by
  have : t.fillAt = s.fillAt := by funext a; simp [State.fillAt, hf]
  simpa only [Memory.wf, hm, hh, this] using h

theorem setDram_wf {s : State} (h : Memory.wf s) (a : Nat) (b : Byte) : Memory.wf (s.setDram a b) :=
  ⟨Sparse.wf_sset h.1 a b, h.2⟩

theorem setHostByte_wf {s : State} (h : Memory.wf s) (a : Nat) (b : Byte) : Memory.wf (s.setHostByte a b) :=
  ⟨h.1, Sparse.wf_sset h.2 a b⟩

theorem undefine_wf {s : State} (h : Memory.wf s) (lo hi : Nat) : Memory.wf (s.undefine lo hi) := by
  refine ⟨⟨(Sparse.wf_filter h.1 _).1, fun e he => ?_⟩, h.2⟩
  have hm := List.mem_filter.mp he
  have : (s.undefine lo hi).fillAt e.1 = s.fillAt e.1 := by
    simp only [State.undefine, State.fillAt, List.find?_cons]
    have : (decide (lo ≤ e.1) && decide (e.1 < hi)) = false := by
      have h2 := hm.2
      simp only [Bool.not_eq_true', Bool.and_eq_false_iff, decide_eq_false_iff_not] at h2 ⊢
      exact h2
    simp [this]
  rw [this]
  exact h.1.2 e hm.1

theorem setHomeByte_wf {s : State} (h : Memory.wf s) (a : Nat) (b : Byte) : Memory.wf (s.setHomeByte a b) := by
  unfold State.setHomeByte
  dsimp only
  split
  · exact Memory.wf_of_eq h rfl rfl rfl
  · exact setDram_wf h a b

theorem homeWrite_wf {s : State} (h : Memory.wf s) (a : Nat) (bs : List Byte) : Memory.wf (s.homeWrite a bs) := by
  induction bs generalizing s a with
  | nil => exact h
  | cons b bs ih => exact ih (setHomeByte_wf h a b) (a + 1)

theorem setPhysByte_wf {s : State} (h : Memory.wf s) (a : Nat) (b : Byte) : Memory.wf (s.setPhysByte a b) := by
  unfold State.setPhysByte
  split
  · exact setHostByte_wf h _ b
  · exact setHomeByte_wf h _ b

theorem physWrite_wf {s : State} (h : Memory.wf s) (a : Nat) (bs : List Byte) : Memory.wf (s.physWrite a bs) := by
  induction bs generalizing s a with
  | nil => exact h
  | cons b bs ih => exact ih (setPhysByte_wf h a b) (a + 1)

/-- A fold of operations that keep the form keeps it. -/
theorem foldl_wf {α : Type} {f : State → α → State} (hf : ∀ s x, Memory.wf s → Memory.wf (f s x)) {s : State}
    (h : Memory.wf s) (xs : List α) : Memory.wf (xs.foldl f s) := by
  induction xs generalizing s with
  | nil => exact h
  | cons x xs ih => exact ih (hf s x h)

theorem clearPoison_wf {s : State} (h : Memory.wf s) (line : Nat) : Memory.wf (s.clearPoison line) :=
  Memory.wf_of_eq h rfl rfl rfl

theorem writeBackLine_wf {s : State} (h : Memory.wf s) (st : Store) (off lin : Nat) :
    Memory.wf (s.writeBackLine st off lin) := clearPoison_wf (homeWrite_wf h _ _) _

theorem recallRegion_wf {s : State} (h : Memory.wf s) (k r line : Nat) (e : Bool) :
    Memory.wf (s.recallRegion k r line e) := by
  unfold State.recallRegion
  dsimp only
  split
  · exact h
  · refine Memory.wf_of_eq (s := List.foldl _ _ _) ?_ rfl rfl rfl
    exact foldl_wf (fun s e h => writeBackLine_wf h _ _ _) h _

theorem invalidated_wf {s : State} (h : Memory.wf s) (line : Nat) (but : Option Nat) : Memory.wf (s.invalidated line but) := by
  unfold State.invalidated
  dsimp only
  split
  · exact h
  · exact Memory.wf_of_eq h rfl rfl rfl

theorem recall_wf {s : State} (h : Memory.wf s) (line : Nat) (but : Option (Nat × Nat)) (e : Bool) :
    Memory.wf (s.recall line but e) := by
  have h1 := foldl_wf (f := fun s (x : Nat × Nat) => s.recallRegion x.1 x.2 line e)
    (fun _ x h => recallRegion_wf h x.1 x.2 line e) h (s.otherRegions but)
  unfold State.recall
  dsimp only
  split
  · exact h1
  · exact invalidated_wf h1 line _

theorem takeBack_wf {s : State} (h : Memory.wf s) (pa n : Nat) (e : Bool) : Memory.wf (s.takeBack pa n e) :=
  foldl_wf (fun _ l h => recall_wf h l none e) h (s.linesOf pa n)

theorem agentWrite_wf {s : State} (h : Memory.wf s) (pa : Nat) (bs : List Byte) : Memory.wf (s.agentWrite pa bs) :=
  foldl_wf (fun _ l h => clearPoison_wf h l) (physWrite_wf (takeBack_wf h pa bs.length false) pa bs) _

end Sys2Proof.Machine
end

