-- ==== Sys2Proof/Laws/Frames.lean ====
section
/-! SUPPORT. What a write to memory leaves alone: everything but memory and its copies; and who may write a record. -/

namespace Sys2Proof.Machine

/-- t differs from s in memory, its slices and the count of free values at most. -/
def OnlyMemory (s t : State) : Prop :=
  t = { s with mem := t.mem, memFill := t.memFill, memPoison := t.memPoison, hostMem := t.hostMem, slices := t.slices, free := t.free }

/-- No cluster has a region that could hold a copy of memory. -/
def State.NoCopies (s : State) : Prop := s.otherRegions none = []

theorem OnlyMemory.refl (s : State) : OnlyMemory s s := rfl
theorem OnlyMemory.trans {s t u : State} (h : OnlyMemory s t) (k : OnlyMemory t u) : OnlyMemory s u := by
  unfold OnlyMemory at *
  rw [k, h]
theorem OnlyMemory.clusters {s t : State} (h : OnlyMemory s t) : t.clusters = s.clusters := by rw [h]
theorem OnlyMemory.noCopies {s t : State} (h : OnlyMemory s t) (k : s.NoCopies) : t.NoCopies := by
  unfold State.NoCopies State.otherRegions at *
  rw [h.clusters, k]
theorem OnlyMemory.ctxs {s t : State} (h : OnlyMemory s t) : t.ctxs = s.ctxs := by rw [h]
theorem OnlyMemory.accs {s t : State} (h : OnlyMemory s t) : t.accs = s.accs := by rw [h]
theorem OnlyMemory.forme {s t : State} (h : OnlyMemory s t) : t.forme = s.forme := by rw [h]
theorem OnlyMemory.agenda {s t : State} (h : OnlyMemory s t) : t.agenda = s.agenda := by rw [h]

theorem onlyMemory_foldl {α : Type} {f : State → α → State} (hf : ∀ s x, OnlyMemory s (f s x)) (s : State) (xs : List α) :
    OnlyMemory s (xs.foldl f s) := by
  induction xs generalizing s with
  | nil => exact .refl s
  | cons x xs ih => exact (hf s x).trans (ih (f s x))

theorem setHomeByte_only (s : State) (a : Nat) (b : Byte) : OnlyMemory s (s.setHomeByte a b) := by
  unfold State.setHomeByte
  dsimp only
  split <;> rfl

theorem homeWrite_only (s : State) (a : Nat) (bs : List Byte) : OnlyMemory s (s.homeWrite a bs) := by
  induction bs generalizing s a with
  | nil => exact .refl s
  | cons b bs ih => exact (setHomeByte_only s a b).trans (ih _ (a + 1))

theorem setPhysByte_only (s : State) (a : Nat) (b : Byte) : OnlyMemory s (s.setPhysByte a b) := by
  unfold State.setPhysByte
  split
  · rfl
  · exact setHomeByte_only s _ b

theorem physWrite_only (s : State) (a : Nat) (bs : List Byte) : OnlyMemory s (s.physWrite a bs) := by
  induction bs generalizing s a with
  | nil => exact .refl s
  | cons b bs ih => exact (setPhysByte_only s a b).trans (ih _ (a + 1))

theorem clearPoison_only (s : State) (line : Nat) : OnlyMemory s (s.clearPoison line) := rfl

theorem invalidated_only (s : State) (line : Nat) (but : Option Nat) : OnlyMemory s (s.invalidated line but) := by
  unfold State.invalidated
  dsimp only
  split <;> rfl

/-- With no copies, taking a line back marks its home's directory at most. -/
theorem recall_noCopies {s : State} (h : s.NoCopies) (line : Nat) (e : Bool) :
    s.recall line none e = if e then s else s.invalidated line none := by
  unfold State.NoCopies at h
  simp [State.recall, h]

theorem recall_only {s : State} (h : s.NoCopies) (line : Nat) (e : Bool) : OnlyMemory s (s.recall line none e) := by
  rw [recall_noCopies h]
  split
  · exact .refl s
  · exact invalidated_only s line none

/-- With no copies, nothing has to be written back, and no recall waits. -/
theorem reclaim_noCopies {s : State} (h : s.NoCopies) (line : Nat) (e : Bool) : s.reclaim line none e = some (s.recall line none e) := by
  unfold State.NoCopies at h
  simp [State.reclaim, State.recallFree, State.recallLines, State.flushLine, h]

theorem takeBack_only {s : State} (h : s.NoCopies) (pa n : Nat) (e : Bool) : OnlyMemory s (s.takeBack pa n e) := by
  unfold State.takeBack
  generalize s.linesOf pa n = ls
  induction ls generalizing s with
  | nil => exact .refl s
  | cons l ls ih =>
    have h1 := recall_only h l e
    exact h1.trans (ih (h1.noCopies h))

/-- With no copies, the copies of several lines are taken back at once, and memory alone changes. -/
theorem reclaimAll_only {s : State} (h : s.NoCopies) (ls : List Nat) (e : Bool) :
    ∃ u, s.reclaimAll ls none e = some u ∧ OnlyMemory s u := by
  unfold State.reclaimAll
  induction ls generalizing s with
  | nil => exact ⟨s, rfl, .refl s⟩
  | cons l ls ih =>
    have h1 := recall_only h l e
    obtain ⟨u, hu, ho⟩ := ih (h1.noCopies h)
    exact ⟨u, by rw [List.foldl_cons, Option.bind_some, reclaim_noCopies h, hu], h1.trans ho⟩

/-- With no copies, taking the copies of n bytes back changes memory alone. -/
theorem takeVirtual_only {s : State} (h : s.NoCopies) (pa n : Nat) (e : Bool) : OnlyMemory s (s.takeVirtual pa n e) := by
  obtain ⟨u, hu, ho⟩ := reclaimAll_only h (s.linesOf pa n) e
  unfold State.takeVirtual
  rw [hu]
  exact ho

theorem touched_only (s : State) (pa n : Nat) : OnlyMemory s (s.touched pa n) :=
  onlyMemory_foldl (fun s l => by
    unfold State.touchLine
    dsimp only
    split <;> rfl) s (s.linesOf pa n)

/-- An agent's write, where there are no copies, changes memory alone. -/
theorem agentWrite_only {s : State} (h : s.NoCopies) (pa : Nat) (bs : List Byte) : OnlyMemory s (s.agentWrite pa bs) :=
  ((takeBack_only h pa bs.length false).trans (physWrite_only _ pa bs)).trans
    (onlyMemory_foldl (fun s l => clearPoison_only s l) _ _)

/-- A walk's reads move lines in their sets. -/
theorem walked_only (s : State) (asid va : Nat) : OnlyMemory s (s.walked asid va) := by
  unfold State.walked
  dsimp only
  split
  · exact .refl s
  · exact onlyMemory_foldl (fun s w => touched_only s w 8) s _

theorem onlyMemory_ite {s t : State} {p : Prop} [Decidable p] (h : OnlyMemory s t) : OnlyMemory s (if p then s else t) := by
  split
  · exact .refl s
  · exact h

/-- A translation by the forme die sets A and D in memory at most. -/
theorem formeXlate_only {s : State} (hc : s.NoCopies) {asid va : Nat} {n : Need} {x : Nat × State}
    (h : s.formeXlate asid va n = some x) : OnlyMemory s x.2 := by
  have hw := walked_only s asid va
  unfold State.formeXlate at h
  split at h
  · cases h
  · split at h
    · split at h
      · cases h
      · rename_i big a pte _ _
        dsimp only at h
        generalize (pte ||| 0x40) ||| (if n = Need.write then 0x80 else 0) = q at h
        have ho : OnlyMemory s (if q = pte then s.walked asid va else (s.walked asid va).agentWrite a (toBytes 8 q)) := by
          split
          · exact hw
          · exact hw.trans (agentWrite_only (hw.noCopies hc) _ _)
        generalize (if q = pte then s.walked asid va else (s.walked asid va).agentWrite a (toBytes 8 q)) = u at h ho
        split at h
        · split at h
          · cases h
            exact ho
          · cases h
        · cases h
    · cases h

/-- A fold over pages that stops at the first that cannot be reached changes memory alone. -/
theorem pages_only {α β : Type} {f : β × State → α → Option (β × State)} (hf : ∀ b s x r, s.NoCopies → f (b, s) x = some r → OnlyMemory s r.2)
    (xs : List α) {b : β} {s : State} {r : β × State} (hc : s.NoCopies)
    (h : xs.foldl (fun t p => t.bind fun t => f t p) (some (b, s)) = some r) : OnlyMemory s r.2 := by
  induction xs generalizing b s with
  | nil => cases h; exact .refl s
  | cons x xs ih =>
    rw [List.foldl_cons] at h
    cases hx : f (b, s) x with
    | none =>
      have : ∀ l : List α, l.foldl (fun (t : Option (β × State)) p => t.bind fun t => f t p) none = none := fun l => by
        induction l with
        | nil => rfl
        | cons _ _ ih => exact ih
      simp [hx, this] at h
    | some y =>
      simp only [Option.bind_some, hx] at h
      have h1 := hf b s x y hc hx
      exact h1.trans (ih (h1.noCopies hc) h)

theorem vwrite_only {s t : State} (hc : s.NoCopies) {asid va : Nat} {bs : List Byte} (h : s.vwrite asid va bs = some t) :
    OnlyMemory s t := by
  unfold State.vwrite at h
  obtain ⟨r, hr, rfl⟩ := Option.map_eq_some_iff.1 h
  refine pages_only (fun b s x r hc h => ?_) _ hc hr
  obtain ⟨y, hy, rfl⟩ := Option.map_eq_some_iff.1 h
  have h1 := formeXlate_only hc hy
  have h2 := takeVirtual_only (h1.noCopies hc) y.1 x.2 false
  exact (h1.trans h2).trans (agentWrite_only ((h1.trans h2).noCopies hc) _ _)

theorem vread_only {s : State} (hc : s.NoCopies) {asid va n : Nat} {r : List Byte × State} (h : s.vread asid va n = some r) :
    OnlyMemory s r.2 := by
  unfold State.vread at h
  refine pages_only (fun b s x r hc h => ?_) _ hc h
  obtain ⟨y, hy, h2⟩ := Option.bind_eq_some_iff.1 h
  split at h2
  · cases h2
  · cases h2
    have h1 := formeXlate_only hc hy
    exact (h1.trans (takeVirtual_only (h1.noCopies hc) _ _ _)).trans (touched_only _ _ _)

theorem readLivemap_only {s : State} (hc : s.NoCopies) {l : Launch} {i : Nat} {r : Nat × State}
    (h : s.readLivemap l i = some r) : OnlyMemory s r.2 := by
  unfold State.readLivemap at h
  split at h
  · cases h
    exact .refl s
  · obtain ⟨y, hy, rfl⟩ := Option.map_eq_some_iff.1 h
    exact vread_only hc hy

theorem galleySections_only (s : State) (cl : Cluster) (b : Binding) (gals : List Nat) :
    OnlyMemory s (s.galleySections cl b gals).2.2 := by
  suffices h : ∀ (xs : List Nat) (t : List Byte × List (Nat × Nat × Nat) × State), OnlyMemory t.2.2
      (xs.foldl (fun t i =>
        let g := t.2.2.galleySection (cl.galleys.lookup (b.gal0 + i))
        (t.1 ++ g.1, t.2.1 ++ [(b.group, i, t.2.2.free)], g.2)) t).2.2 from h gals ([], [], s)
  intro xs
  induction xs with
  | nil => exact fun t => .refl t.2.2
  | cons x xs ih => exact fun t => OnlyMemory.trans (t := { t.2.2 with free := t.2.2.free + 1 }) rfl (ih _)

/-- Where there are no copies of memory, a save record's writing leaves every context as it was. -/
theorem writeRecord_ctxs {s t : State} (hc : s.NoCopies) {l : Launch} {k c rsn : Nat} (h : s.writeRecord l k c rsn = some t) :
    t.ctxs = s.ctxs := by
  unfold State.writeRecord at h
  dsimp only at h
  obtain ⟨m, hm, h⟩ := Option.bind_eq_some_iff.1 h
  split at h
  · cases h
  · obtain ⟨u, hu, rfl⟩ := Option.map_eq_some_iff.1 h
    have h1 := readLivemap_only hc hm
    have h2 := galleySections_only m.2 (m.2.cluster k) (s.ctx k c).bnd
      ((liveOf m.1 (s.ctx k c).bnd.carr (s.ctx k c).bnd.ctile (s.ctx k c).bnd.creg (s.ctx k c).bnd.cgal).withPlanes
        ((s.ctx k c).nestsAt.getD []) (!((s.ctx k c).nestsAt.getD []).isEmpty)).gals
    exact ((h1.trans h2).trans (vwrite_only ((h1.trans h2).noCopies hc) hu)).ctxs

/-- What a start or a trip leaves of device memory keeps the canonical form. -/
theorem loseMemory_wf {s : State} (h : Memory.wf s) (n : Nat) : Memory.wf (s.loseMemory n) :=
  Memory.wf_of_eq (undefine_wf (undefine_wf h 0 _) _ _) rfl rfl rfl

end Sys2Proof.Machine
end

