-- ==== Sys2Proof/Laws/State.lean ====
section
/-!
SUPPORT. The parts of the state after an update of another part, and after one of their own: one lemma for each field and
each update, so that no proof unfolds a record.
-/
namespace Sys2Proof.Machine

/-! ## An update leaves every other field alone -/

@[simp] theorem State.setCtx_cycle (s : State) (k c : Nat) (x : Ctx) : (s.setCtx k c x).cycle = s.cycle := rfl
@[simp] theorem State.setCtx_clusters (s : State) (k c : Nat) (x : Ctx) : (s.setCtx k c x).clusters = s.clusters := rfl
@[simp] theorem State.setCtx_chips (s : State) (k c : Nat) (x : Ctx) : (s.setCtx k c x).chips = s.chips := rfl
@[simp] theorem State.setCtx_slices (s : State) (k c : Nat) (x : Ctx) : (s.setCtx k c x).slices = s.slices := rfl
@[simp] theorem State.setCtx_mem (s : State) (k c : Nat) (x : Ctx) : (s.setCtx k c x).mem = s.mem := rfl
@[simp] theorem State.setCtx_memFill (s : State) (k c : Nat) (x : Ctx) : (s.setCtx k c x).memFill = s.memFill := rfl
@[simp] theorem State.setCtx_memPoison (s : State) (k c : Nat) (x : Ctx) : (s.setCtx k c x).memPoison = s.memPoison := rfl
@[simp] theorem State.setCtx_locPoison (s : State) (k c : Nat) (x : Ctx) : (s.setCtx k c x).locPoison = s.locPoison := rfl
@[simp] theorem State.setCtx_hostMem (s : State) (k c : Nat) (x : Ctx) : (s.setCtx k c x).hostMem = s.hostMem := rfl
@[simp] theorem State.setCtx_accs (s : State) (k c : Nat) (x : Ctx) : (s.setCtx k c x).accs = s.accs := rfl
@[simp] theorem State.setCtx_nextId (s : State) (k c : Nat) (x : Ctx) : (s.setCtx k c x).nextId = s.nextId := rfl
@[simp] theorem State.setCtx_forme (s : State) (k c : Nat) (x : Ctx) : (s.setCtx k c x).forme = s.forme := rfl
@[simp] theorem State.setCtx_free (s : State) (k c : Nat) (x : Ctx) : (s.setCtx k c x).free = s.free := rfl
@[simp] theorem State.setCtx_turn (s : State) (k c : Nat) (x : Ctx) : (s.setCtx k c x).turn = s.turn := rfl
@[simp] theorem State.setCtx_agenda (s : State) (k c : Nat) (x : Ctx) : (s.setCtx k c x).agenda = s.agenda := rfl
@[simp] theorem State.setCtx_cur (s : State) (k c : Nat) (x : Ctx) : (s.setCtx k c x).cur = s.cur := rfl
@[simp] theorem State.setCtx_slots (s : State) (k c : Nat) (x : Ctx) : (s.setCtx k c x).slots = s.slots := rfl
@[simp] theorem State.setCtx_slotNos (s : State) (k c : Nat) (x : Ctx) : (s.setCtx k c x).slotNos = s.slotNos := rfl
@[simp] theorem State.setCtx_hart (s : State) (k c : Nat) (x : Ctx) : (s.setCtx k c x).hart = s.hart := rfl
@[simp] theorem State.setCtx_snap (s : State) (k c : Nat) (x : Ctx) : (s.setCtx k c x).snap = s.snap := rfl
@[simp] theorem State.setCtx_snapPend (s : State) (k c : Nat) (x : Ctx) : (s.setCtx k c x).snapPend = s.snapPend := rfl
@[simp] theorem State.setCtx_snapSys (s : State) (k c : Nat) (x : Ctx) : (s.setCtx k c x).snapSys = s.snapSys := rfl

@[simp] theorem State.modCtx_cycle (s : State) (k c : Nat) (f : Ctx → Ctx) : (s.modCtx k c f).cycle = s.cycle := rfl
@[simp] theorem State.modCtx_clusters (s : State) (k c : Nat) (f : Ctx → Ctx) : (s.modCtx k c f).clusters = s.clusters := rfl
@[simp] theorem State.modCtx_chips (s : State) (k c : Nat) (f : Ctx → Ctx) : (s.modCtx k c f).chips = s.chips := rfl
@[simp] theorem State.modCtx_slices (s : State) (k c : Nat) (f : Ctx → Ctx) : (s.modCtx k c f).slices = s.slices := rfl
@[simp] theorem State.modCtx_mem (s : State) (k c : Nat) (f : Ctx → Ctx) : (s.modCtx k c f).mem = s.mem := rfl
@[simp] theorem State.modCtx_memFill (s : State) (k c : Nat) (f : Ctx → Ctx) : (s.modCtx k c f).memFill = s.memFill := rfl
@[simp] theorem State.modCtx_memPoison (s : State) (k c : Nat) (f : Ctx → Ctx) : (s.modCtx k c f).memPoison = s.memPoison := rfl
@[simp] theorem State.modCtx_locPoison (s : State) (k c : Nat) (f : Ctx → Ctx) : (s.modCtx k c f).locPoison = s.locPoison := rfl
@[simp] theorem State.modCtx_hostMem (s : State) (k c : Nat) (f : Ctx → Ctx) : (s.modCtx k c f).hostMem = s.hostMem := rfl
@[simp] theorem State.modCtx_accs (s : State) (k c : Nat) (f : Ctx → Ctx) : (s.modCtx k c f).accs = s.accs := rfl
@[simp] theorem State.modCtx_nextId (s : State) (k c : Nat) (f : Ctx → Ctx) : (s.modCtx k c f).nextId = s.nextId := rfl
@[simp] theorem State.modCtx_forme (s : State) (k c : Nat) (f : Ctx → Ctx) : (s.modCtx k c f).forme = s.forme := rfl
@[simp] theorem State.modCtx_free (s : State) (k c : Nat) (f : Ctx → Ctx) : (s.modCtx k c f).free = s.free := rfl
@[simp] theorem State.modCtx_turn (s : State) (k c : Nat) (f : Ctx → Ctx) : (s.modCtx k c f).turn = s.turn := rfl
@[simp] theorem State.modCtx_agenda (s : State) (k c : Nat) (f : Ctx → Ctx) : (s.modCtx k c f).agenda = s.agenda := rfl
@[simp] theorem State.modCtx_cur (s : State) (k c : Nat) (f : Ctx → Ctx) : (s.modCtx k c f).cur = s.cur := rfl
@[simp] theorem State.modCtx_slots (s : State) (k c : Nat) (f : Ctx → Ctx) : (s.modCtx k c f).slots = s.slots := rfl
@[simp] theorem State.modCtx_slotNos (s : State) (k c : Nat) (f : Ctx → Ctx) : (s.modCtx k c f).slotNos = s.slotNos := rfl
@[simp] theorem State.modCtx_hart (s : State) (k c : Nat) (f : Ctx → Ctx) : (s.modCtx k c f).hart = s.hart := rfl
@[simp] theorem State.modCtx_snap (s : State) (k c : Nat) (f : Ctx → Ctx) : (s.modCtx k c f).snap = s.snap := rfl
@[simp] theorem State.modCtx_snapPend (s : State) (k c : Nat) (f : Ctx → Ctx) : (s.modCtx k c f).snapPend = s.snapPend := rfl
@[simp] theorem State.modCtx_snapSys (s : State) (k c : Nat) (f : Ctx → Ctx) : (s.modCtx k c f).snapSys = s.snapSys := rfl

@[simp] theorem State.modMe_cycle (s : State) (f : Ctx → Ctx) : (s.modMe f).cycle = s.cycle := rfl
@[simp] theorem State.modMe_clusters (s : State) (f : Ctx → Ctx) : (s.modMe f).clusters = s.clusters := rfl
@[simp] theorem State.modMe_chips (s : State) (f : Ctx → Ctx) : (s.modMe f).chips = s.chips := rfl
@[simp] theorem State.modMe_slices (s : State) (f : Ctx → Ctx) : (s.modMe f).slices = s.slices := rfl
@[simp] theorem State.modMe_mem (s : State) (f : Ctx → Ctx) : (s.modMe f).mem = s.mem := rfl
@[simp] theorem State.modMe_memFill (s : State) (f : Ctx → Ctx) : (s.modMe f).memFill = s.memFill := rfl
@[simp] theorem State.modMe_memPoison (s : State) (f : Ctx → Ctx) : (s.modMe f).memPoison = s.memPoison := rfl
@[simp] theorem State.modMe_locPoison (s : State) (f : Ctx → Ctx) : (s.modMe f).locPoison = s.locPoison := rfl
@[simp] theorem State.modMe_hostMem (s : State) (f : Ctx → Ctx) : (s.modMe f).hostMem = s.hostMem := rfl
@[simp] theorem State.modMe_accs (s : State) (f : Ctx → Ctx) : (s.modMe f).accs = s.accs := rfl
@[simp] theorem State.modMe_nextId (s : State) (f : Ctx → Ctx) : (s.modMe f).nextId = s.nextId := rfl
@[simp] theorem State.modMe_forme (s : State) (f : Ctx → Ctx) : (s.modMe f).forme = s.forme := rfl
@[simp] theorem State.modMe_free (s : State) (f : Ctx → Ctx) : (s.modMe f).free = s.free := rfl
@[simp] theorem State.modMe_turn (s : State) (f : Ctx → Ctx) : (s.modMe f).turn = s.turn := rfl
@[simp] theorem State.modMe_agenda (s : State) (f : Ctx → Ctx) : (s.modMe f).agenda = s.agenda := rfl
@[simp] theorem State.modMe_cur (s : State) (f : Ctx → Ctx) : (s.modMe f).cur = s.cur := rfl
@[simp] theorem State.modMe_slots (s : State) (f : Ctx → Ctx) : (s.modMe f).slots = s.slots := rfl
@[simp] theorem State.modMe_slotNos (s : State) (f : Ctx → Ctx) : (s.modMe f).slotNos = s.slotNos := rfl
@[simp] theorem State.modMe_hart (s : State) (f : Ctx → Ctx) : (s.modMe f).hart = s.hart := rfl
@[simp] theorem State.modMe_snap (s : State) (f : Ctx → Ctx) : (s.modMe f).snap = s.snap := rfl
@[simp] theorem State.modMe_snapPend (s : State) (f : Ctx → Ctx) : (s.modMe f).snapPend = s.snapPend := rfl
@[simp] theorem State.modMe_snapSys (s : State) (f : Ctx → Ctx) : (s.modMe f).snapSys = s.snapSys := rfl

@[simp] theorem State.setCluster_cycle (s : State) (k : Nat) (x : Cluster) : (s.setCluster k x).cycle = s.cycle := rfl
@[simp] theorem State.setCluster_ctxs (s : State) (k : Nat) (x : Cluster) : (s.setCluster k x).ctxs = s.ctxs := rfl
@[simp] theorem State.setCluster_chips (s : State) (k : Nat) (x : Cluster) : (s.setCluster k x).chips = s.chips := rfl
@[simp] theorem State.setCluster_slices (s : State) (k : Nat) (x : Cluster) : (s.setCluster k x).slices = s.slices := rfl
@[simp] theorem State.setCluster_mem (s : State) (k : Nat) (x : Cluster) : (s.setCluster k x).mem = s.mem := rfl
@[simp] theorem State.setCluster_memFill (s : State) (k : Nat) (x : Cluster) : (s.setCluster k x).memFill = s.memFill := rfl
@[simp] theorem State.setCluster_memPoison (s : State) (k : Nat) (x : Cluster) : (s.setCluster k x).memPoison = s.memPoison := rfl
@[simp] theorem State.setCluster_locPoison (s : State) (k : Nat) (x : Cluster) : (s.setCluster k x).locPoison = s.locPoison := rfl
@[simp] theorem State.setCluster_hostMem (s : State) (k : Nat) (x : Cluster) : (s.setCluster k x).hostMem = s.hostMem := rfl
@[simp] theorem State.setCluster_accs (s : State) (k : Nat) (x : Cluster) : (s.setCluster k x).accs = s.accs := rfl
@[simp] theorem State.setCluster_nextId (s : State) (k : Nat) (x : Cluster) : (s.setCluster k x).nextId = s.nextId := rfl
@[simp] theorem State.setCluster_forme (s : State) (k : Nat) (x : Cluster) : (s.setCluster k x).forme = s.forme := rfl
@[simp] theorem State.setCluster_free (s : State) (k : Nat) (x : Cluster) : (s.setCluster k x).free = s.free := rfl
@[simp] theorem State.setCluster_turn (s : State) (k : Nat) (x : Cluster) : (s.setCluster k x).turn = s.turn := rfl
@[simp] theorem State.setCluster_agenda (s : State) (k : Nat) (x : Cluster) : (s.setCluster k x).agenda = s.agenda := rfl
@[simp] theorem State.setCluster_cur (s : State) (k : Nat) (x : Cluster) : (s.setCluster k x).cur = s.cur := rfl
@[simp] theorem State.setCluster_slots (s : State) (k : Nat) (x : Cluster) : (s.setCluster k x).slots = s.slots := rfl
@[simp] theorem State.setCluster_slotNos (s : State) (k : Nat) (x : Cluster) : (s.setCluster k x).slotNos = s.slotNos := rfl
@[simp] theorem State.setCluster_hart (s : State) (k : Nat) (x : Cluster) : (s.setCluster k x).hart = s.hart := rfl
@[simp] theorem State.setCluster_snap (s : State) (k : Nat) (x : Cluster) : (s.setCluster k x).snap = s.snap := rfl
@[simp] theorem State.setCluster_snapPend (s : State) (k : Nat) (x : Cluster) : (s.setCluster k x).snapPend = s.snapPend := rfl
@[simp] theorem State.setCluster_snapSys (s : State) (k : Nat) (x : Cluster) : (s.setCluster k x).snapSys = s.snapSys := rfl

@[simp] theorem State.modCluster_cycle (s : State) (k : Nat) (f : Cluster → Cluster) : (s.modCluster k f).cycle = s.cycle := rfl
@[simp] theorem State.modCluster_ctxs (s : State) (k : Nat) (f : Cluster → Cluster) : (s.modCluster k f).ctxs = s.ctxs := rfl
@[simp] theorem State.modCluster_chips (s : State) (k : Nat) (f : Cluster → Cluster) : (s.modCluster k f).chips = s.chips := rfl
@[simp] theorem State.modCluster_slices (s : State) (k : Nat) (f : Cluster → Cluster) : (s.modCluster k f).slices = s.slices := rfl
@[simp] theorem State.modCluster_mem (s : State) (k : Nat) (f : Cluster → Cluster) : (s.modCluster k f).mem = s.mem := rfl
@[simp] theorem State.modCluster_memFill (s : State) (k : Nat) (f : Cluster → Cluster) : (s.modCluster k f).memFill = s.memFill := rfl
@[simp] theorem State.modCluster_memPoison (s : State) (k : Nat) (f : Cluster → Cluster) : (s.modCluster k f).memPoison = s.memPoison := rfl
@[simp] theorem State.modCluster_locPoison (s : State) (k : Nat) (f : Cluster → Cluster) : (s.modCluster k f).locPoison = s.locPoison := rfl
@[simp] theorem State.modCluster_hostMem (s : State) (k : Nat) (f : Cluster → Cluster) : (s.modCluster k f).hostMem = s.hostMem := rfl
@[simp] theorem State.modCluster_accs (s : State) (k : Nat) (f : Cluster → Cluster) : (s.modCluster k f).accs = s.accs := rfl
@[simp] theorem State.modCluster_nextId (s : State) (k : Nat) (f : Cluster → Cluster) : (s.modCluster k f).nextId = s.nextId := rfl
@[simp] theorem State.modCluster_forme (s : State) (k : Nat) (f : Cluster → Cluster) : (s.modCluster k f).forme = s.forme := rfl
@[simp] theorem State.modCluster_free (s : State) (k : Nat) (f : Cluster → Cluster) : (s.modCluster k f).free = s.free := rfl
@[simp] theorem State.modCluster_turn (s : State) (k : Nat) (f : Cluster → Cluster) : (s.modCluster k f).turn = s.turn := rfl
@[simp] theorem State.modCluster_agenda (s : State) (k : Nat) (f : Cluster → Cluster) : (s.modCluster k f).agenda = s.agenda := rfl
@[simp] theorem State.modCluster_cur (s : State) (k : Nat) (f : Cluster → Cluster) : (s.modCluster k f).cur = s.cur := rfl
@[simp] theorem State.modCluster_slots (s : State) (k : Nat) (f : Cluster → Cluster) : (s.modCluster k f).slots = s.slots := rfl
@[simp] theorem State.modCluster_slotNos (s : State) (k : Nat) (f : Cluster → Cluster) : (s.modCluster k f).slotNos = s.slotNos := rfl
@[simp] theorem State.modCluster_hart (s : State) (k : Nat) (f : Cluster → Cluster) : (s.modCluster k f).hart = s.hart := rfl
@[simp] theorem State.modCluster_snap (s : State) (k : Nat) (f : Cluster → Cluster) : (s.modCluster k f).snap = s.snap := rfl
@[simp] theorem State.modCluster_snapPend (s : State) (k : Nat) (f : Cluster → Cluster) : (s.modCluster k f).snapPend = s.snapPend := rfl
@[simp] theorem State.modCluster_snapSys (s : State) (k : Nat) (f : Cluster → Cluster) : (s.modCluster k f).snapSys = s.snapSys := rfl

@[simp] theorem State.modCc_cycle (s : State) (f : Cluster → Cluster) : (s.modCc f).cycle = s.cycle := rfl
@[simp] theorem State.modCc_ctxs (s : State) (f : Cluster → Cluster) : (s.modCc f).ctxs = s.ctxs := rfl
@[simp] theorem State.modCc_chips (s : State) (f : Cluster → Cluster) : (s.modCc f).chips = s.chips := rfl
@[simp] theorem State.modCc_slices (s : State) (f : Cluster → Cluster) : (s.modCc f).slices = s.slices := rfl
@[simp] theorem State.modCc_mem (s : State) (f : Cluster → Cluster) : (s.modCc f).mem = s.mem := rfl
@[simp] theorem State.modCc_memFill (s : State) (f : Cluster → Cluster) : (s.modCc f).memFill = s.memFill := rfl
@[simp] theorem State.modCc_memPoison (s : State) (f : Cluster → Cluster) : (s.modCc f).memPoison = s.memPoison := rfl
@[simp] theorem State.modCc_locPoison (s : State) (f : Cluster → Cluster) : (s.modCc f).locPoison = s.locPoison := rfl
@[simp] theorem State.modCc_hostMem (s : State) (f : Cluster → Cluster) : (s.modCc f).hostMem = s.hostMem := rfl
@[simp] theorem State.modCc_accs (s : State) (f : Cluster → Cluster) : (s.modCc f).accs = s.accs := rfl
@[simp] theorem State.modCc_nextId (s : State) (f : Cluster → Cluster) : (s.modCc f).nextId = s.nextId := rfl
@[simp] theorem State.modCc_forme (s : State) (f : Cluster → Cluster) : (s.modCc f).forme = s.forme := rfl
@[simp] theorem State.modCc_free (s : State) (f : Cluster → Cluster) : (s.modCc f).free = s.free := rfl
@[simp] theorem State.modCc_turn (s : State) (f : Cluster → Cluster) : (s.modCc f).turn = s.turn := rfl
@[simp] theorem State.modCc_agenda (s : State) (f : Cluster → Cluster) : (s.modCc f).agenda = s.agenda := rfl
@[simp] theorem State.modCc_cur (s : State) (f : Cluster → Cluster) : (s.modCc f).cur = s.cur := rfl
@[simp] theorem State.modCc_slots (s : State) (f : Cluster → Cluster) : (s.modCc f).slots = s.slots := rfl
@[simp] theorem State.modCc_slotNos (s : State) (f : Cluster → Cluster) : (s.modCc f).slotNos = s.slotNos := rfl
@[simp] theorem State.modCc_hart (s : State) (f : Cluster → Cluster) : (s.modCc f).hart = s.hart := rfl
@[simp] theorem State.modCc_snap (s : State) (f : Cluster → Cluster) : (s.modCc f).snap = s.snap := rfl
@[simp] theorem State.modCc_snapPend (s : State) (f : Cluster → Cluster) : (s.modCc f).snapPend = s.snapPend := rfl
@[simp] theorem State.modCc_snapSys (s : State) (f : Cluster → Cluster) : (s.modCc f).snapSys = s.snapSys := rfl

@[simp] theorem State.setSlice_cycle (s : State) (n : Nat) (x : Slice) : (s.setSlice n x).cycle = s.cycle := rfl
@[simp] theorem State.setSlice_ctxs (s : State) (n : Nat) (x : Slice) : (s.setSlice n x).ctxs = s.ctxs := rfl
@[simp] theorem State.setSlice_clusters (s : State) (n : Nat) (x : Slice) : (s.setSlice n x).clusters = s.clusters := rfl
@[simp] theorem State.setSlice_chips (s : State) (n : Nat) (x : Slice) : (s.setSlice n x).chips = s.chips := rfl
@[simp] theorem State.setSlice_mem (s : State) (n : Nat) (x : Slice) : (s.setSlice n x).mem = s.mem := rfl
@[simp] theorem State.setSlice_memFill (s : State) (n : Nat) (x : Slice) : (s.setSlice n x).memFill = s.memFill := rfl
@[simp] theorem State.setSlice_memPoison (s : State) (n : Nat) (x : Slice) : (s.setSlice n x).memPoison = s.memPoison := rfl
@[simp] theorem State.setSlice_locPoison (s : State) (n : Nat) (x : Slice) : (s.setSlice n x).locPoison = s.locPoison := rfl
@[simp] theorem State.setSlice_hostMem (s : State) (n : Nat) (x : Slice) : (s.setSlice n x).hostMem = s.hostMem := rfl
@[simp] theorem State.setSlice_accs (s : State) (n : Nat) (x : Slice) : (s.setSlice n x).accs = s.accs := rfl
@[simp] theorem State.setSlice_nextId (s : State) (n : Nat) (x : Slice) : (s.setSlice n x).nextId = s.nextId := rfl
@[simp] theorem State.setSlice_forme (s : State) (n : Nat) (x : Slice) : (s.setSlice n x).forme = s.forme := rfl
@[simp] theorem State.setSlice_free (s : State) (n : Nat) (x : Slice) : (s.setSlice n x).free = s.free := rfl
@[simp] theorem State.setSlice_turn (s : State) (n : Nat) (x : Slice) : (s.setSlice n x).turn = s.turn := rfl
@[simp] theorem State.setSlice_agenda (s : State) (n : Nat) (x : Slice) : (s.setSlice n x).agenda = s.agenda := rfl
@[simp] theorem State.setSlice_cur (s : State) (n : Nat) (x : Slice) : (s.setSlice n x).cur = s.cur := rfl
@[simp] theorem State.setSlice_slots (s : State) (n : Nat) (x : Slice) : (s.setSlice n x).slots = s.slots := rfl
@[simp] theorem State.setSlice_slotNos (s : State) (n : Nat) (x : Slice) : (s.setSlice n x).slotNos = s.slotNos := rfl
@[simp] theorem State.setSlice_hart (s : State) (n : Nat) (x : Slice) : (s.setSlice n x).hart = s.hart := rfl
@[simp] theorem State.setSlice_snap (s : State) (n : Nat) (x : Slice) : (s.setSlice n x).snap = s.snap := rfl
@[simp] theorem State.setSlice_snapPend (s : State) (n : Nat) (x : Slice) : (s.setSlice n x).snapPend = s.snapPend := rfl
@[simp] theorem State.setSlice_snapSys (s : State) (n : Nat) (x : Slice) : (s.setSlice n x).snapSys = s.snapSys := rfl

@[simp] theorem State.modSlice_cycle (s : State) (n : Nat) (f : Slice → Slice) : (s.modSlice n f).cycle = s.cycle := rfl
@[simp] theorem State.modSlice_ctxs (s : State) (n : Nat) (f : Slice → Slice) : (s.modSlice n f).ctxs = s.ctxs := rfl
@[simp] theorem State.modSlice_clusters (s : State) (n : Nat) (f : Slice → Slice) : (s.modSlice n f).clusters = s.clusters := rfl
@[simp] theorem State.modSlice_chips (s : State) (n : Nat) (f : Slice → Slice) : (s.modSlice n f).chips = s.chips := rfl
@[simp] theorem State.modSlice_mem (s : State) (n : Nat) (f : Slice → Slice) : (s.modSlice n f).mem = s.mem := rfl
@[simp] theorem State.modSlice_memFill (s : State) (n : Nat) (f : Slice → Slice) : (s.modSlice n f).memFill = s.memFill := rfl
@[simp] theorem State.modSlice_memPoison (s : State) (n : Nat) (f : Slice → Slice) : (s.modSlice n f).memPoison = s.memPoison := rfl
@[simp] theorem State.modSlice_locPoison (s : State) (n : Nat) (f : Slice → Slice) : (s.modSlice n f).locPoison = s.locPoison := rfl
@[simp] theorem State.modSlice_hostMem (s : State) (n : Nat) (f : Slice → Slice) : (s.modSlice n f).hostMem = s.hostMem := rfl
@[simp] theorem State.modSlice_accs (s : State) (n : Nat) (f : Slice → Slice) : (s.modSlice n f).accs = s.accs := rfl
@[simp] theorem State.modSlice_nextId (s : State) (n : Nat) (f : Slice → Slice) : (s.modSlice n f).nextId = s.nextId := rfl
@[simp] theorem State.modSlice_forme (s : State) (n : Nat) (f : Slice → Slice) : (s.modSlice n f).forme = s.forme := rfl
@[simp] theorem State.modSlice_free (s : State) (n : Nat) (f : Slice → Slice) : (s.modSlice n f).free = s.free := rfl
@[simp] theorem State.modSlice_turn (s : State) (n : Nat) (f : Slice → Slice) : (s.modSlice n f).turn = s.turn := rfl
@[simp] theorem State.modSlice_agenda (s : State) (n : Nat) (f : Slice → Slice) : (s.modSlice n f).agenda = s.agenda := rfl
@[simp] theorem State.modSlice_cur (s : State) (n : Nat) (f : Slice → Slice) : (s.modSlice n f).cur = s.cur := rfl
@[simp] theorem State.modSlice_slots (s : State) (n : Nat) (f : Slice → Slice) : (s.modSlice n f).slots = s.slots := rfl
@[simp] theorem State.modSlice_slotNos (s : State) (n : Nat) (f : Slice → Slice) : (s.modSlice n f).slotNos = s.slotNos := rfl
@[simp] theorem State.modSlice_hart (s : State) (n : Nat) (f : Slice → Slice) : (s.modSlice n f).hart = s.hart := rfl
@[simp] theorem State.modSlice_snap (s : State) (n : Nat) (f : Slice → Slice) : (s.modSlice n f).snap = s.snap := rfl
@[simp] theorem State.modSlice_snapPend (s : State) (n : Nat) (f : Slice → Slice) : (s.modSlice n f).snapPend = s.snapPend := rfl
@[simp] theorem State.modSlice_snapSys (s : State) (n : Nat) (f : Slice → Slice) : (s.modSlice n f).snapSys = s.snapSys := rfl

@[simp] theorem State.setChip_cycle (s : State) (x : Nat) (v : ChipSt) : (s.setChip x v).cycle = s.cycle := rfl
@[simp] theorem State.setChip_ctxs (s : State) (x : Nat) (v : ChipSt) : (s.setChip x v).ctxs = s.ctxs := rfl
@[simp] theorem State.setChip_clusters (s : State) (x : Nat) (v : ChipSt) : (s.setChip x v).clusters = s.clusters := rfl
@[simp] theorem State.setChip_slices (s : State) (x : Nat) (v : ChipSt) : (s.setChip x v).slices = s.slices := rfl
@[simp] theorem State.setChip_mem (s : State) (x : Nat) (v : ChipSt) : (s.setChip x v).mem = s.mem := rfl
@[simp] theorem State.setChip_memFill (s : State) (x : Nat) (v : ChipSt) : (s.setChip x v).memFill = s.memFill := rfl
@[simp] theorem State.setChip_memPoison (s : State) (x : Nat) (v : ChipSt) : (s.setChip x v).memPoison = s.memPoison := rfl
@[simp] theorem State.setChip_locPoison (s : State) (x : Nat) (v : ChipSt) : (s.setChip x v).locPoison = s.locPoison := rfl
@[simp] theorem State.setChip_hostMem (s : State) (x : Nat) (v : ChipSt) : (s.setChip x v).hostMem = s.hostMem := rfl
@[simp] theorem State.setChip_accs (s : State) (x : Nat) (v : ChipSt) : (s.setChip x v).accs = s.accs := rfl
@[simp] theorem State.setChip_nextId (s : State) (x : Nat) (v : ChipSt) : (s.setChip x v).nextId = s.nextId := rfl
@[simp] theorem State.setChip_forme (s : State) (x : Nat) (v : ChipSt) : (s.setChip x v).forme = s.forme := rfl
@[simp] theorem State.setChip_free (s : State) (x : Nat) (v : ChipSt) : (s.setChip x v).free = s.free := rfl
@[simp] theorem State.setChip_turn (s : State) (x : Nat) (v : ChipSt) : (s.setChip x v).turn = s.turn := rfl
@[simp] theorem State.setChip_agenda (s : State) (x : Nat) (v : ChipSt) : (s.setChip x v).agenda = s.agenda := rfl
@[simp] theorem State.setChip_cur (s : State) (x : Nat) (v : ChipSt) : (s.setChip x v).cur = s.cur := rfl
@[simp] theorem State.setChip_slots (s : State) (x : Nat) (v : ChipSt) : (s.setChip x v).slots = s.slots := rfl
@[simp] theorem State.setChip_slotNos (s : State) (x : Nat) (v : ChipSt) : (s.setChip x v).slotNos = s.slotNos := rfl
@[simp] theorem State.setChip_hart (s : State) (x : Nat) (v : ChipSt) : (s.setChip x v).hart = s.hart := rfl
@[simp] theorem State.setChip_snap (s : State) (x : Nat) (v : ChipSt) : (s.setChip x v).snap = s.snap := rfl
@[simp] theorem State.setChip_snapPend (s : State) (x : Nat) (v : ChipSt) : (s.setChip x v).snapPend = s.snapPend := rfl
@[simp] theorem State.setChip_snapSys (s : State) (x : Nat) (v : ChipSt) : (s.setChip x v).snapSys = s.snapSys := rfl

@[simp] theorem State.modForme_cycle (s : State) (f : Forme → Forme) : (s.modForme f).cycle = s.cycle := rfl
@[simp] theorem State.modForme_ctxs (s : State) (f : Forme → Forme) : (s.modForme f).ctxs = s.ctxs := rfl
@[simp] theorem State.modForme_clusters (s : State) (f : Forme → Forme) : (s.modForme f).clusters = s.clusters := rfl
@[simp] theorem State.modForme_chips (s : State) (f : Forme → Forme) : (s.modForme f).chips = s.chips := rfl
@[simp] theorem State.modForme_slices (s : State) (f : Forme → Forme) : (s.modForme f).slices = s.slices := rfl
@[simp] theorem State.modForme_mem (s : State) (f : Forme → Forme) : (s.modForme f).mem = s.mem := rfl
@[simp] theorem State.modForme_memFill (s : State) (f : Forme → Forme) : (s.modForme f).memFill = s.memFill := rfl
@[simp] theorem State.modForme_memPoison (s : State) (f : Forme → Forme) : (s.modForme f).memPoison = s.memPoison := rfl
@[simp] theorem State.modForme_locPoison (s : State) (f : Forme → Forme) : (s.modForme f).locPoison = s.locPoison := rfl
@[simp] theorem State.modForme_hostMem (s : State) (f : Forme → Forme) : (s.modForme f).hostMem = s.hostMem := rfl
@[simp] theorem State.modForme_accs (s : State) (f : Forme → Forme) : (s.modForme f).accs = s.accs := rfl
@[simp] theorem State.modForme_nextId (s : State) (f : Forme → Forme) : (s.modForme f).nextId = s.nextId := rfl
@[simp] theorem State.modForme_free (s : State) (f : Forme → Forme) : (s.modForme f).free = s.free := rfl
@[simp] theorem State.modForme_turn (s : State) (f : Forme → Forme) : (s.modForme f).turn = s.turn := rfl
@[simp] theorem State.modForme_agenda (s : State) (f : Forme → Forme) : (s.modForme f).agenda = s.agenda := rfl
@[simp] theorem State.modForme_cur (s : State) (f : Forme → Forme) : (s.modForme f).cur = s.cur := rfl
@[simp] theorem State.modForme_slots (s : State) (f : Forme → Forme) : (s.modForme f).slots = s.slots := rfl
@[simp] theorem State.modForme_slotNos (s : State) (f : Forme → Forme) : (s.modForme f).slotNos = s.slotNos := rfl
@[simp] theorem State.modForme_hart (s : State) (f : Forme → Forme) : (s.modForme f).hart = s.hart := rfl
@[simp] theorem State.modForme_snap (s : State) (f : Forme → Forme) : (s.modForme f).snap = s.snap := rfl
@[simp] theorem State.modForme_snapPend (s : State) (f : Forme → Forme) : (s.modForme f).snapPend = s.snapPend := rfl
@[simp] theorem State.modForme_snapSys (s : State) (f : Forme → Forme) : (s.modForme f).snapSys = s.snapSys := rfl

@[simp] theorem State.soon_cycle (s : State) (ms : List Instr) : (s.soon ms).cycle = s.cycle := rfl
@[simp] theorem State.soon_ctxs (s : State) (ms : List Instr) : (s.soon ms).ctxs = s.ctxs := rfl
@[simp] theorem State.soon_clusters (s : State) (ms : List Instr) : (s.soon ms).clusters = s.clusters := rfl
@[simp] theorem State.soon_chips (s : State) (ms : List Instr) : (s.soon ms).chips = s.chips := rfl
@[simp] theorem State.soon_slices (s : State) (ms : List Instr) : (s.soon ms).slices = s.slices := rfl
@[simp] theorem State.soon_mem (s : State) (ms : List Instr) : (s.soon ms).mem = s.mem := rfl
@[simp] theorem State.soon_memFill (s : State) (ms : List Instr) : (s.soon ms).memFill = s.memFill := rfl
@[simp] theorem State.soon_memPoison (s : State) (ms : List Instr) : (s.soon ms).memPoison = s.memPoison := rfl
@[simp] theorem State.soon_locPoison (s : State) (ms : List Instr) : (s.soon ms).locPoison = s.locPoison := rfl
@[simp] theorem State.soon_hostMem (s : State) (ms : List Instr) : (s.soon ms).hostMem = s.hostMem := rfl
@[simp] theorem State.soon_accs (s : State) (ms : List Instr) : (s.soon ms).accs = s.accs := rfl
@[simp] theorem State.soon_nextId (s : State) (ms : List Instr) : (s.soon ms).nextId = s.nextId := rfl
@[simp] theorem State.soon_forme (s : State) (ms : List Instr) : (s.soon ms).forme = s.forme := rfl
@[simp] theorem State.soon_free (s : State) (ms : List Instr) : (s.soon ms).free = s.free := rfl
@[simp] theorem State.soon_turn (s : State) (ms : List Instr) : (s.soon ms).turn = s.turn := rfl
@[simp] theorem State.soon_cur (s : State) (ms : List Instr) : (s.soon ms).cur = s.cur := rfl
@[simp] theorem State.soon_slots (s : State) (ms : List Instr) : (s.soon ms).slots = s.slots := rfl
@[simp] theorem State.soon_slotNos (s : State) (ms : List Instr) : (s.soon ms).slotNos = s.slotNos := rfl
@[simp] theorem State.soon_hart (s : State) (ms : List Instr) : (s.soon ms).hart = s.hart := rfl
@[simp] theorem State.soon_snap (s : State) (ms : List Instr) : (s.soon ms).snap = s.snap := rfl
@[simp] theorem State.soon_snapPend (s : State) (ms : List Instr) : (s.soon ms).snapPend = s.snapPend := rfl
@[simp] theorem State.soon_snapSys (s : State) (ms : List Instr) : (s.soon ms).snapSys = s.snapSys := rfl

@[simp] theorem State.modAccs_cycle (s : State) (p : Access → Bool) (f : Access → Access) : (s.modAccs p f).cycle = s.cycle := rfl
@[simp] theorem State.modAccs_ctxs (s : State) (p : Access → Bool) (f : Access → Access) : (s.modAccs p f).ctxs = s.ctxs := rfl
@[simp] theorem State.modAccs_clusters (s : State) (p : Access → Bool) (f : Access → Access) : (s.modAccs p f).clusters = s.clusters := rfl
@[simp] theorem State.modAccs_chips (s : State) (p : Access → Bool) (f : Access → Access) : (s.modAccs p f).chips = s.chips := rfl
@[simp] theorem State.modAccs_slices (s : State) (p : Access → Bool) (f : Access → Access) : (s.modAccs p f).slices = s.slices := rfl
@[simp] theorem State.modAccs_mem (s : State) (p : Access → Bool) (f : Access → Access) : (s.modAccs p f).mem = s.mem := rfl
@[simp] theorem State.modAccs_memFill (s : State) (p : Access → Bool) (f : Access → Access) : (s.modAccs p f).memFill = s.memFill := rfl
@[simp] theorem State.modAccs_memPoison (s : State) (p : Access → Bool) (f : Access → Access) : (s.modAccs p f).memPoison = s.memPoison := rfl
@[simp] theorem State.modAccs_locPoison (s : State) (p : Access → Bool) (f : Access → Access) : (s.modAccs p f).locPoison = s.locPoison := rfl
@[simp] theorem State.modAccs_hostMem (s : State) (p : Access → Bool) (f : Access → Access) : (s.modAccs p f).hostMem = s.hostMem := rfl
@[simp] theorem State.modAccs_nextId (s : State) (p : Access → Bool) (f : Access → Access) : (s.modAccs p f).nextId = s.nextId := rfl
@[simp] theorem State.modAccs_forme (s : State) (p : Access → Bool) (f : Access → Access) : (s.modAccs p f).forme = s.forme := rfl
@[simp] theorem State.modAccs_free (s : State) (p : Access → Bool) (f : Access → Access) : (s.modAccs p f).free = s.free := rfl
@[simp] theorem State.modAccs_turn (s : State) (p : Access → Bool) (f : Access → Access) : (s.modAccs p f).turn = s.turn := rfl
@[simp] theorem State.modAccs_agenda (s : State) (p : Access → Bool) (f : Access → Access) : (s.modAccs p f).agenda = s.agenda := rfl
@[simp] theorem State.modAccs_cur (s : State) (p : Access → Bool) (f : Access → Access) : (s.modAccs p f).cur = s.cur := rfl
@[simp] theorem State.modAccs_slots (s : State) (p : Access → Bool) (f : Access → Access) : (s.modAccs p f).slots = s.slots := rfl
@[simp] theorem State.modAccs_slotNos (s : State) (p : Access → Bool) (f : Access → Access) : (s.modAccs p f).slotNos = s.slotNos := rfl
@[simp] theorem State.modAccs_hart (s : State) (p : Access → Bool) (f : Access → Access) : (s.modAccs p f).hart = s.hart := rfl
@[simp] theorem State.modAccs_snap (s : State) (p : Access → Bool) (f : Access → Access) : (s.modAccs p f).snap = s.snap := rfl
@[simp] theorem State.modAccs_snapPend (s : State) (p : Access → Bool) (f : Access → Access) : (s.modAccs p f).snapPend = s.snapPend := rfl
@[simp] theorem State.modAccs_snapSys (s : State) (p : Access → Bool) (f : Access → Access) : (s.modAccs p f).snapSys = s.snapSys := rfl

@[simp] theorem State.ends_cycle (s : State) (e : SlotEnd) : (s.ends e).cycle = s.cycle := rfl
@[simp] theorem State.ends_ctxs (s : State) (e : SlotEnd) : (s.ends e).ctxs = s.ctxs := rfl
@[simp] theorem State.ends_clusters (s : State) (e : SlotEnd) : (s.ends e).clusters = s.clusters := rfl
@[simp] theorem State.ends_chips (s : State) (e : SlotEnd) : (s.ends e).chips = s.chips := rfl
@[simp] theorem State.ends_slices (s : State) (e : SlotEnd) : (s.ends e).slices = s.slices := rfl
@[simp] theorem State.ends_mem (s : State) (e : SlotEnd) : (s.ends e).mem = s.mem := rfl
@[simp] theorem State.ends_memFill (s : State) (e : SlotEnd) : (s.ends e).memFill = s.memFill := rfl
@[simp] theorem State.ends_memPoison (s : State) (e : SlotEnd) : (s.ends e).memPoison = s.memPoison := rfl
@[simp] theorem State.ends_locPoison (s : State) (e : SlotEnd) : (s.ends e).locPoison = s.locPoison := rfl
@[simp] theorem State.ends_hostMem (s : State) (e : SlotEnd) : (s.ends e).hostMem = s.hostMem := rfl
@[simp] theorem State.ends_accs (s : State) (e : SlotEnd) : (s.ends e).accs = s.accs := rfl
@[simp] theorem State.ends_nextId (s : State) (e : SlotEnd) : (s.ends e).nextId = s.nextId := rfl
@[simp] theorem State.ends_forme (s : State) (e : SlotEnd) : (s.ends e).forme = s.forme := rfl
@[simp] theorem State.ends_free (s : State) (e : SlotEnd) : (s.ends e).free = s.free := rfl
@[simp] theorem State.ends_turn (s : State) (e : SlotEnd) : (s.ends e).turn = s.turn := rfl
@[simp] theorem State.ends_agenda (s : State) (e : SlotEnd) : (s.ends e).agenda = s.agenda := rfl
@[simp] theorem State.ends_slots (s : State) (e : SlotEnd) : (s.ends e).slots = s.slots := rfl
@[simp] theorem State.ends_slotNos (s : State) (e : SlotEnd) : (s.ends e).slotNos = s.slotNos := rfl
@[simp] theorem State.ends_hart (s : State) (e : SlotEnd) : (s.ends e).hart = s.hart := rfl
@[simp] theorem State.ends_snap (s : State) (e : SlotEnd) : (s.ends e).snap = s.snap := rfl
@[simp] theorem State.ends_snapPend (s : State) (e : SlotEnd) : (s.ends e).snapPend = s.snapPend := rfl
@[simp] theorem State.ends_snapSys (s : State) (e : SlotEnd) : (s.ends e).snapSys = s.snapSys := rfl

@[simp] theorem State.endBundle_cycle (s : State) : (s.endBundle).cycle = s.cycle := rfl
@[simp] theorem State.endBundle_ctxs (s : State) : (s.endBundle).ctxs = s.ctxs := rfl
@[simp] theorem State.endBundle_clusters (s : State) : (s.endBundle).clusters = s.clusters := rfl
@[simp] theorem State.endBundle_chips (s : State) : (s.endBundle).chips = s.chips := rfl
@[simp] theorem State.endBundle_slices (s : State) : (s.endBundle).slices = s.slices := rfl
@[simp] theorem State.endBundle_mem (s : State) : (s.endBundle).mem = s.mem := rfl
@[simp] theorem State.endBundle_memFill (s : State) : (s.endBundle).memFill = s.memFill := rfl
@[simp] theorem State.endBundle_memPoison (s : State) : (s.endBundle).memPoison = s.memPoison := rfl
@[simp] theorem State.endBundle_locPoison (s : State) : (s.endBundle).locPoison = s.locPoison := rfl
@[simp] theorem State.endBundle_hostMem (s : State) : (s.endBundle).hostMem = s.hostMem := rfl
@[simp] theorem State.endBundle_accs (s : State) : (s.endBundle).accs = s.accs := rfl
@[simp] theorem State.endBundle_nextId (s : State) : (s.endBundle).nextId = s.nextId := rfl
@[simp] theorem State.endBundle_forme (s : State) : (s.endBundle).forme = s.forme := rfl
@[simp] theorem State.endBundle_free (s : State) : (s.endBundle).free = s.free := rfl
@[simp] theorem State.endBundle_turn (s : State) : (s.endBundle).turn = s.turn := rfl
@[simp] theorem State.endBundle_agenda (s : State) : (s.endBundle).agenda = s.agenda := rfl
@[simp] theorem State.endBundle_hart (s : State) : (s.endBundle).hart = s.hart := rfl
@[simp] theorem State.endBundle_snap (s : State) : (s.endBundle).snap = s.snap := rfl
@[simp] theorem State.endBundle_snapPend (s : State) : (s.endBundle).snapPend = s.snapPend := rfl
@[simp] theorem State.endBundle_snapSys (s : State) : (s.endBundle).snapSys = s.snapSys := rfl

@[simp] theorem State.setNr_cycle (s : State) : (s.setNr).cycle = s.cycle := rfl
@[simp] theorem State.setNr_clusters (s : State) : (s.setNr).clusters = s.clusters := rfl
@[simp] theorem State.setNr_chips (s : State) : (s.setNr).chips = s.chips := rfl
@[simp] theorem State.setNr_slices (s : State) : (s.setNr).slices = s.slices := rfl
@[simp] theorem State.setNr_mem (s : State) : (s.setNr).mem = s.mem := rfl
@[simp] theorem State.setNr_memFill (s : State) : (s.setNr).memFill = s.memFill := rfl
@[simp] theorem State.setNr_memPoison (s : State) : (s.setNr).memPoison = s.memPoison := rfl
@[simp] theorem State.setNr_locPoison (s : State) : (s.setNr).locPoison = s.locPoison := rfl
@[simp] theorem State.setNr_hostMem (s : State) : (s.setNr).hostMem = s.hostMem := rfl
@[simp] theorem State.setNr_accs (s : State) : (s.setNr).accs = s.accs := rfl
@[simp] theorem State.setNr_nextId (s : State) : (s.setNr).nextId = s.nextId := rfl
@[simp] theorem State.setNr_forme (s : State) : (s.setNr).forme = s.forme := rfl
@[simp] theorem State.setNr_free (s : State) : (s.setNr).free = s.free := rfl
@[simp] theorem State.setNr_turn (s : State) : (s.setNr).turn = s.turn := rfl
@[simp] theorem State.setNr_agenda (s : State) : (s.setNr).agenda = s.agenda := rfl
@[simp] theorem State.setNr_cur (s : State) : (s.setNr).cur = s.cur := rfl
@[simp] theorem State.setNr_slots (s : State) : (s.setNr).slots = s.slots := rfl
@[simp] theorem State.setNr_slotNos (s : State) : (s.setNr).slotNos = s.slotNos := rfl
@[simp] theorem State.setNr_hart (s : State) : (s.setNr).hart = s.hart := rfl
@[simp] theorem State.setNr_snap (s : State) : (s.setNr).snap = s.snap := rfl
@[simp] theorem State.setNr_snapPend (s : State) : (s.setNr).snapPend = s.snapPend := rfl
@[simp] theorem State.setNr_snapSys (s : State) : (s.setNr).snapSys = s.snapSys := rfl

@[simp] theorem State.setDram_cycle (s : State) (a : Nat) (b : Byte) : (s.setDram a b).cycle = s.cycle := rfl
@[simp] theorem State.setDram_ctxs (s : State) (a : Nat) (b : Byte) : (s.setDram a b).ctxs = s.ctxs := rfl
@[simp] theorem State.setDram_clusters (s : State) (a : Nat) (b : Byte) : (s.setDram a b).clusters = s.clusters := rfl
@[simp] theorem State.setDram_chips (s : State) (a : Nat) (b : Byte) : (s.setDram a b).chips = s.chips := rfl
@[simp] theorem State.setDram_slices (s : State) (a : Nat) (b : Byte) : (s.setDram a b).slices = s.slices := rfl
@[simp] theorem State.setDram_memFill (s : State) (a : Nat) (b : Byte) : (s.setDram a b).memFill = s.memFill := rfl
@[simp] theorem State.setDram_memPoison (s : State) (a : Nat) (b : Byte) : (s.setDram a b).memPoison = s.memPoison := rfl
@[simp] theorem State.setDram_locPoison (s : State) (a : Nat) (b : Byte) : (s.setDram a b).locPoison = s.locPoison := rfl
@[simp] theorem State.setDram_hostMem (s : State) (a : Nat) (b : Byte) : (s.setDram a b).hostMem = s.hostMem := rfl
@[simp] theorem State.setDram_accs (s : State) (a : Nat) (b : Byte) : (s.setDram a b).accs = s.accs := rfl
@[simp] theorem State.setDram_nextId (s : State) (a : Nat) (b : Byte) : (s.setDram a b).nextId = s.nextId := rfl
@[simp] theorem State.setDram_forme (s : State) (a : Nat) (b : Byte) : (s.setDram a b).forme = s.forme := rfl
@[simp] theorem State.setDram_free (s : State) (a : Nat) (b : Byte) : (s.setDram a b).free = s.free := rfl
@[simp] theorem State.setDram_turn (s : State) (a : Nat) (b : Byte) : (s.setDram a b).turn = s.turn := rfl
@[simp] theorem State.setDram_agenda (s : State) (a : Nat) (b : Byte) : (s.setDram a b).agenda = s.agenda := rfl
@[simp] theorem State.setDram_cur (s : State) (a : Nat) (b : Byte) : (s.setDram a b).cur = s.cur := rfl
@[simp] theorem State.setDram_slots (s : State) (a : Nat) (b : Byte) : (s.setDram a b).slots = s.slots := rfl
@[simp] theorem State.setDram_slotNos (s : State) (a : Nat) (b : Byte) : (s.setDram a b).slotNos = s.slotNos := rfl
@[simp] theorem State.setDram_hart (s : State) (a : Nat) (b : Byte) : (s.setDram a b).hart = s.hart := rfl
@[simp] theorem State.setDram_snap (s : State) (a : Nat) (b : Byte) : (s.setDram a b).snap = s.snap := rfl
@[simp] theorem State.setDram_snapPend (s : State) (a : Nat) (b : Byte) : (s.setDram a b).snapPend = s.snapPend := rfl
@[simp] theorem State.setDram_snapSys (s : State) (a : Nat) (b : Byte) : (s.setDram a b).snapSys = s.snapSys := rfl

@[simp] theorem State.setHostByte_cycle (s : State) (a : Nat) (b : Byte) : (s.setHostByte a b).cycle = s.cycle := rfl
@[simp] theorem State.setHostByte_ctxs (s : State) (a : Nat) (b : Byte) : (s.setHostByte a b).ctxs = s.ctxs := rfl
@[simp] theorem State.setHostByte_clusters (s : State) (a : Nat) (b : Byte) : (s.setHostByte a b).clusters = s.clusters := rfl
@[simp] theorem State.setHostByte_chips (s : State) (a : Nat) (b : Byte) : (s.setHostByte a b).chips = s.chips := rfl
@[simp] theorem State.setHostByte_slices (s : State) (a : Nat) (b : Byte) : (s.setHostByte a b).slices = s.slices := rfl
@[simp] theorem State.setHostByte_mem (s : State) (a : Nat) (b : Byte) : (s.setHostByte a b).mem = s.mem := rfl
@[simp] theorem State.setHostByte_memFill (s : State) (a : Nat) (b : Byte) : (s.setHostByte a b).memFill = s.memFill := rfl
@[simp] theorem State.setHostByte_memPoison (s : State) (a : Nat) (b : Byte) : (s.setHostByte a b).memPoison = s.memPoison := rfl
@[simp] theorem State.setHostByte_locPoison (s : State) (a : Nat) (b : Byte) : (s.setHostByte a b).locPoison = s.locPoison := rfl
@[simp] theorem State.setHostByte_accs (s : State) (a : Nat) (b : Byte) : (s.setHostByte a b).accs = s.accs := rfl
@[simp] theorem State.setHostByte_nextId (s : State) (a : Nat) (b : Byte) : (s.setHostByte a b).nextId = s.nextId := rfl
@[simp] theorem State.setHostByte_forme (s : State) (a : Nat) (b : Byte) : (s.setHostByte a b).forme = s.forme := rfl
@[simp] theorem State.setHostByte_free (s : State) (a : Nat) (b : Byte) : (s.setHostByte a b).free = s.free := rfl
@[simp] theorem State.setHostByte_turn (s : State) (a : Nat) (b : Byte) : (s.setHostByte a b).turn = s.turn := rfl
@[simp] theorem State.setHostByte_agenda (s : State) (a : Nat) (b : Byte) : (s.setHostByte a b).agenda = s.agenda := rfl
@[simp] theorem State.setHostByte_cur (s : State) (a : Nat) (b : Byte) : (s.setHostByte a b).cur = s.cur := rfl
@[simp] theorem State.setHostByte_slots (s : State) (a : Nat) (b : Byte) : (s.setHostByte a b).slots = s.slots := rfl
@[simp] theorem State.setHostByte_slotNos (s : State) (a : Nat) (b : Byte) : (s.setHostByte a b).slotNos = s.slotNos := rfl
@[simp] theorem State.setHostByte_hart (s : State) (a : Nat) (b : Byte) : (s.setHostByte a b).hart = s.hart := rfl
@[simp] theorem State.setHostByte_snap (s : State) (a : Nat) (b : Byte) : (s.setHostByte a b).snap = s.snap := rfl
@[simp] theorem State.setHostByte_snapPend (s : State) (a : Nat) (b : Byte) : (s.setHostByte a b).snapPend = s.snapPend := rfl
@[simp] theorem State.setHostByte_snapSys (s : State) (a : Nat) (b : Byte) : (s.setHostByte a b).snapSys = s.snapSys := rfl

@[simp] theorem State.undefine_cycle (s : State) (a b : Nat) : (s.undefine a b).cycle = s.cycle := rfl
@[simp] theorem State.undefine_ctxs (s : State) (a b : Nat) : (s.undefine a b).ctxs = s.ctxs := rfl
@[simp] theorem State.undefine_clusters (s : State) (a b : Nat) : (s.undefine a b).clusters = s.clusters := rfl
@[simp] theorem State.undefine_chips (s : State) (a b : Nat) : (s.undefine a b).chips = s.chips := rfl
@[simp] theorem State.undefine_slices (s : State) (a b : Nat) : (s.undefine a b).slices = s.slices := rfl
@[simp] theorem State.undefine_memPoison (s : State) (a b : Nat) : (s.undefine a b).memPoison = s.memPoison := rfl
@[simp] theorem State.undefine_locPoison (s : State) (a b : Nat) : (s.undefine a b).locPoison = s.locPoison := rfl
@[simp] theorem State.undefine_hostMem (s : State) (a b : Nat) : (s.undefine a b).hostMem = s.hostMem := rfl
@[simp] theorem State.undefine_accs (s : State) (a b : Nat) : (s.undefine a b).accs = s.accs := rfl
@[simp] theorem State.undefine_nextId (s : State) (a b : Nat) : (s.undefine a b).nextId = s.nextId := rfl
@[simp] theorem State.undefine_forme (s : State) (a b : Nat) : (s.undefine a b).forme = s.forme := rfl
@[simp] theorem State.undefine_turn (s : State) (a b : Nat) : (s.undefine a b).turn = s.turn := rfl
@[simp] theorem State.undefine_agenda (s : State) (a b : Nat) : (s.undefine a b).agenda = s.agenda := rfl
@[simp] theorem State.undefine_cur (s : State) (a b : Nat) : (s.undefine a b).cur = s.cur := rfl
@[simp] theorem State.undefine_slots (s : State) (a b : Nat) : (s.undefine a b).slots = s.slots := rfl
@[simp] theorem State.undefine_slotNos (s : State) (a b : Nat) : (s.undefine a b).slotNos = s.slotNos := rfl
@[simp] theorem State.undefine_hart (s : State) (a b : Nat) : (s.undefine a b).hart = s.hart := rfl
@[simp] theorem State.undefine_snap (s : State) (a b : Nat) : (s.undefine a b).snap = s.snap := rfl
@[simp] theorem State.undefine_snapPend (s : State) (a b : Nat) : (s.undefine a b).snapPend = s.snapPend := rfl
@[simp] theorem State.undefine_snapSys (s : State) (a b : Nat) : (s.undefine a b).snapSys = s.snapSys := rfl

/-! ## A part after its own update, and another part -/

@[simp] theorem State.ctx_setCtx (s : State) (k c : Nat) (x : Ctx) : (s.setCtx k c x).ctx k c = x := by
  simp [State.ctx, State.setCtx]
theorem State.ctx_setCtx_ne (s : State) {k c k' c' : Nat} (x : Ctx) (h : 4 * k' + c' ≠ 4 * k + c) :
    (s.setCtx k c x).ctx k' c' = s.ctx k' c' := sget_sset_ne _ _ _ h
@[simp] theorem State.ctx_modCtx (s : State) (k c : Nat) (f : Ctx → Ctx) : (s.modCtx k c f).ctx k c = f (s.ctx k c) := by
  simp [State.modCtx]
theorem State.ctx_modCtx_ne (s : State) {k c k' c' : Nat} (f : Ctx → Ctx) (h : 4 * k' + c' ≠ 4 * k + c) :
    (s.modCtx k c f).ctx k' c' = s.ctx k' c' := State.ctx_setCtx_ne _ _ h
@[simp] theorem State.me_modMe (s : State) (f : Ctx → Ctx) : (s.modMe f).me = f s.me := by
  simp [State.me, State.modMe]
@[simp] theorem State.cluster_setCluster (s : State) (k : Nat) (x : Cluster) : (s.setCluster k x).cluster k = x := by
  simp [State.cluster, State.setCluster]
theorem State.cluster_setCluster_ne (s : State) {k j : Nat} (x : Cluster) (h : j ≠ k) :
    (s.setCluster k x).cluster j = s.cluster j := sget_sset_ne _ _ _ h
@[simp] theorem State.cluster_modCluster (s : State) (k : Nat) (f : Cluster → Cluster) :
    (s.modCluster k f).cluster k = f (s.cluster k) := by simp [State.modCluster]
@[simp] theorem State.cc_modCc (s : State) (f : Cluster → Cluster) : (s.modCc f).cc = f s.cc := by
  simp [State.cc, State.modCc]
@[simp] theorem State.slice_setSlice (s : State) (n : Nat) (x : Slice) : (s.setSlice n x).slice n = x := by
  simp [State.slice, State.setSlice]
@[simp] theorem State.slice_modSlice (s : State) (n : Nat) (f : Slice → Slice) :
    (s.modSlice n f).slice n = f (s.slice n) := by simp [State.modSlice]
@[simp] theorem State.chip_setChip (s : State) (x : Nat) (v : ChipSt) : (s.setChip x v).chip x = v := by
  simp [State.chip, State.setChip]
@[simp] theorem State.forme_modForme (s : State) (f : Forme → Forme) : (s.modForme f).forme = f s.forme := rfl

/-! ## Parts read across updates of other parts -/

@[simp] theorem State.me_modCc (s : State) (f : Cluster → Cluster) : (s.modCc f).me = s.me := rfl
@[simp] theorem State.cc_modMe (s : State) (f : Ctx → Ctx) : (s.modMe f).cc = s.cc := rfl
@[simp] theorem State.me_modForme (s : State) (f : Forme → Forme) : (s.modForme f).me = s.me := rfl
@[simp] theorem State.cc_modForme (s : State) (f : Forme → Forme) : (s.modForme f).cc = s.cc := rfl
@[simp] theorem State.me_soon (s : State) (ms : List Instr) : (s.soon ms).me = s.me := rfl
@[simp] theorem State.cc_soon (s : State) (ms : List Instr) : (s.soon ms).cc = s.cc := rfl
@[simp] theorem State.ctx_modForme (s : State) (f : Forme → Forme) (k c : Nat) : (s.modForme f).ctx k c = s.ctx k c := rfl
@[simp] theorem State.ctx_soon (s : State) (ms : List Instr) (k c : Nat) : (s.soon ms).ctx k c = s.ctx k c := rfl
@[simp] theorem State.ctx_setSlice (s : State) (n : Nat) (x : Slice) (k c : Nat) : (s.setSlice n x).ctx k c = s.ctx k c := rfl
@[simp] theorem State.ctx_modCluster (s : State) (j : Nat) (f : Cluster → Cluster) (k c : Nat) :
    (s.modCluster j f).ctx k c = s.ctx k c := rfl
@[simp] theorem State.cluster_modCtx (s : State) (k c j : Nat) (f : Ctx → Ctx) :
    (s.modCtx k c f).cluster j = s.cluster j := rfl
@[simp] theorem State.cluster_modForme (s : State) (f : Forme → Forme) (j : Nat) :
    (s.modForme f).cluster j = s.cluster j := rfl
@[simp] theorem State.cluster_soon (s : State) (ms : List Instr) (j : Nat) : (s.soon ms).cluster j = s.cluster j := rfl

/-- Two updates of the same context are one. -/
@[simp] theorem State.modMe_modMe (s : State) (f g : Ctx → Ctx) : ((s.modMe f).modMe g).me = g (f s.me) := by simp

end Sys2Proof.Machine
end

