-- ==== Sys2Proof/Laws/Ops.lean ====
section
/-!
SUPPORT. What the shared operations of the slots do, said once: writing a result, a trap of the slot in issue, a stall, a
release point.
-/
namespace Sys2Proof.Machine

/-- A result in flight as `put` enters it, when no older one goes to its destination. -/
def Pend.fresh (s : State) (d : Dst) (v : VWord) (psn : Bool) (bound : Nat) : Pend :=
  ⟨s.nextId, d, v, psn, some (s.cur.bno + bound), true, 0, none⟩

theorem State.not_tied {s : State} {d : Dst} (h : s.inFlight d = false) (n : Nat) : s.tied d n = false := by
  simp only [State.inFlight, State.tied, List.any_eq_false, decide_eq_true_eq, Bool.and_eq_true] at *
  exact fun p hp hd => h p hp (by simpa using hd.1)

theorem State.inFlight_free (s : State) (d : Dst) (n : Nat) :
    ({ s with free := n } : State).inFlight d = s.inFlight d := rfl

/-- A clean result with bound 1 lands at once. -/
theorem State.put_one {s : State} {d : Dst} (h : s.inFlight d = false) (v : VWord) :
    s.put d v false 1 = s.modMe fun x => x.land (Pend.fresh s d v false 1) := by
  simp [State.put, State.not_tied h, h, Pend.fresh]

/-- A clean result with a greater bound is in flight. -/
theorem State.put_later {s : State} {d : Dst} (h : s.inFlight d = false) (v : VWord) {n : Nat} (hn : 1 < n) :
    s.put d v false n =
      { s.modMe fun x => { x with pend := x.pend ++ [Pend.fresh s d v false n] } with nextId := s.nextId + 1 } := by
  simp [State.put, State.not_tied h, h, Pend.fresh, Nat.not_le.mpr hn]

/-- A poisoned result with bound 1 lands at once, with a free value (R246). -/
theorem State.put_psn_one {s : State} {d : Dst} (h : s.inFlight d = false) (v : VWord) :
    s.put d v true 1 = ({ s with free := s.free + 1 } : State).modMe fun x =>
      x.land (Pend.fresh s d (Config.freeBits 1024 s.free) true 1) := by
  simp [State.put, State.not_tied h, State.inFlight_free, h, Pend.fresh]

/-- A poisoned result with a greater bound is in flight, with a free value. -/
theorem State.put_psn_later {s : State} {d : Dst} (h : s.inFlight d = false) (v : VWord) {n : Nat} (hn : 1 < n) :
    s.put d v true n =
      { ({ s with free := s.free + 1 } : State).modMe fun x =>
          { x with pend := x.pend ++ [Pend.fresh s d (Config.freeBits 1024 s.free) true n] } with
        nextId := s.nextId + 1 } := by
  simp [State.put, State.not_tied h, State.inFlight_free, h, Pend.fresh, Nat.not_le.mpr hn]

/-- A v result that names no bound galley goes to its register. -/
theorem State.putV_reg {s : State} {v : VReg} (h : s.galley? v = none) (x : VWord) (psn : Bool) (n : Nat) :
    s.putV v x psn n = s.put (.v v) x psn n := by
  simp [State.putV, h]

/-- A check that fails takes the trap; one that does not lets the effect happen. -/
@[simp] theorem State.checked_none (s eff : State) : s.checked none eff = .next eff := rfl
@[simp] theorem State.checked_some (s eff : State) (t : Trap) : s.checked (some t) eff = .next (s.trap t) := rfl

/-- Every slot operation over scalar sources completes. -/
theorem State.sop1_next (s : State) (sd sa : SReg) (n : Nat) (f : Word → Word) :
    s.sop1 sd sa n f = .next (s.putS sd (f (s.rdS sa).val) (s.rdS sa).psn n) := rfl
theorem State.sop2_next (s : State) (sd sa sb : SReg) (n : Nat) (f : Word → Word → Word) :
    s.sop2 sd sa sb n f =
      .next (s.putS sd (f (s.rdS sa).val (s.rdS sb).val) ((s.rdS sa).psn || (s.rdS sb).psn) n) := rfl

/-- Sources that name no galley wait for nothing and are checked for nothing. -/
theorem State.vCheckSrc_reg {s : State} {vs : List VReg} (h : ∀ v ∈ vs, s.galley? v = none) : s.vCheckSrc vs = none := by
  simp only [State.vCheckSrc, firstTrap, List.findSome?_eq_none_iff, List.mem_map]
  rintro t ⟨v, hv, rfl⟩
  simp [State.popCheck, h v hv]

theorem State.vCheck_reg {s : State} {vs : List VReg} {vd : VReg} (h : ∀ v ∈ vs, s.galley? v = none)
    (hd : s.galley? vd = none) : s.vCheck vs vd = none := by
  simp only [State.vCheck, firstTrap, List.findSome?_eq_none_iff, List.mem_append, List.mem_map]
  rintro t (⟨v, hv, rfl⟩ | ht)
  · simp [State.popCheck, h v hv]
  · simp only [List.mem_cons, List.not_mem_nil, or_false] at ht
    rcases ht with rfl | rfl <;> simp [State.pushCheck, hd]

theorem State.vStall_src {s : State} {vs : List VReg} (h : ∀ v ∈ vs, s.galley? v = none) : s.vStall vs none = false := by
  simp only [State.vStall, Option.map_none, Option.getD_none, Bool.or_false, List.any_eq_false]
  exact fun v hv => by simp [State.popStall, h v hv]

theorem State.vStall_reg {s : State} {vs : List VReg} {vd : VReg} (h : ∀ v ∈ vs, s.galley? v = none)
    (hd : s.galley? vd = none) : s.vStall vs (some vd) = false := by
  simp only [State.vStall, Option.map_some, Option.getD_some, Bool.or_eq_false_iff, List.any_eq_false]
  exact ⟨fun v hv => by simp [State.popStall, h v hv], by simp [State.pushStall, hd]⟩

theorem State.srcV_reg {s : State} {v : VReg} (h : s.galley? v = none) : s.srcV v = s.rdV v := by
  simp [State.srcV, h]

theorem State.oldV_reg {s : State} {v : VReg} (h : s.galley? v = none) : s.oldV v = s.rdV v := by
  simp [State.oldV, h]

/-- Sources that name no galley pop nothing. -/
theorem State.popV_reg {s : State} {vs : List VReg} (h : ∀ v ∈ vs, s.galley? v = none) : s.popV vs = s := by
  have step : ∀ (l : List VReg), (∀ v ∈ l, s.galley? v = none) →
      l.foldl (fun s v => match s.galley? v with
        | some (g, _) => (s.modGalley g fun x => { x with q := x.q.tail }).setNr
        | none => s) s = s := by
    intro l hl
    induction l with
    | nil => rfl
    | cons v l ih =>
      rw [List.foldl_cons, hl v (by simp)]
      exact ih fun v hv => hl v (by simp [hv])
  exact step _ fun v hv => h v (by simpa using hv)

/-- A V-slot instruction whose sources and destination name no galley: its result in flight to its register. -/
theorem State.vop_reg {s : State} {vs : List VReg} {vd : VReg} (h : ∀ v ∈ vs, s.galley? v = none)
    (hd : s.galley? vd = none) (old : Bool) (n : Nat) (f : List VWord → VWord → VWord × Flags) :
    s.vop vs vd old n f =
      .next ((s.put (.v vd) (f (vs.map fun v => (s.srcV v).val) (s.rdV vd).val).1
        ((vs.any fun v => (s.srcV v).psn) || (old && (s.rdV vd).psn)) n).putFlags
          (f (vs.map fun v => (s.srcV v).val) (s.rdV vd).val).2 n) := by
  simp [State.vop, State.vCheck_reg h hd, State.vStall_reg h hd, State.popV_reg h, State.putV_reg hd, State.oldV_reg hd]

/-- A V-slot instruction with a k destination, whose sources name no galley. -/
theorem State.vopK_reg {s : State} {vs : List VReg} {kd : KReg} (h : ∀ v ∈ vs, s.galley? v = none)
    (hp : ∀ v ∈ vs, (s.rdV v).psn = false) (n : Nat) (f : List VWord → BitVec 32 × Flags) :
    s.vopK vs kd n f =
      .next ((s.putK kd (f (vs.map fun v => (s.rdV v).val)).1 n).putFlags (f (vs.map fun v => (s.rdV v).val)).2 n) := by
  have hs : vs.map (fun v => (s.srcV v).val) = vs.map fun v => (s.rdV v).val :=
    List.map_congr_left fun v hv => by rw [State.srcV_reg (h v hv)]
  have hq : (vs.any fun v => (s.srcV v).psn) = false := by
    simp only [List.any_eq_false]
    exact fun v hv => by simp [State.srcV_reg (h v hv), hp v hv]
  simp [State.vopK, State.vCheckSrc_reg h, State.vStall_src h, State.popV_reg h, hs, hq]

/-- A release point has its effect when every access of the context is translated and no fault is due (R445). -/
theorem State.releasePoint_next {s : State} {mark : Bool} (eff : State) (h : s.untranslated = false)
    (hf : s.releaseFault mark = none) : s.releasePoint mark eff = .next eff := by
  simp [State.releasePoint, h, hf]

/-- Every outcome of a release point is a next state. -/
theorem State.releasePoint_isNext (s : State) (mark : Bool) (eff : State) : ∃ t, s.releasePoint mark eff = .next t := by
  unfold State.releasePoint
  split
  · exact ⟨_, rfl⟩
  · split <;> exact ⟨_, rfl⟩

/-- A trap of a context whose interval is repeatable, with a handler inside the text: the context is rolled back, the
trap registers are written, and its next bundle is the handler's first (R443). -/
theorem State.deliver_handler {s : State} {k c : Nat} (tc : BitVec 32) (ti : BitVec 64) (hn : (s.ctx k c).nr = false)
    (hm : (s.ctx k c).trapm = false) (h0 : (s.ctx k c).handlerPc ≠ 0) (hl : (s.ctx k c).bnd.entry ≤ (s.ctx k c).handlerPc)
    (hh : (s.ctx k c).handlerPc < (s.ctx k c).bnd.textEnd) :
    s.deliver k c tc ti none = (s.endBundle.rollback k c).modCtx k c fun y =>
      { y with erpc := .ofNat 64 y.rpc, ermpc := .ofNat 64 y.rmpc, tcause := tc, tinfo := ti, trapm := true,
               pc := y.handlerPc, mpc := y.handlerMpc } := by
  simp [State.deliver, hn, hm, h0, Nat.not_lt.mpr hl, Nat.not_le.mpr hh]

/-- A trap inside a non-repeatable interval cannot be restarted (R443). -/
theorem State.deliver_nr {s : State} {k c : Nat} (tc : BitVec 32) (ti : BitVec 64) (p : Option Nat)
    (hn : (s.ctx k c).nr = true) : s.deliver k c tc ti p = s.endBundle.unrestartable k c tc ti := by
  simp [State.deliver, hn]

end Sys2Proof.Machine
end

