-- ==== Sys2Proof/Tests/Slice0.lean ====
section
/-!
SUPPORT. Checks of the model: terms without an encoding that `Instr.wf` refuses, words that the spec writes out, the
spec's worked examples, and for every statement of Obligations.lean a concrete state and operands that meet its
hypotheses, clause by clause.
-/
namespace Sys2Proof.Tests
open Sys2Proof.Machine Sys2Proof.Claims

set_option Elab.async false

/-! ## Terms without an encoding (R243) -/

/-- One ill-formed term for each check of `Instr.wf`. -/
theorem test_wf_refuses : ∀ i ∈ ([.dbar 6 false, .mfc 1 0x007, .mtc 0x013 1, .vshl .w8 1 2 (.imm 8) 0,
    .vshr .w16 1 2 (.imm 16) 0, .vsar .w8 1 2 (.imm 31) 0, .vrot .w8 1 2 (.imm 8) 0, .vfsl .w8 1 2 3 (.imm 8) 0,
    .vfsr .w16 1 2 3 (.imm 16) 0, .vcmp .eq .w32 true 1 2 3 0, .vbcst .w32 1 2 32 0, .vrotl .w16 1 2 64 0,
    .vfcmp .eq .f32 true 1 2 3 0, .vcvt .f32 .f32 .rne 1 2 0 0, .vcvt .f32 .f16 .rne 1 2 2 0,
    .vcvti true .f32 false .w8 .rne 1 2 4 0, .vcvtx true .f32 .mxi8 .rne 5 6 5 0, 
    .vcvtx true .f32 .mxi8 .rne 1 2 3 4,
    .slen 5, .slen 17, .sclr 0, .sdrain 0, .sstop 0, .smarg 1 0 0, .smarg 0 1 512, .spos 0 5, .slit (.n 6),
    .ld (.s 1) .b8 true ⟨false, 1, 0, 0, .none⟩, .ld (.s 1) .b4 false ⟨true, 1, 0, 1, .none⟩,
    .ldv 1 .b32 ⟨true, 1, 0, 0, .nal⟩, .lds (.s 1 .b8 true) ⟨false, 1, 0, 0, .none⟩,
    .lds (.v 1 .b32) ⟨true, 1, 0, 1, .none⟩, .ldg 1 .b1 ⟨true, 1, 2, 1, .none⟩, .waitaddr 1 .b4 2 0 0,
    .ldt ⟨true, 1, 2, .data 0 0, 1, .none⟩, .st (.s 1) .b1 ⟨true, 1, 0, 1, .none⟩, .stv 1 .b32 ⟨true, 1, 0, 0, .byp⟩,
    .sts 1 .b8 16 false 1 0 0 .none, .sts 1 .b8 0 true 1 0 1 .none, .stx 1 .b1 ⟨true, 1, 2, 1, .none⟩,
    .stt ⟨true, 1, 2, .data 0 0, 1, .none⟩, .atom .fadd .b8 1 2 0 .none none, .atom .cas .b4 1 3 0 .none none,
    .red .fadd .b8 1 2 0 .none, .red .swap .b4 1 2 0 .none, .red .cas .b4 1 2 0 .none, .bind false .ldx 1 2 0 .none,
    .rwin false 1 0x1000001 0 none, .rwin false 1 0 0 none, .rwin false 1 4 1 none] : List Instr), i.wf = false := by decide
/-! ## Words written out from the tables of the spec (R239, R241, R242, and the fields of each instruction) -/

/-- Y slot (R267, R272, R274, R381). -/
theorem test_decode_flow : ∀ e ∈ ([
    (0x000000000000000, .nop 0),
    (0x020003FFFE00005, .br ⟨-2, 5⟩),
    (0x040000000000003, .bra 3),
    (0x060263FFFE00005, .brs .none 6 ⟨-2, 5⟩),
    (0x080193FFFE00005, .brv .none 9 ⟨-2, 5⟩),
    (0x0A000BFFFE00005, .call 2 ⟨-2, 5⟩),
    (0x0C0000000000001, .ret 1),
    (0x0E0000000000009, .jmpl 2 1),
    (0x1009C4000000003, .loopi 3 40000),
    (0x12000FFFFE00005, .loope 3 ⟨-2, 5⟩),
    (0x14005800000001D, .chk (.s 22) ⟨0, 29⟩),
    (0x140FFFFFFE00005, .chk (.v 511) ⟨-2, 5⟩),
    (0x160FC9207185103, .wait ⟨3, 4, 5, 6, 7, 8, 9, 63⟩),
    (0x18002102203F027, .waitp ⟨⟨true, 1⟩, ⟨false, 0⟩, ⟨true, 2⟩, ⟨false, 0⟩, ⟨true, 31⟩, ⟨false, 0⟩, ⟨true, 7⟩⟩),
    (0x1A000000000003D, .setf 61),
    (0x1C0000000000002, .clrf 2),
    (0x1E0002100000007, .setp 7 (.flag 33)),
    (0x1E0003500000017, .setp 7 (.sum .nall 5)),
    (0x1E0000100000027, .setp 7 (.value true)),
    (0x200000900123456, .post (.group 0x123456) 9),
    (0x200000980000002, .post (.link 2) 9),
    (0x22000000000000D, .dbar 5 true),
    (0x2407ABC000000F2, .send 0xABC 7 2 15),
    (0x2607ABC00000032, .recv 0xABC 7 2 3),
    (0x280BEEF00000000, .mark 0xBEEF),
    (0x2A0000000000000, .yield),
    (0x2C0000000000000, .exit),
    (0x2E01234FFFFFFFF, .trap 0x1234 0xFFFFFFFF),
    (0x300000000000000, .tret)] : List (Nat × Instr)),
    (decodeSlot .y false e.1).toOption = some ⟨false, 0, e.2⟩ := by decide +kernel

/-- S slot (R260, R263, R264, R266). -/
theorem test_decode_scalar : ∀ e ∈ ([
    (0x020F02840140000, .add 60 2 33 5),
    (0x040F02840140000, .sub 60 2 33 5),
    (0x060F02FFFFFFFF9, .addi 60 2 (-7)),
    (0x080F02840000000, .mul 60 2 33 none),
    (0x080F02849000001, .mul 60 2 33 (some 9)),
    (0x0A0F02840000000, .mulh 60 2 33),
    (0x0C0F02840000000, .mulhn 60 2 33),
    (0x0E0F02840000000, .div 60 2 33),
    (0x100F02840000000, .divn 60 2 33),
    (0x120F02840000000, .rem 60 2 33),
    (0x140F02840000000, .remn 60 2 33),
    (0x160F02840000000, .and 60 2 33),
    (0x180F02840000000, .or 60 2 33),
    (0x1A0F02840000000, .xor 60 2 33),
    (0x1C0F02840000000, .andn 60 2 33),
    (0x1E0F02840000000, .shl 60 2 (.reg 33)),
    (0x1E0F02000EC0001, .shl 60 2 (.imm 59)),
    (0x200F02840000000, .shr 60 2 (.reg 33)),
    (0x200F02000EC0001, .shr 60 2 (.imm 59)),
    (0x220F02840000000, .sar 60 2 (.reg 33)),
    (0x220F02000EC0001, .sar 60 2 (.imm 59)),
    (0x240F02840000000, .rot 60 2 (.reg 33)),
    (0x240F02000EC0001, .rot 60 2 (.imm 59)),
    (0x260F02000000000, .clz 60 2),
    (0x280F02000000000, .ctz 60 2),
    (0x2A0F02000000000, .popc 60 2),
    (0x2C0F02840000000, .min 60 2 33),
    (0x2E0F02840000000, .max 60 2 33),
    (0x300F02840000000, .minn 60 2 33),
    (0x320F02840000000, .maxn 60 2 33),
    (0x340342840000005, .cmp .gen 13 2 33),
    (0x3603427FFFFFFFF, .cmpi .ntst 13 2 (-1)),
    (0x380F0284000001C, .sel 60 true 12 2 33),
    (0x3A0F3FFFFFFFFF7, .li 60 (-9)),
    (0x3C0F000000048D1, .lih 60 0x48D1),
    (0x3E0F02000000000, .mov 60 2),
    (0x400C8087E000000, .xsv 400 31 33),
    (0x42010E43E000000, .xvs 33 400 31),
    (0x4400F8840000000, .xsa 31 33),
    (0x4601087C0000000, .xas 33 31),
    (0x480018840000000, .xsl 3 33),
    (0x4A01080C0000000, .xls 33 3),
    (0x4C08447C0000000, .mfc 33 0x11F),
    (0x4E0840480000000, .mtc 0x012 33)] : List (Nat × Instr)),
    (decodeSlot .s false e.1).toOption = some ⟨false, 0, e.2⟩ := by decide +kernel

/-- V slots, integer and lane instructions (R290 to R297). -/
theorem test_decode_vector_int : ∀ e ∈ ([
    (0x0209600BFE00E0D, .vadd ⟨.w16, true, true⟩ 300 2 511 14),
    (0x0409600BFE00E0D, .vsub ⟨.w16, true, true⟩ 300 2 511 14),
    (0x0609600BFE00E0D, .vmul ⟨.w16, true, true⟩ 300 2 511 14),
    (0x0809600BFE00E04, .vmulh .w8 true 300 2 511 14),
    (0x0A09600BFE40E06, .vmad ⟨.w32, true, false⟩ 300 2 511 64 14),
    (0x0C0960080000E09, .vabs .w16 true 300 2 14),
    (0x0E09600BFE00E02, .vmin .w32 300 2 511 14),
    (0x1009600BFE00E02, .vmax .w32 300 2 511 14),
    (0x1209600BFE00E02, .vminn .w32 300 2 511 14),
    (0x1409600BFE00E02, .vmaxn .w32 300 2 511 14),
    (0x1609600BFE00E00, .vand 300 2 511 14),
    (0x1809600BFE00E00, .vor 300 2 511 14),
    (0x1A09600BFE00E00, .vxor 300 2 511 14),
    (0x1C09600BFE40E96, .vlut3 0x96 300 2 511 64 14),
    (0x1E09600BFE00E02, .vshl .w32 300 2 (.reg 511) 14),
    (0x1E0960081E00E11, .vshl .w16 300 2 (.imm 15) 14),
    (0x2009600BFE00E02, .vshr .w32 300 2 (.reg 511) 14),
    (0x200960081E00E11, .vshr .w16 300 2 (.imm 15) 14),
    (0x2209600BFE00E02, .vsar .w32 300 2 (.reg 511) 14),
    (0x220960081E00E11, .vsar .w16 300 2 (.imm 15) 14),
    (0x2809600BFE00E02, .vrot .w32 300 2 (.reg 511) 14),
    (0x280960081E00E11, .vrot .w16 300 2 (.imm 15) 14),
    (0x2409600BFE40E02, .vfsl .w32 300 2 511 (.reg 64) 14),
    (0x2409600BFE07E10, .vfsl .w8 300 2 511 (.imm 7) 14),
    (0x2609600BFE40E02, .vfsr .w32 300 2 511 (.reg 64) 14),
    (0x2609600BFE07E10, .vfsr .w8 300 2 511 (.imm 7) 14),
    (0x2A0960080000E00, .vpopc .w8 300 2 14),
    (0x2C0960080000E02, .vclz .w32 300 2 14),
    (0x2E00680BFE00E55, .vcmp .gen .w16 true 13 2 511 14),
    (0x3009600BFE09E10, .vsel true 9 300 2 511 14),
    (0x32096008FE00E00, .vbcst .w8 300 2 127 14),
    (0x3409600BFE00E01, .vperm .w16 300 2 511 14),
    (0x360960083E00E02, .vrotl .w32 300 2 31 14),
    (0x380960080000E0D, .vreda (.int ⟨.w16, true, true⟩) 300 2 14),
    (0x380960080000E12, .vreda (.fp .bf16) 300 2 14),
    (0x3A0960080000E24, .vredm true (.int .w8 true) 300 2 14),
    (0x3A0960080000E11, .vredm false (.fp .f16) 300 2 14),
    (0x3C0028080000E00, .vtest 5 (.v 2) 14),
    (0x3C0028240000E01, .vtest 5 (.k 9) 14),
    (0x3E09600BFE00E0D, .vfadd .f16 .rd 300 2 511 14),
    (0x4009600BFE00E0D, .vfsub .f16 .rd 300 2 511 14),
    (0x4209600BFE00E0D, .vfmul .f16 .rd 300 2 511 14),
    (0x4409600BFE40E26, .vfma .nm .bf16 .rz 300 2 511 64 14),
    (0x4609600BFE00E02, .vfmin .bf16 300 2 511 14),
    (0x4809600BFE00E02, .vfmax .bf16 300 2 511 14),
    (0x4A00680BFE00E65, .vfcmp .un .f16 true 13 2 511 14)] : List (Nat × Instr)),
    (decodeSlot .v false e.1).toOption = some ⟨false, 0, e.2⟩ := by decide +kernel

/-- V slots, floating point, conversions and tile moves (R298 to R307). -/
theorem test_decode_vector_fp : ∀ e ∈ ([
    (0x4C0960080000E08, .vfrcp .f32 .ru 300 2 14),
    (0x4E0960080000E08, .vfrsq .f32 .ru 300 2 14),
    (0x500960080000E08, .vfexp2 .f32 .ru 300 2 14),
    (0x520960080000E08, .vflog2 .f32 .ru 300 2 14),
    (0x540960080600E55, .vcvt .e2m1 .bf16 .rz 300 2 3 14),
    (0x560960080200EB3, .vcvti true .f16 true .w8 .rd 300 2 1 14),
    (0x560960080200E04, .vcvti false .f32 false .w16 .rne 300 2 1 14),
    (0x5809600BFE030C9, .vcvtx true .bf16 .mxfp4 .rz 300 2 511 3),
    (0x5809600BFE03010, .vcvtx false .f32 .mxn8 .rne 300 2 511 3),
    (0x5A09600BFE00E16, .vpack .w32 true false true 300 2 511 14),
    (0x5A09600BFE00E09, .vpack .w16 false true false 300 2 511 14),
    (0x5C0960080200E05, .vunpk .w16 true 300 2 1 14),
    (0x5E0964600800E5E, .vtrd .bf16 300 17 1025 30 14),
    (0x600964600800E5E, .vtcd .bf16 300 17 1025 30 14),
    (0x620964600800E5E, .vtwr .bf16 300 17 1025 30 14),
    (0x640960080000E00, .vmov 300 2 14),
    (0x660960000000E00, .viota (.index .w8) 300 14),
    (0x660960240000E12, .viota (.pfx 9) 300 14),
    (0x680068240800006, .vkop (.table 13 9 4 6)),
    (0x680068080000010, .vkop (.toMask 13 2)),
    (0x680960240000020, .vkop (.fromMask 300 9))] : List (Nat × Instr)),
    (decodeSlot .v false e.1).toOption = some ⟨false, 0, e.2⟩ := by decide +kernel

/-- M slot (R360). -/
theorem test_decode_stream : ∀ e ∈ ([
    (0x020A38400000000, .sgo true 2 3 (some 33)),
    (0x020880000000000, .sgo false 2 1 none),
    (0x040000000000010, .slen 16),
    (0x060000000000000, .sseed),
    (0x080000000000110, .smode .mxn8 .mxi8 false true false),
    (0x0A00000000003FE, .sref (-2)),
    (0x0C0280000000000, .sclr 0b1010),
    (0x0E0132118032C80, .sacc true 17 1025 2 400 300),
    (0x10003212C320000, .smarg 400 300 200),
    (0x120140000000000, .sdrain 0b0101),
    (0x140200000000000, .stest 3),
    (0x1603C0000000000, .sstop 0b1111),
    (0x180000000000646, .svmrg 6 200),
    (0x1A0080000000004, .spos 1 4),
    (0x1C0C00000000000, .slit (.hm 3)),
    (0x1C0000000000006, .slit (.n 5))] : List (Nat × Instr)),
    (decodeSlot .m false e.1).toOption = some ⟨false, 0, e.2⟩ := by decide +kernel

/-- L slot (R316, R324). -/
theorem test_decode_load : ∀ e ∈ ([
    (0x02083D3B93FFFF8, .ld (.a 30) .b4 true ⟨false, 19, -8, 11, .nas⟩),
    (0x02003D301DFFFF8, .ld (.s 30) .b8 false ⟨true, 19, -8, 0, .none⟩),
    (0x0406593BF1FFFF8, .ldv 300 .b128 ⟨false, 19, -8, 11, .byp⟩),
    (0x06003D3B43FFFF8, .lds (.s 30 .b1 true) ⟨false, 19, -8, 11, .nal⟩),
    (0x0606593B21FFFF8, .lds (.v 300 .b32) ⟨false, 19, -8, 11, .none⟩),
    (0x080659300CE0000, .ldg 300 .b2 ⟨true, 19, 7, 0, .none⟩),
    (0x0A07F330B1FFFF8, .ldx 9 .nas ⟨19, -8⟩),
    (0x0C083D3B1CA0050, .lda (.a 30) .b8 .sys 19 11 0xA005),
    (0x0E00013B41FFFF8, .pref 11 .nal ⟨19, -8⟩),
    (0x10083D3B17F0000, .waitaddr 30 .b4 19 127 11),
    (0x1200013BB11803E, .ldt ⟨false, 19, 17, .data 1025 30, 11, .nas⟩),
    (0x1200013037107E0, .ldt ⟨true, 19, 17, .band 63, 0, .none⟩),
    (0x1406580B0000000, .cbtake 300 11),
    (0x16003D3B11FFFF8, .rfetch 30 11 ⟨19, -8⟩)] : List (Nat × Instr)),
    (decodeSlot .l false e.1).toOption = some ⟨false, 0, e.2⟩ := by decide +kernel

/-- T slot (R327, R329, R332). -/
theorem test_decode_store : ∀ e ∈ ([
    (0x02083D300DFFFF8, .st (.a 30) .b2 ⟨true, 19, -8, 0, .none⟩),
    (0x02003D3BD9FFFF8, .st (.s 30) .b8 ⟨false, 19, -8, 11, .byp⟩),
    (0x0406593BA9FFFF8, .stv 300 .b64 ⟨false, 19, -8, 11, .nas⟩),
    (0x060659300DFFFFD, .sts 300 .b2 63 true 19 (-3) 0 .none),
    (0x0806593B58E0000, .stx 300 .b8 ⟨false, 19, 7, 11, .nal⟩),
    (0x0A003D3B02A0050, .strl (.s 30) .b1 .arc 19 11 0xA005),
    (0x0C0C013BB11803E, .stt ⟨false, 19, 17, .data 1025 30, 11, .nas⟩),
    (0x0E003D3B9CE0001, .atom .cas .b8 19 30 11 .nas (some 0x20001)),
    (0x0E003F3B1500000, .atom .fadd .b4 19 31 11 .none none),
    (0x10003D3BD380000, .red .maxn .b4 19 30 11 .byp),
    (0x120C013B11FFFF8, .rflush 11 ⟨19, -8⟩),
    (0x140C000001A0050, .fence false .chp 0xA005),
    (0x160C013B03FFF00, .cline .flush 11 ⟨19, -256⟩),
    (0x18003C000000000, .cbdone 30),
    (0x1A06593B2E18001, .hmsg 300 19 11 (some (33, 0x8001))),
    (0x1A06593B2800000, .hmsg 300 19 11 none)] : List (Nat × Instr)),
    (decodeSlot .t false e.1).toOption = some ⟨false, 0, e.2⟩ := by decide +kernel

/-- C slot (R338). -/
theorem test_decode_copy : ∀ e ∈ ([
    (0x020AF8700000000, .cpy ⟨true, 2, 11, .byp, some 33⟩),
    (0x040AF8700000000, .cpyc ⟨true, 2, 11, .byp, some 33⟩),
    (0x060AF8700000000, .cpyt ⟨true, 2, 11, .byp, some 33⟩),
    (0x080AF8700000000, .cpye ⟨true, 2, 11, .byp, some 33⟩),
    (0x0A0AE0194000000, .bind true .wr 9 2 11 .nas),
    (0x0C0008690000000, .unbind 9 (some 33)),
    (0x0E02C86000000AD, .reshape .cache 45 11 (some 33)),
    (0x10081010000002D, .stash true 45 2 .nal none),
    (0x1202C000000006D, .cwb true 45 11 none),
    (0x14000860000A005, .cqry 33 0xA005),
    (0x160808701000000, .rwin true 2 0x1000000 0 (some 33)),
    (0x1600000C0000000, .rwin false 0 0 3 none)] : List (Nat × Instr)),
    (decodeSlot .c false e.1).toOption = some ⟨false, 0, e.2⟩ := by decide +kernel

/-- Handler cores (R225, R226), and two base words. -/
theorem test_decode_handler : ∀ e ∈ ([
    (0x00060F8B, .slrd 31 12),
    (0x0196100B, .slwr 12 25),
    (0x00062F8B, .sllk 31 12),
    (0x0006300B, .slunlk 12),
    (0x02064F8B, .slfill true 31 12),
    (0x0006500B, .sldrop 12),
    (0x0006600B, .slwb 12),
    (0x11967F8B, .slamo .swap 31 12 25),
    (0x00060FAB, .slevt 31 12),
    (0x01961FAB, .slmsg 31 12 25),
    (0x0006202B, .slret 12),
    (0x00003FAB, .slbud 31),
    (0x00064FAB, .slnext false 31 12),
    (0x00065FAB, .slwait 31 12),
    (0x0196602B, .slage 12 25),
    (0x00067FAB, .slhas 31 12),
    (0x00C58533, .handlerBase (.full (.op .add 10 11 12))),
    (0xFFC12083, .handlerBase (.full (.load .lw 1 2 (-4))))] : List (Nat × Instr)),
    decodeHandler e.1 = some e.2 := by decide +kernel


/-! ## Small states -/

/-- A binding of launch 0 with two arrays, tiles, regions and galleys, 4 KiB of text, four livemap entries. -/
def bnd0 : Binding :=
  { Binding.none with
    launch := 1, handle := 5, gcount := 4, gen := 1, asid := 1, entry := 0, metaoff := 0x1000,
    textEnd := 0x1000, lmcount := 4, carr := 2, ctile := 2, creg := 2, cgal := 2, cbu := some 0 }

/-- Context 0 of cluster 0 with that binding. -/
def ctx0 : Ctx := { Ctx.reset with st := .ready, bnd := bnd0, bundle := 9 }

/-- The module with that context in issue, its Y slot at offset 0x400. -/
def on : State :=
  { State.reset.setCtx 0 0 ctx0 with cur := ⟨0, 0, .y, 0x400, 0x1000, 7, 10, false, true, .ran⟩, nextId := 3 }

/-- `on` with other registers, seen by the sources too. -/
def withB (f : Banks → Banks) : State :=
  { on.modMe fun x => { x with regs := f x.regs, shadow := f x.regs } with snap := f Banks.zero }

/-- `on` with a changed context. -/
def withC (f : Ctx → Ctx) : State := on.modMe f

/-- Operands of the scalar tables. -/
def sops : ScalarOps := ⟨1, 2, 3, 4, 0, .imm 1, 1, false, 0, 0, 0⟩

/-! ## Witnesses: the S slot -/

theorem hyps_ScalarResults : ∃ e ∈ scalarTable on sops,
    (∀ x ∈ e.2.srcs, (on.rdS x).psn = false) ∧ quiet on (.s e.2.dst) ∧ e.2.bound = 1 :=
  ⟨_, List.mem_of_getElem? (i := 0) rfl, by decide +kernel⟩

/-- The same for a product, whose bound is 3. -/
theorem hyps_ScalarResults_later : ∃ e ∈ scalarTable on sops,
    (∀ x ∈ e.2.srcs, (on.rdS x).psn = false) ∧ quiet on (.s e.2.dst) ∧ e.2.bound = 3 :=
  ⟨_, List.mem_of_getElem? (i := 3) rfl, by decide +kernel⟩

/-- An older product to s1 in flight. -/
def pendS1 : Pend := ⟨0, .s 1, 5, false, some 13, true, 0, none⟩

theorem hyps_ScalarOvertakes :
    let s := withC fun x => { x with pend := [pendS1] }
    ∃ e ∈ scalarTable s sops, e.2.bound = 1 ∧ (∀ x ∈ e.2.srcs, (s.rdS x).psn = false) ∧ pendS1 ∈ s.me.pend ∧
      pendS1.dst = .s e.2.dst ∧ ∀ q ∈ s.me.pend, q.dst = .s e.2.dst → ∃ d, q.due = some d ∧ s.cur.bno + 1 < d :=
  ⟨_, List.mem_of_getElem? (i := 0) rfl, by decide +kernel, by decide +kernel, by decide +kernel, by decide +kernel, fun q hq _ => by
    have h : (withC fun x => { x with pend := [pendS1] }).me.pend = [pendS1] := by decide +kernel
    obtain rfl : q = pendS1 := by simpa [h] using hq
    exact ⟨13, rfl, by decide +kernel⟩⟩

/-- s2 poisoned. -/
def poisoned2 : State := withB fun b => { b with s := [(2, ⟨7, true⟩)] }

theorem hyps_Comparisons :
    (∃ e ∈ compareTable on 1 .lt 2 3 5, ∀ x ∈ e.2.2.2, (on.rdS x).psn = false) ∧
    ∃ e ∈ compareTable poisoned2 1 .lt 2 3 5, ∃ x ∈ e.2.2.2, (poisoned2.rdS x).psn = true :=
  ⟨⟨_, List.mem_of_getElem? (i := 0) rfl, by decide +kernel⟩, _, List.mem_of_getElem? (i := 1) rfl, 2, by decide +kernel⟩

theorem hyps_Transfers :
    (∃ e ∈ transferTable on 1 2 3 4 5 0x0DF, e.2.1 ∧ quiet on e.2.2.1) ∧
    (on.galley? 4 = none ∧ (on.rdV 4).psn = false) ∧ (0x0C0 ≤ (0x0C1 : Nat) ∧ (0x0C1 : Nat) ≤ 0x0DF → 0x0C1 - 0x0C0 < on.me.bnd.ctile) :=
  ⟨⟨_, List.mem_of_getElem? (i := 0) rfl, by decide +kernel, by decide +kernel⟩, by decide +kernel, by decide +kernel⟩

/-- Five galleys: g0 for reading with an entry, g1 for writing with room, g2 for writing and full, g3 for reading and at its
end, g4 for LDX with an entry owed; s2 and v9 poisoned, data in v1 to v3. -/
def aGalley (k : BindKind) (q : List (Nat × Option VWord)) : Galley := ⟨0, k, ⟨0, 0, 4, 40, 1, 1, 0, 0, 0⟩, 40, q, 0, .none, 0, 0⟩
def galleyS : State :=
  let s := withB fun b => { b with s := [(2, ⟨7, true⟩), (3, ⟨9, false⟩)],
                                   v := [(1, ⟨0xFFFF, false⟩), (2, ⟨1, false⟩), (3, ⟨5, false⟩), (9, ⟨0, true⟩)] }
  (s.modMe fun x => { x with bnd := { x.bnd with cgal := 5 } }).modCc fun c =>
    { c with galleys := [(0, aGalley .rd [(1, some 0xABC)]), (1, aGalley .wr [(1, none)]), (2, aGalley .wr (List.replicate 8 (1, none))),
                         (3, aGalley .rd []), (4, aGalley .ldx [(1, none)])] }

theorem hyps_LaneInsert :
    (on.galley? 300 = none ∧ (on.rdS 2).psn = false ∧ quiet on (.v 300)) ∧
    (∀ g ∈ ([0, 1, 2, 3, 4] : List Nat), (galleyS.galley? (.ofNat 9 (496 + g))).isSome = true) ∧
    (popTrap galleyS 496 = none ∧ ¬popWaits galleyS 496 ∧ (galleyS.galley? 496 = none → (galleyS.rdV 496).psn = false) ∧
      quiet galleyS (.s 3)) ∧
    popTrap galleyS 497 = some 2 ∧ popTrap galleyS 499 = some 0 ∧ (popTrap galleyS 500 = none ∧ popWaits galleyS 500) ∧
    (galleyS.rdS 3).psn = false ∧ (galleyS.rdS 2).psn = true := by
  refine ⟨by decide +kernel, by decide +kernel, ⟨by decide +kernel, fun h => ?_, by decide +kernel, by decide +kernel⟩, by decide +kernel,
    by decide +kernel, ⟨by decide +kernel, ?_⟩, by decide +kernel, by decide +kernel⟩
  · have h0 : galleyS.galley? 496 = some (0, aGalley .rd [(1, some 0xABC)]) := by decide +kernel
    unfold popWaits at h
    rw [h0] at h
    simp [headOf, aGalley] at h
  · have h4 : galleyS.galley? 500 = some (4, aGalley .ldx [(1, none)]) := by decide +kernel
    unfold popWaits
    rw [h4]
    simp [headOf, aGalley]

theorem hyps_ControlWrites :
    ((on.rdS 2).psn = false ∧ mtcMayWrite on 0x095 ∧ quiet on (.creg 0x095)) ∧ mtcMayWrite on 0x0C1 ∧ (poisoned2.rdS 2).psn = true ∧
    ((on.rdS 2).psn = false ∧ (0x100 : BitVec 12).toNat ∈ [0x000, 0x001, 0x002, 0x003, 0x004, 0x005, 0x006, 0x020, 0x022, 0x030,
      0x031, 0x032, 0x040, 0x044, 0x045, 0x086, 0x100]) ∧ (cregAssigned 0x043 = true ∧ ¬mtcMayWrite on 0x043) := by
  unfold mtcMayWrite; decide +kernel

/-! ## Witnesses: the Y slot -/

/-- A mask of ones in k1, another of one bit in k2. -/
def masks : State := withB fun b => { b with k := [(1, 0xFFFFFFFF), (2, 4)], z := [(1, 0x180)] }

theorem hyps_ConditionalBranches :
    (∃ e ∈ branchTable masks ⟨0, -16⟩ .any 1 .all 1 2 3, e.2.1 ∧ e.2.2 ∧ inText masks (targetPc masks ⟨0, -16⟩)) ∧
    (∃ e ∈ branchTable masks ⟨0, -17⟩ .any 1 .all 1 2 3, e.2.1 ∧ e.2.2 ∧ ¬inText masks (targetPc masks ⟨0, -17⟩)) ∧
    (∃ e ∈ branchTable masks ⟨0, 0⟩ .none 1 .all 1 2 3, e.2.1 ∧ ¬e.2.2) ∧
    (∃ e ∈ branchTable masks ⟨0, 0⟩ .any 1 .all 1 2 3, e.1 = .brv .all 1 ⟨0, 0⟩ ∧ e.2.1 ∧ e.2.2) ∧
    ∃ e ∈ branchTable poisoned2 ⟨0, 0⟩ .any 1 .all 1 2 3, e.1 = .chk (.s 2) ⟨0, 0⟩ ∧ e.2.1 ∧ e.2.2 :=
  ⟨⟨_, List.mem_of_getElem? (i := 0) rfl, trivial, trivial, by decide +kernel⟩,
   ⟨_, List.mem_of_getElem? (i := 0) rfl, trivial, trivial, by decide +kernel⟩,
   ⟨_, List.mem_of_getElem? (i := 1) rfl, trivial, by show ¬(_ = true); decide +kernel⟩,
   ⟨_, List.mem_of_getElem? (i := 2) rfl, rfl, by decide +kernel, by show _ = _; decide +kernel⟩,
   _, List.mem_of_getElem? (i := 3) rfl, rfl, trivial, by decide +kernel⟩

theorem hyps_MaskBranches :
    (masks.rdK 1 = 0xFFFFFFFF ∧ inText masks (targetPc masks ⟨0, 47⟩)) ∧ (masks.rdK 3 = 0 ∧ inText masks (targetPc masks ⟨0, 0⟩)) ∧
    masks.rdK 2 ≠ 0xFFFFFFFF ∧ masks.rdK 2 ≠ 0 := by decide +kernel

/-- l1 holds a link to bundle 63, l2 one with a low bit; counts in l0 to l3 otherwise 0. -/
def links : State := withB fun b => { b with l := [(1, 0x20000000FC0), (2, 0xFC1), (3, 1)] }

theorem hyps_LinkBranches :
    ((links.rdL 1).toNat % 64 = 0 ∧ inText links (linkOff (links.rdL 1)) ∧ quiet links (.l 3)) ∧
    ¬((links.rdL 2).toNat % 64 = 0 ∧ inText links (linkOff (links.rdL 2))) ∧
    (inText links (targetPc links ⟨0, 1⟩) ∧ quiet links (.l 3)) := by decide +kernel

theorem hyps_CountedLoops :
    quiet links (.l 0) ∧ (links.rdL 0).toNat = 0 ∧ (links.rdL 3).toNat = 1 ∧ 1 < (links.rdL 1).toNat ∧
    inText links (targetPc links ⟨0, 0⟩) := by decide +kernel

theorem hyps_FlagsAndWaits :
    let s := withB fun b => { b with f := 8 }
    (∀ g ∈ ([3, 3, 3, 3, 3, 3, 3, 3] : List FReg), s.me.regs.f.getLsbD g.toNat = true) ∧
    ∃ g ∈ ([3, 4, 3, 3, 3, 3, 3, 3] : List FReg), s.me.regs.f.getLsbD g.toNat = false :=
  ⟨by decide +kernel, 4, by decide, by decide +kernel⟩

/-- A bundle in issue that still has its S and M slots to come. -/
def inIssue : State := { on with slots := [⟨false, 0, .nop 0⟩, ⟨false, 0, .sseed⟩], slotNos := [.s, .m] }

theorem hyps_SlotWaits : inIssue.slots.length = inIssue.slotNos.length ∧ SlotNo.m ∈ inIssue.slotNos := by decide +kernel

theorem hyps_Marks :
    (on.me.trapm = false ∧ (3 : BitVec 16).toNat < on.me.bnd.lmcount ∧ mayRelease on true ∧ on.me.preempt = false) ∧
    (let s := withC fun x => { x with preempt := true }
     s.me.trapm = false ∧ mayRelease s true ∧ s.me.preempt = true) ∧
    (withC fun x => { x with trapm := true }).me.trapm = true ∧ on.me.bnd.lmcount ≤ (4 : BitVec 16).toNat := by decide +kernel

/-- `on` in a span launch at level 5, with a message of 128 bytes from module 0 in channel 1. -/
def span5 : State :=
  (withB fun b => { b with dom := 5, l := [(1, 0x80)] }).modForme fun f =>
    { f with chans := [(1, [⟨5, 0, 1, List.replicate 128 9⟩])], nmod := 2 }

/-- Held writes of `on`: to local store, to device memory, and one still to be translated. -/
def holding : State :=
  let a := { on.newAcc .store 0 2 0 .none with st := .held, data := [5, 6] }
  { on with accs := [{ a with id := 1, loc := true, tr := .ok 0x100 3 }, { a with id := 2, tr := .ok 0x200 0 }, { a with id := 4, cls := 1 }] }

def heldS : List Access := holding.accs.filter fun a => a.heldBy 0 0

theorem hyps_ReleaseEmpties_sends :
    holding.accs.Pairwise (fun a b => a.id < b.id) ∧ heldS.length = 3 ∧
    (∀ a ∈ heldS, holding.plainLocal a = true → a.loc = true ∧ a.op = .store) ∧
    (∀ b ∈ heldS, b.loc = true → holding.plainLocal b = true) ∧
    (∀ a ∈ heldS, holding.plainLocal a = true → ∀ b ∈ holding.accs, b.id < a.id → b.eng = 0 → b.sameCtx a = true → b.op ≠ .fence →
      (b.heldBy 0 0 = true ∧ holding.plainLocal b = true) ∨ b.over = true ∨ holding.follows a b = false) := by
  refine ⟨by decide +kernel, by decide +kernel, by decide +kernel, by decide +kernel, fun a ha hp b hb h1 _ _ _ => ?_⟩
  have h : ∀ a ∈ heldS, holding.plainLocal a = true → a.id = 1 := by decide +kernel
  have h' : ∀ b ∈ holding.accs, ¬b.id < 1 := by decide +kernel
  exact absurd (h a ha hp ▸ h1) (h' b hb)

/-- A fault of issue 2 that a release point takes, another that only a MARK takes, a handler in the text. -/
def aFault (pager : Option Nat) : Defer := ⟨0xE0000020, 5, false, 2, pager, false⟩
def faulty (pager : Option Nat) (nr : Bool) : State :=
  withC fun x => { x with defer := [⟨0xC0000025, 6, true, 3, none, false⟩, aFault pager], nr := nr, lost := true, tvec := 0x3C0 }

theorem hyps_ReleaseEmpties_faults :
    (∀ nr : Bool, ∀ p ∈ [none, some 3], ∀ b : Bool,
      let s := faulty p nr
      s.untranslated = false ∧ s.me.trapm = false ∧ s.me.nr = nr ∧ s.me.wait = .none ∧ (3 : BitVec 16).toNat < s.me.bnd.lmcount ∧
      (1 : BitVec 24).toNat < s.me.bnd.gcount ∧ aFault p ∈ s.me.defer ∧ s.me.bnd.entry ≤ s.me.tvec.toNat / 64 % 2 ^ 34 * 64 ∧
      s.me.tvec.toNat / 64 % 2 ^ 34 * 64 < s.me.bnd.textEnd ∧ s.me.tvec.toNat / 64 % 2 ^ 34 ≠ 0 ∧
      ∀ d' ∈ s.me.defer, (b = true ∨ d'.dest = false ∨ d'.due = true) → d' = aFault p ∨ (aFault p).ord < d'.ord) ∧
    (let s := { span5.modMe (fun x => { x with defer := [aFault none] }) with
       accs := [{ span5.newAcc .store 0 8 0 .none with id := 1 }] }
     s.untranslated = true ∧ spanCheck 1 1 0 s = none ∧ sendStall s = false ∧ (5 : BitVec 3).toNat ≤ s.me.regs.dom.toNat) := by
  decide +kernel

theorem hyps_Exits : on.me.wait = .none ∧ on.me.defer = [] ∧ mayRelease on false := by decide +kernel

theorem hyps_TrapEntries :
    (let s := withC fun x => { x with tvec := 0x3C0 }
     s.me.nr = false ∧ s.me.trapm = false ∧ s.me.bnd.entry ≤ s.me.tvec.toNat / 64 % 2 ^ 34 * 64 ∧
      s.me.tvec.toNat / 64 % 2 ^ 34 * 64 < s.me.bnd.textEnd ∧ s.me.tvec.toNat / 64 % 2 ^ 34 ≠ 0) ∧
    (withC fun x => { x with nr := true }).me.nr = true ∧
    (∀ s ∈ [withC fun x => { x with tvec := 0x3C0, trapm := true }, on, withC fun x => { x with tvec := 0x1000 }],
      s.me.nr = false ∧ (s.me.trapm = true ∨ s.me.tvec.toNat / 64 % 2 ^ 34 = 0 ∨ s.me.tvec.toNat / 64 % 2 ^ 34 * 64 < s.me.bnd.entry ∨
        s.me.bnd.textEnd ≤ s.me.tvec.toNat / 64 % 2 ^ 34 * 64)) ∧
    (⟨0x0017, some SlotNo.y, 0, some 5⟩ : Trap).cause < 2 ^ 16 := by decide +kernel

theorem hyps_TrapReturn :
    let s := withC fun x => { x with trapm := true, erpc := 0x3C0 }
    let t := withC fun x => { x with trapm := true, erpc := 0x1000 }
    (s.me.trapm = true ∧ s.view.erpc.toNat % 64 = 0 ∧ inText s s.view.erpc.toNat) ∧ on.me.trapm = false ∧
    (t.me.trapm = true ∧ ¬(t.view.erpc.toNat % 64 = 0 ∧ inText t t.view.erpc.toNat)) := by decide +kernel

/-- `span5` with a store under way. -/
def stored5 : State := { span5 with accs := [{ span5.newAcc .store 0 8 0 .none with id := 1, st := .sent, tr := .ok 0 0 }] }

theorem hyps_Synchronisations :
    ((1 : BitVec 24).toNat < on.me.bnd.gcount ∧ mayRelease on false) ∧
    ((5 : BitVec 3).toNat ≤ span5.me.regs.dom.toNat ∧ (5 : BitVec 3) ≠ 0 ∧ mayRelease span5 false ∧
      (let r := span5.release span5.cur.cl.toNat span5.cur.ctx.toNat
       r.allPerformed span5.cur.cl.toNat span5.cur.ctx.toNat r.nextId span5.me.bnd 4 = true) ∧
      let s := stored5
      mayRelease s false ∧ s.me.wait = .none ∧
      (let r := s.release s.cur.cl.toNat s.cur.ctx.toNat
       r.allPerformed s.cur.cl.toNat s.cur.ctx.toNat r.nextId s.me.bnd 4 = false)) ∧
    (spanCheck 1 1 0 span5 = none ∧ sendStall span5 = false) ∧
    (spanCheck 0 1 0 span5 = none ∧ span5.oldest 0 1 = some ⟨5, 0, 1, List.replicate 128 9⟩ ∧ span5.cc.rsbFree 1 = true ∧
      span5.cc.rangeBusy 1 (span5.physLocal (span5.rdL 1).toNat) (span5.physLocal (span5.rdL 1).toNat + 128 * 1)
        span5.nextId false = false) ∧
    (on.me.regs.dom.toNat < (1 : BitVec 3).toNat ∧ on.me.bnd.gcount ≤ (4 : BitVec 24).toNat ∧ on.me.regs.dom.toNat < 5) := by
  decide +kernel

/-! ## Witnesses: the V slots -/

/-- Operands of the vector tables: v4 := op(v1, v2, v3) under k0. -/
def vops : VecOps :=
  { f := ⟨.w16, true, true⟩, w := .w8, n := false, sat := true, vd := 4, va := 1, vb := 2, vc := 3, k := 0, kn := 1, kd := 2,
    amt := .imm 3, idx := 5, tt := 0x96, t4 := 6, neg := true, agg := true, part := 1, bit := 1, pw := .w16, t := .f16,
    rm := .rd, form := .nm, dt := .f16, st := .f32, toFloat := true, cc := .ltn, fc := .lt, zd := 1 }

/-- v1 to v3 hold data; v9 is poisoned. -/
def vecs : State := withB fun b =>
  { b with v := [(1, ⟨0xFFFF, false⟩), (2, ⟨1, false⟩), (3, ⟨5, false⟩), (9, ⟨0, true⟩)], k := [(1, 4)] }

theorem hyps_VectorResults : ∀ e ∈ vecTable vecs vops, e.1.wf = true ∧ (∀ v ∈ e.2.srcs, plainV vecs v) ∧
    vecs.galley? e.2.vd = none ∧ (e.2.old = true → (vecs.rdV e.2.vd).psn = false) ∧ quiet vecs (.v e.2.vd) := by decide +kernel

theorem hyps_FloatResults : ∀ e ∈ fpTable vecs vops, e.1.wf = true ∧ (∀ v ∈ e.2.srcs, plainV vecs v) ∧
    vecs.galley? e.2.vd = none ∧ (e.2.old = true → (vecs.rdV e.2.vd).psn = false) ∧ quiet vecs (.v e.2.vd) := by decide +kernel

theorem hyps_Poison :
    (∃ e ∈ scalarTable poisoned2 sops, (∃ x ∈ e.2.srcs, (poisoned2.rdS x).psn = true) ∧ quiet poisoned2 (.s e.2.dst)) ∧
    ∃ e ∈ vecTable vecs { vops with va := 9 } ++ fpTable vecs { vops with va := 9 },
      (∀ v ∈ e.2.srcs, vecs.galley? v = none) ∧ vecs.galley? e.2.vd = none ∧
      (∃ v ∈ e.2.srcs, (vecs.rdV v).psn = true) ∧ quiet vecs (.v e.2.vd) :=
  ⟨⟨_, List.mem_of_getElem? (i := 0) rfl, ⟨2, by decide +kernel⟩, by decide +kernel⟩,
   _, List.mem_of_getElem? (i := 0) rfl, by decide +kernel, by decide +kernel, ⟨9, by decide +kernel⟩, by decide +kernel⟩

theorem hyps_Poison_moves :
    (galleyS.rdS 2).psn = true ∧ galleyS.galley? 4 = none ∧ quiet galleyS (.v 4) ∧
    (galleyS.galley? 9 = none ∧ (galleyS.rdV 9).psn = true ∧ quiet galleyS (.s 3)) ∧
    ((4 : VReg) ≠ 3 ∧ (∀ v ∈ ([4, 9, 3] : List VReg), galleyS.galley? v = none) ∧ quiet galleyS (.v 4) ∧ quiet galleyS (.v 3)) := by
  decide +kernel

/-- The additions of `galleyTraps` and `galleyResults`: from g0 to v4, from v1 to g1; and those that trap or wait. -/
theorem hyps_Poison_galleys :
    (∀ o ∈ [{ vops with va := 496 }, { vops with vd := 497 }], ∃ e ∈ vecTable (operands galleyS [o.va, o.vb] o.vd) o,
      e.1.wf = true ∧ e.2.srcs = [o.va, o.vb] ∧ e.2.vd = o.vd ∧ (e.2.old = true → (galleyS.rdV o.vd).psn = false) ∧
      quiet galleyS (.v o.vd)) ∧
    (∀ v ∈ ([496, 1, 2] : List VReg), popTrap galleyS v = none ∧ (∀ g, galleyS.galley? v = some g → (headOf g.2).isSome = true ∧ g.2.kind = .rd) ∧
      (galleyS.galley? v = none → (galleyS.rdV v).psn = false)) ∧
    galleyS.galley? 497 = some (1, aGalley .wr [(1, none)]) ∧ galleyS.galley? 4 = none ∧
    (∃ e ∈ vecTable galleyS { vops with va := 497 }, e.2.srcs = [] ++ 497 :: [2] ∧ popTrap galleyS 497 = some 2) ∧
    (∃ e ∈ vecTable galleyS { vops with va := 9, vd := 497 }, e.2.srcs = [] ++ 9 :: [2] ∧ e.2.vd = 497 ∧
      popTrap galleyS 9 = none ∧ galleyS.galley? 9 = none ∧ (galleyS.rdV 9).psn = true) ∧
    (∃ e ∈ vecTable galleyS { vops with vd := 496 }, e.2.vd = 496 ∧ galleyS.galley? 496 = some (0, aGalley .rd [(1, some 0xABC)])) ∧
    (∃ e ∈ vecTable galleyS { vops with vd := 498 }, e.2.vd = 498 ∧ 8 ≤ (aGalley .wr (List.replicate 8 (1, none))).q.length) ∧
    ∃ e ∈ vecTable galleyS { vops with va := 500 }, (500 : VReg) ∈ e.2.srcs ∧ popTrap galleyS 500 = none := by
  refine ⟨fun o ho => ⟨_, List.mem_of_getElem? (i := 0) rfl, ?_⟩, fun v hv => ?_, by decide +kernel, by decide +kernel,
    ⟨_, List.mem_of_getElem? (i := 0) rfl, by decide +kernel⟩, ⟨_, List.mem_of_getElem? (i := 0) rfl, by decide +kernel⟩,
    ⟨_, List.mem_of_getElem? (i := 0) rfl, by decide +kernel⟩, ⟨_, List.mem_of_getElem? (i := 0) rfl, by decide +kernel⟩,
    _, List.mem_of_getElem? (i := 0) rfl, by decide +kernel⟩
  · simp only [List.mem_cons, List.not_mem_nil, or_false] at ho
    rcases ho with rfl | rfl <;> decide +kernel
  · refine ⟨?_, fun g hg => ?_, ?_⟩
    · revert v; decide +kernel
    · simp only [List.mem_cons, List.not_mem_nil, or_false] at hv
      rcases hv with rfl | rfl | rfl
      · have h0 : galleyS.galley? 496 = some (0, aGalley .rd [(1, some 0xABC)]) := by decide +kernel
        obtain rfl : (0, aGalley .rd [(1, some 0xABC)]) = g := Option.some.inj (h0.symm.trans hg)
        decide +kernel
      · have h1 : galleyS.galley? 1 = none := by decide +kernel
        exact absurd (h1.symm.trans hg) (by simp)
      · have h2 : galleyS.galley? 2 = none := by decide +kernel
        exact absurd (h2.symm.trans hg) (by simp)
    · revert v; decide +kernel

theorem hyps_MasksAndSummaries :
    (∀ e ∈ maskTable vecs vops, (∀ v ∈ e.2.srcs, plainV vecs v) ∧ quiet vecs (.k e.2.kd)) ∧ quiet vecs (.z 1) ∧
    plainV vecs 1 := by
  refine ⟨fun e he => ?_, by decide +kernel⟩
  simp only [maskTable, List.mem_cons, List.not_mem_nil, or_false] at he
  rcases he with rfl | rfl | rfl | rfl <;> decide +kernel

theorem hyps_Reductions : plainV vecs 1 ∧ vecs.galley? 4 = none ∧ quiet vecs (.v 4) := by decide +kernel

theorem hyps_BlockConversions : (Instr.vcvtx true .f32 .mxi8 .rne 4 1 2 3).wf = true ∧ plainV vecs 1 ∧ plainV vecs 2 ∧
    plainV vecs 4 ∧ quiet vecs (.v 4) ∧ quiet vecs (.v 2) := by decide +kernel

/-- 1.5 lies from 2^0 to 2^1, and of the values 1.5, −1 and zeros 2^0 is the greatest power below; patterns of bf16. -/
theorem hyps_FormatArithmetic :
    arith .bf16 ∧ (0x3FC0 : Nat) < 2 ^ Fmt.bf16.width ∧ ((2 : Rat) ^ (0 : Int) ≤ (patVal .bf16 0x3FC0).abs ∧
      (patVal .bf16 0x3FC0).abs < (2 : Rat) ^ ((0 : Int) + 1)) ∧ Fmt.f32 ≠ Fmt.e4m3 ∧
    (let vs := [0x3FC0, 0xBF80, 0, 0x8000]
     vs.length = 4 ∧ (∀ v ∈ vs, v < 2 ^ Fmt.bf16.width) ∧ (∀ v ∈ vs, patNan .bf16 v = false ∧ patInf .bf16 v = false) ∧
      (∀ v ∈ vs, (patVal .bf16 v).abs < (2 : Rat) ^ ((0 : Int) + 1)) ∧ ∃ v ∈ vs, (2 : Rat) ^ (0 : Int) ≤ (patVal .bf16 v).abs) ∧
    (∃ v ∈ [0x7F80, 0, 0, 0], patNan .bf16 v = true ∨ patInf .bf16 v = true) ∧ (∀ v ∈ [0, 0, 0x8000, 0], patVal .bf16 v = 0) ∧
    (127 : Nat) < 256 ∧ ([none, some 3] : List (Option Nat)).length ≤ 64 := by decide +kernel

/-- Tile 1 with 8 rows of 64 elements of 8 bits and their bands, tile 0 with 8 rows of 32 bf16 elements. -/
def tiled : State := withB fun b => { b with tshape := [(0, 0x2000381F), (1, 0x5000383F)], a := [(1, 0x100)] }

theorem hyps_TileMoves :
    (∀ e ∈ ([(.plain, 1, 63), (.band, 1, 63), (.bf16, 0, 31)] : List (TileCv × TileNo × BitVec 11)),
      let h := shapeOf (tiled.rdShape e.2.1.toNat)
      (tiled.moveCheck e.1 e.2.1 7 0 false = none ∧ tiled.segBusy e.2.1 (h.segRanges e.1 false 7 0) false = false) ∧
      (e.1 ≠ .band → tiled.moveCheck e.1 e.2.1 e.2.2 0 true = none ∧
        tiled.segBusy e.2.1 (h.segRanges e.1 true e.2.2.toNat 0) true = false)) ∧
    (let s := withB fun b => { b with tshape := [(1, 0xD000383F)] }
     let h := shapeOf (s.rdShape 1)
     s.moveCheck .band 1 63 0 true = none ∧ s.segBusy 1 (h.segRanges .band true 63 0) true = false) ∧
    plainV tiled 3 ∧ quiet tiled (.v 3) := by decide +kernel

/-! ## Witnesses: the M slot -/

theorem hyps_StreamRegisters : ∀ x ∈ streamTable on 6 .mxi8 .mxn8 true false true 0 1 2 3 4 5 1 2,
    quiet on (.creg (.ofNat 12 x.2.1)) := by
  intro x hx
  simp only [streamTable, List.mem_cons, List.not_mem_nil, or_false] at hx
  rcases hx with rfl | rfl | rfl | rfl | rfl | rfl | rfl | rfl <;> decide +kernel
/-- A context with tiles 0 and 1 in the shapes of the A and B operands, hm0 and a walk of one k-step at level 0. -/
def nesty : State := withB fun b =>
  { b with tshape := [(0, 0x5000383F), (1, 0xD001F80F)], hm := [(0, 0x0040000000000000)], n := [(0, 1)],
           hmSh := [(0, 0x0040000000000000)], nSh := [(0, 1)], slen := 6 }

theorem hyps_StreamIssue :
    (sgoSwapWait false nesty = false ∧ sgoCheck false 0 1 nesty = none ∧ sgoStall false 0 nesty = false ∧ sgoEnergy nesty = false) ∧
    (sgoSwapWait true nesty = false ∧ sgoCheck true 0 1 nesty = none ∧ sgoStall true 0 nesty = false) ∧
    (sgoSwapWait false on = false ∧ on.me.bnd.carr ≤ (2 : PlaneNo).toNat) := by decide +kernel

/-- Tile 0 of 8 rows of 32 FP32 elements. -/
def ftile : State := withB fun b => { b with tshape := [(0, 0x3000381F)] }

/-- An SCLR of context 0 queued at its plane 1. -/
def opQueued : State := on.modCc fun c => { c with planes := [(1, { Plane.reset with queue := [.sclr 0 0] })] }

theorem hyps_PlaneOperations :
    ((∀ n ∈ planes 3, unowned on n) ∧ on.queuedOps + (planes 3).length ≤ 8) ∧
    (let h := shapeOf (ftile.rdShape 0)
     let lo := ftile.physTile 0 * 0xA000 + 7 * h.cols * 4
     unowned ftile 1 ∧ (0 : TileNo).toNat < ftile.me.bnd.ctile ∧ h.ok = true ∧ h.w = 32 ∧ 7 < h.rows ∧ ftile.queuedOps < 8 ∧
      ftile.cc.rsbFree 1 = true ∧ ftile.cc.rangeBusy 2 lo (lo + 32 * 4) ftile.nextId false = false) ∧
    ((∀ n ∈ planes 3, n < on.me.bnd.carr ∧ (on.planeOf n).owner = none ∧ ∀ o ∈ (on.planeOf n).queue, o.ctx ≠ on.cur.ctx.toNat) ∧
      ∃ o ∈ (opQueued.planeOf 1).queue, o.ctx = opQueued.cur.ctx.toNat) ∧
    (1 : PlaneNo).toNat < on.me.bnd.carr := by
  refine ⟨by decide +kernel, by decide +kernel, ⟨by decide +kernel, .sclr 0 0, by decide +kernel, by decide +kernel⟩, by decide +kernel⟩

/-! ## Witnesses: the L and T slots -/

/-- `on` with a1 = 0x100, a2 = 1 and local bytes in claimed region 0. -/
def mem0 : State := withB fun b => { b with a := [(1, 0x100), (2, 0x20), (3, 0x101), (4, 0x40000)], v := [(9, ⟨0, true⟩)] }

theorem hyps_LocalLoads :
    ∃ e ∈ loadTable (.s 5) 6 7 .b8 .b32 true ⟨true, 1, 0, 0, .none⟩, e.1.wf = true ∧
    let ea := farEa mem0 1 0
    ea % e.2.2.1 = 0 ∧ mem0.me.bnd.localOk ea e.2.2.1 = true ∧ mem0.galley? 7 = none ∧
    serveOf mem0 true ea e.2.2.1 .none 0 = .here 0x100 ∧ mem0.cc.rangeBusy 1 0x100 (0x100 + e.2.2.1) mem0.nextId true = false ∧
    mem0.locPoisoned mem0.cur.cl.toNat 1 0x100 e.2.2.1 = false ∧ nothingHeld mem0 ∧
    (∀ e ∈ mem0.forme.broken, e.1 ≠ mem0.me.bnd.launch) ∧ quiet mem0 e.2.1 :=
  ⟨_, List.mem_of_getElem? (i := 1) rfl, by decide +kernel⟩

/-- Operands of the table of checks. -/
def mops : MemOps :=
  ⟨.s 2, 3, 4, 5, 1, .b8, .b64, .b8, false, ⟨true, 1, 0, 0, .none⟩, ⟨true, 1, 2, 0, .none⟩, ⟨true, 1, 1, .data 1 0, 0, .none⟩, ⟨1, 0⟩, 1, 0, 0, 0,
    .none, .clu, 1, 1, .cas, .clean, 0x10, 1, 3⟩

/-- Rows of the table whose first failing check is alignment, a local claim, poison, a galley, the full buffer, an area, a tile. -/
theorem hyps_AccessTraps :
    (∃ e ∈ memChecks mem0 { mops with a := ⟨true, 3, 0, 0, .none⟩ }, ∃ c post, e.2 = [] ++ c :: post ∧ c.1) ∧
    (∃ e ∈ memChecks mem0 { mops with a := ⟨true, 4, 0, 0, .none⟩ }, ∃ b c post, e.2 = [b] ++ c :: post ∧ ¬b.1 ∧ c.1) ∧
    (∃ e ∈ memChecks mem0 { mops with v := 9 }, ∃ pre c post, e.2 = pre ++ c :: post ∧ e.1 = .stv 9 .b64 mops.a ∧
      pre.length = 2 ∧ (∀ x ∈ pre, ¬x.1) ∧ c.1) ∧
    (∃ e ∈ memChecks { mem0 with accs := List.replicate 256 { mem0.newAcc .load 0 8 0 .none with st := .held } } mops,
      ∃ pre c, e.2 = pre ++ c :: [] ∧ pre.length = 1 ∧ (∀ x ∈ pre, ¬x.1) ∧ c.1) ∧
    (∃ e ∈ memChecks mem0 { mops with area := 0x8000 }, ∃ c post, e.2 = [] ++ c :: post ∧ c.1) ∧
    (farEa mem0 3 0 % SW.b8.bytes ≠ 0 ∧ quiet mem0 (.s 6) ∧ mem0.galley? 4 = none ∧ quiet mem0 (.v 4)) := by
  refine ⟨⟨_, List.mem_of_getElem? (i := 0) rfl, _, _, rfl, ?_⟩, ⟨_, List.mem_of_getElem? (i := 0) rfl, _, _, _, rfl, ?_, ?_⟩,
    ⟨_, List.mem_of_getElem? (i := 11) rfl, [_, _], _, _, rfl, rfl, rfl, ?_, ?_⟩,
    ⟨_, List.mem_of_getElem? (i := 19) rfl, [_], _, rfl, rfl, ?_, ?_⟩, ⟨_, List.mem_of_getElem? (i := 23) rfl, _, _, rfl, ?_⟩, by decide +kernel⟩ <;>
    simp only [aligned, claimed, bufferFree, areaOk, List.mem_cons, List.not_mem_nil, or_false, forall_eq_or_imp, forall_eq] <;>
    decide +kernel

/-- `mem0` with no translation at hand: every page is walked for. -/
theorem hyps_FarLoads :
    ∀ e ∈ farTable mem0 (.a 5) 6 7 .b8 .b64 true 1 0x100 3 .byp .sys 8,
    e.2.2.1 % e.2.2.2.1 = 0 ∧ mem0.galley? 7 = none ∧ mem0.serveFar e.2.2.1 e.2.2.2.1 false e.2.2.2.2.2 3 = .far ∧
    mem0.requestsFree 1 = true ∧ mem0.tlbLookup mem0.cur.cl.toNat mem0.me.bnd.asid e.2.2.1 .read = .pending ∧
    quiet mem0 e.2.1 := by decide +kernel

theorem hyps_HeldWrites :
    (∀ loc : Bool, ∀ e ∈ storeTable mem0 (.a 5) 7 .b8 .b64 3 0x80 ⟨loc, 1, 0x100, if loc then 0 else 3, .none⟩, e.1.wf = true ∧ e.2.1 ∧
      e.2.2.1 % e.2.2.2.1.length = 0 ∧ (e.2.2.2.2 = true → mem0.me.bnd.localOk e.2.2.1 e.2.2.2.1.length = true) ∧
      mem0.heldCount mem0.cur.cl.toNat mem0.cur.ctx.toNat < 256 ∧
      mem0.storeWait e.2.2.1 e.2.2.2.1.length e.2.2.2.2 = .go ∧
      mem0.tlbLookup mem0.cur.cl.toNat mem0.me.bnd.asid e.2.2.1 .write = .pending) ∧
    ∀ e ∈ heldTable mem0 2 4 0x10 .b8 .b8 .cas 1 0x100 3 .byp .sys 8, e.2.1 ∧ e.2.2.1 % e.2.2.2.1 = 0 ∧
      mem0.heldCount mem0.cur.cl.toNat mem0.cur.ctx.toNat < 256 ∧
      mem0.tlbLookup mem0.cur.cl.toNat mem0.me.bnd.asid e.2.2.1 e.2.2.2.2.2 = .pending := by
  constructor
  · intro loc e he
    simp only [storeTable, List.mem_cons, List.not_mem_nil, or_false] at he
    cases loc <;> rcases he with rfl | rfl | rfl | rfl <;> decide +kernel
  · intro e he
    simp only [heldTable, List.mem_cons, List.not_mem_nil, or_false] at he
    rcases he with rfl | rfl | rfl | rfl | rfl | rfl | rfl | rfl <;> decide +kernel

theorem hyps_GatherScatter :
    let at' (e : Nat) : Nat := ((mem0.rdA 1).toNat + e * (mem0.rdA 2).toNat) % 2 ^ 64
    (∀ e < 128 / SW.b4.bytes, at' e % 4 = 0 ∧ mem0.me.bnd.localOk (at' e) 4 = true ∧
      mem0.serveLocal (at' e) 4 false = .here (mem0.physLocal (at' e)) ∧ mem0.storeWait (at' e) 4 true = .go ∧
      mem0.cc.rangeBusy 1 (mem0.physLocal (at' e)) (mem0.physLocal (at' e) + 4) mem0.nextId true = false ∧
      mem0.locPoisoned mem0.cur.cl.toNat 1 (mem0.physLocal (at' e)) 4 = false) ∧
    plainV mem0 7 ∧ nothingHeld mem0 ∧ (∀ e ∈ mem0.forme.broken, e.1 ≠ mem0.me.bnd.launch) ∧ mem0.heldCount mem0.cur.cl.toNat mem0.cur.ctx.toNat < 256 ∧ quiet mem0 (.v 7) := by
  decide +kernel

theorem hyps_WatchesAndFences :
    mem0.tlbLookup mem0.cur.cl.toNat mem0.me.bnd.asid (farEa mem0 1 0) .read = .pending ∧ farEa mem0 1 0 % AW.b8.bytes = 0 ∧
    mem0.requestsFree 1 = true ∧ mem0.me.wait = .none ∧ mem0.stashMiss (farEa mem0 1 0) false = none ∧ mayRelease mem0 false := by
  decide +kernel

/-- An LDX galley bound to g1. -/
def ldxGalley : Galley := ⟨0, .ldx, ⟨0, 0, 4, 1, 1, 1, 0, 0, 0⟩, 0, [], 0, .none, 0, 0⟩
def ldxBound : State := mem0.modCc fun c => { c with galleys := [(1, ldxGalley)] }

theorem hyps_MessagesAndEntries :
    (ldxBound.galley? (galleyReg 1) = some (1, ldxGalley) ∧ ldxGalley.kind = .ldx ∧ ldxGalley.q.length < 8 ∧
      ldxBound.requestsFree 1 = true ∧ farEa ldxBound 1 0 % 128 = 0 ∧ ldxBound.stashMiss (farEa ldxBound 1 0) true = none ∧
      ldxBound.tlbLookup ldxBound.cur.cl.toNat ldxBound.me.bnd.asid (farEa ldxBound 1 0) .read = .pending) ∧
    (mem0.me.bnd.cbu = some 0 ∧ mem0.galley? 7 = none ∧ mem0.requestsFree 1 = true) ∧
    ((mem0.rdS 2).psn = false ∧ mem0.heldCount mem0.cur.cl.toNat mem0.cur.ctx.toNat < 256) ∧
    (plainV mem0 7 ∧ mem0.plainOk (64 * 3) 64 = true ∧
      mem0.tlbLookup mem0.cur.cl.toNat mem0.me.bnd.asid (farEa mem0 1 0) .read = .pending) := by decide +kernel

/-- A granule of a stash mapping of region 0, present, under tile row 7. -/
def tsegS : State := withB fun b => { b with tshape := [(1, 0x1000383F)], a := [(1, 0x2000)] }
def cachedS : State := tsegS.modCc fun c => { c with
  regions := [(0, { Region.reset with mode := .stash, map := some (0x2000, 1), gran := [⟨0, some 0x2000, .exclusive, 0⟩] })] }

theorem hyps_TileSegments :
    (let s := tsegS
     let h := shapeOf (s.rdShape 1)
     let lo := s.physTile 1 * 0xA000 + (segBytes h (.data 1 0)).1
     s.tsegCheck ⟨true, 1, 1, .data 1 0, 0, .none⟩ = none ∧
      s.cc.rangeBusy 2 lo (lo + (segBytes h (.data 1 0)).2) s.nextId false = false ∧ nothingHeld s ∧
      (∀ e ∈ s.forme.broken, e.1 ≠ s.me.bnd.launch) ∧ serveOf s true (farEa s 1 0) 128 .none 0 = .here 0x2000 ∧ s.cc.rangeBusy 1 0x2000 0x2080 s.nextId true = false ∧
      s.locPoisoned s.cur.cl.toNat 1 0x2000 128 = false) ∧
    (let s := cachedS
     s.tsegCheck ⟨false, 1, 1, .data 1 0, 0, .none⟩ = none ∧ serveOf s false (farEa s 1 0) 128 .none 0 = .here 0 ∧
      s.storeWait (farEa s 1 0) 128 false = .go ∧ (s.cc.stashAt s.me.bnd.asid (farEa s 1 0)).isSome = true) ∧
    (let s := tsegS
     s.tsegCheck ⟨false, 1, 1, .data 1 0, 3, .none⟩ = none ∧ serveOf s false (farEa s 1 0) 128 .none 3 = .far ∧
      s.requestsFree 1 = true ∧ s.cc.rsbFree 1 = true ∧ s.storeWait (farEa s 1 0) 128 false = .go ∧
      s.tlbLookup s.cur.cl.toNat s.me.bnd.asid (farEa s 1 0) .read = .pending ∧
      s.tlbLookup s.cur.cl.toNat s.me.bnd.asid (farEa s 1 0) .write = .pending) := by
  decide +kernel

/-! ## Witnesses: the C slot -/

/-- hc0: eight bytes from far address 0 to 0x4000, packed, metadata at 0x8000; region 0 in STASH mode. -/
def descs : State := withB fun b =>
  { b with hc := [(1, 0x4000), (2, 7), (3, 1), (4, 1), (6, 0x400), (7, 0x8000)],
           hcSh := [(1, 0x4000), (2, 7), (3, 1), (4, 1), (6, 0x400), (7, 0x8000)] }
def stashed : State := descs.modCc fun c => { c with regions := [(0, { Region.reset with mode := .stash })] }

theorem hyps_CopiesQueue :
    (∀ y ∈ descs.cc.copies, y.id < descs.nextId) ∧
    ∀ sw : Bool, ∀ n ∈ [CpyKind.cpy, .cpyc, .cpyt, .cpye], cpyCheck n ⟨sw, 0, 1, .none, some 3⟩ descs = none ∧
      cpyStall n ⟨sw, 0, 1, .none, some 3⟩ descs = false := by decide +kernel

theorem hyps_EngineQueue :
    (∀ y ∈ stashed.cc.copies, y.id < stashed.nextId) ∧ stashed.queueFull = false ∧ (1 : GalleyNo).toNat < stashed.me.bnd.cgal ∧
    (∀ k ∈ [BindKind.rd, .wr, .ldx], bindCheck false k 1 0 stashed = none) ∧
    (∀ e ∈ stashed.cc.galleys, e.1 ≠ stashed.physGalley 1) ∧ ((1 : RegionNo).toNat < stashed.me.bnd.creg ∧ stashed.cc.rsbFree 1 = true) ∧
    stashCheck false 0 0 stashed = none := by decide +kernel

/-! ## Witnesses: events -/

/-- Row i of an event table over s: what the statement requires before the event holds. -/
def Met (claim : Prop) (s : State) (i : Nat) : Prop :=
  ∃ rules, claim = eventsHold s rules ∧ ∃ e, rules[i]? = some e ∧ e.2.1

/-- Nothing stands in an unused operand. -/
def noLaunch : Launch :=
  { id := 0, st := .running, queue := 0, pri := none, cor := false, npe := false, handle := 5, kimage := 0, param := 0, savea := 0x100000,
    gcount := 4, asid := 1, firstcl := 0, ncl := 1, tenant := 0, cbu := none, succ := [], cookie := 0, cpladdr := 0, cplvec := 3,
    dom := 1, entry := 0, metaoff := 0x1000, lmoff := 0x1000, lmcount := 4, carr := 2, ctile := 2, creg := 2, cgal := 2,
    savstride := 0x2000, cbdesc := none, counter := 0, status := 0, groups := [(0, .bound 0 0)], nbound := 1, nexited := 0, selOrd := 0,
    step := 0, credits := [], kept := [], galleys := [], nests := [], modes := [], faulted := none, everRun := true }
def noBundle : Bundle := ⟨⟨false, 0, 0⟩, ⟨false, 0, .nop 0⟩, ⟨false, 0, .nop 0⟩, ⟨false, 0, .nop 0⟩, ⟨false, 0, .nop 0⟩, ⟨false, 0, .nop 0⟩,
  ⟨false, 0, .nop 0⟩, ⟨false, 0, .nop 0⟩, ⟨false, 0, .nop 0⟩⟩
def anAcc : Access := { on.newAcc .load 0 8 0 .none with id := 7, st := .home, tr := .ok 0 0 }


/-- `on` between bundles, at offset 0, its first 32 MiB mapped with every right: the page tables lie from 16 MiB on. -/
def idle0 : State :=
  let s := (({ on with cur := State.reset.cur } : State).modCluster 0 fun c => { c with tlb := [⟨1, 0, true, 0xDF⟩] }).modForme fun f =>
    { f with starting := false, astbase := 0x1000000 }
  [(0x1000008, 0x1001001), (0x1001000, 0x1002001), (0x1002000, 0x1003001), (0x1003000, 0xDF)].foldl
    (fun s e => s.agentWrite e.1 (toBytes 8 e.2)) s

/-- A bundle of NOPs with another header, Y and S slot. -/
def bndl (h : Header) (y i : Instr) : Bundle := { noBundle with hdr := h, y := ⟨false, 0, y⟩, s := ⟨false, 0, i⟩ }

/-- `idle0` with a bundle at offset 0 and a changed context. -/
def at0 (b : Bundle) (f : Ctx → Ctx) : State := (idle0.modCtx 0 0 f).agentWrite 0 (toBytes 64 (encodeBundle b))

def addB : Bundle := bndl ⟨false, 0, 0⟩ (.nop 0) (.add 1 2 3 0)
def blkB : Bundle := bndl ⟨true, 0, 0⟩ (.nop 0x000100000083) (.add 1 2 3 0)
def waitB : Bundle := bndl ⟨false, 1, 0⟩ (.wait ⟨3, 3, 3, 3, 3, 3, 3, 3⟩) (.add 1 2 3 0)
def flag3 (x : Ctx) : Ctx := { x with regs := { x.regs with f := 8 } }

def tryState (t : Try) : State := match t with | .ready s _ _ => s | .ended s => s | .stalled s => s
def tryIssues (t : Try) : Bool := match t with | .ready .. => true | _ => false
def tryTodo (t : Try) : List SlotNo := match t with | .ready _ _ l => l | _ => []
def tryBndl (t : Try) : Bundle := match t with | .ready _ b _ => b | _ => noBundle
theorem try_ready (t : Try) (h : tryIssues t = true) : t = .ready (tryState t) (tryBndl t) (tryTodo t) := by
  cases t <;> simp_all [tryIssues, tryState, tryBndl, tryTodo]

def trial0 : Try := (((at0 addB id).nextCycle 0).wakeAll 0 |>.selected 0 0).tryCtx 0 0

/-- A row of the events of context 0 of cluster 0. -/
def CE (s : State) (i : Nat) (s2 := s) (s3 := s) (b := noBundle) (todo : List SlotNo := []) (a := anAcc) (l := noLaunch) (T := 0) : Prop :=
  Met (contextEvents s 0 0 3 l s2 s3 b todo a 1 T) s i

/-- A watch of context 0 at its home; its bytes are those of the issue, or others. -/
def watchAcc (v : Byte) : Access :=
  { anAcc with dst := .watch 1 40, data := [v, 0, 0, 0, 0, 0, 0, 0] }
def watching (v : Byte) : State :=
  { idle0.modCtx 0 0 fun x => { x with st := .blocked, wait := .watch 7 } with accs := [watchAcc v] }

/-- A group that its launch's fault stops, and one that is saved. -/
def faultedLaunch : Launch := { noLaunch with faulted := some 0 }
def withL (l : Launch) (s : State) : State := s.modForme fun f => { f with launches := [l] }

theorem hyps_ContextEvents_select :
    CE (idle0.modCtx 0 0 fun x => { x with st := .free }) 0 ∧ CE idle0 1 ∧
    CE (at0 addB id) 2 (s2 := tryState trial0) (b := tryBndl trial0) (todo := tryTodo trial0) ∧
    CE (at0 blkB fun x => { x with st := .blocked, wait := .blk }) 3 ∧
    CE (at0 blkB fun x => { flag3 x with st := .blocked, wait := .blk }) 4 ∧
    CE (at0 waitB fun x => { x with st := .blocked, wait := .flags }) 5 ∧
    CE (at0 waitB fun x => { flag3 x with st := .blocked, wait := .flags }) 6 :=
  ⟨⟨_, rfl, _, rfl, by dsimp only; decide +kernel⟩, ⟨_, rfl, _, rfl, by dsimp only; decide +kernel⟩,
   ⟨_, rfl, _, rfl, by
      dsimp only
      refine ⟨by decide +kernel, by decide +kernel, try_ready _ (by decide +kernel), by decide +kernel, by decide +kernel, by decide +kernel,
        by decide +kernel, by decide +kernel⟩⟩,
   ⟨_, rfl, _, rfl, by dsimp only; decide +kernel⟩, ⟨_, rfl, _, rfl, by dsimp only; decide +kernel⟩,
   ⟨_, rfl, _, rfl, by dsimp only; decide +kernel⟩, ⟨_, rfl, _, rfl, by dsimp only; decide +kernel⟩⟩

/-- A COR launch one of whose two members runs on. -/
def corS : State := (withL { noLaunch with cor := true, groups := [(0, .bound 0 0), (1, .bound 0 1)] }
  (idle0.modCtx 0 0 fun x => { x with st := .saving, srsn := 1 })).modCtx 0 1 fun _ => { ctx0 with bnd := { bnd0 with group := 1 } }

/-- A chiplet that is stopped for a reset sends nothing on (R22). -/
def quiet (s : State) : State := s.setChip (chipOf 0) (.quiesce 0 true)

theorem noBar {s : State} {k c : Nat} {b : Barrier} {p : Prop} (h : s.barOf k c = none) (e : s.barOf k c = some b) : p := by
  rw [h] at e; contradiction

theorem hyps_ContextEvents_rest :
    CE (idle0.modCtx 0 0 fun x => { x with blk := ⟨true, 3, 2, 0, false, false⟩ }) 7 ∧ CE idle0 8 ∧
    CE (idle0.modCtx 0 0 fun x => { x with preempt := true, st := .blocked, wait := .flags }) 9 ∧
    CE (idle0.modCtx 0 0 fun x => { x with nr := true }) 10 ∧
    CE (quiet idle0) 12 ∧
    CE corS 13 (l := { noLaunch with cor := true, groups := [(0, .bound 0 0), (1, .bound 0 1)] }) ∧
    CE (idle0.modCtx 0 0 fun x => { x with st := .blocked, wait := .dbarRestart 0 }) 14 ∧
    CE (idle0.modCtx 0 0 fun x => { x with st := .blocked, wait := .dbarRestart 9 }) 15 (T := 9) ∧
    CE (watching 5) 16 (a := watchAcc 5) ∧ CE (watching 0) 17 (a := watchAcc 0) ∧
    CE { watching 0 with cycle := 50 } 18 (a := watchAcc 0) (T := 40) ∧ CE (watching 0) 19 (a := watchAcc 0) (T := 40) ∧
    CE { withL faultedLaunch idle0 with cycle := 2 ^ 24 } 20 (l := faultedLaunch) ∧
    CE (withL faultedLaunch idle0) 21 (l := faultedLaunch) :=
  ⟨⟨_, rfl, _, rfl, by dsimp only; decide +kernel⟩, ⟨_, rfl, _, rfl, by dsimp only; decide +kernel⟩,
   ⟨_, rfl, _, rfl, by
      dsimp only
      exact ⟨by decide +kernel, by decide +kernel, by decide +kernel, by decide +kernel, by decide +kernel, by decide +kernel,
        by decide +kernel, fun b hb => noBar (by decide +kernel) hb, by decide +kernel⟩⟩,
   ⟨_, rfl, _, rfl, by dsimp only; decide +kernel⟩, ⟨_, rfl, _, rfl, by dsimp only; decide +kernel⟩,
   ⟨_, rfl, _, rfl, by dsimp only; decide +kernel⟩, ⟨_, rfl, _, rfl, by dsimp only; decide +kernel⟩,
   ⟨_, rfl, _, rfl, by dsimp only; decide +kernel⟩, ⟨_, rfl, _, rfl, by dsimp only; decide +kernel⟩,
   ⟨_, rfl, _, rfl, by dsimp only; decide +kernel⟩, ⟨_, rfl, _, rfl, by dsimp only; decide +kernel⟩,
   ⟨_, rfl, _, rfl, by dsimp only; decide +kernel⟩, ⟨_, rfl, _, rfl, by dsimp only; decide +kernel⟩,
   ⟨_, rfl, _, rfl, by dsimp only; decide +kernel⟩⟩

/-- A group that is saved for a pre-emption, its results in, and its record written. -/
def savingS : State := withL noLaunch (idle0.modCtx 0 0 fun x => { x with st := .saving, srsn := 1 })
def drainedS : Option State := (saving savingS (BitVec.toNat (0 : ClusterNo)) (BitVec.toNat (0 : CtxNo))).saveDrain
  (BitVec.toNat (0 : ClusterNo)) (BitVec.toNat (0 : CtxNo))
def savedS (s3 : State) : Option State :=
  let K := BitVec.toNat (0 : ClusterNo)
  let C := BitVec.toNat (0 : CtxNo)
  ((s3.deliverAtoms K C 0xFFFF).markOwed K C).writeRecord noLaunch K C (s3.ctx K C).srsn
theorem hyps_ContextEvents_save : ∃ s2 s3, CE savingS 11 (s2 := s2) (s3 := s3) := by
  have h : (drainedS.any fun s3 => (savedS s3).isSome && (s3.ctx 0 0).srsn == 1) = true := by decide +kernel
  obtain ⟨s3, h3, h⟩ : ∃ s3, drainedS = some s3 ∧ ((savedS s3).isSome && (s3.ctx 0 0).srsn == 1) = true := by
    cases hd : drainedS with
    | none => simp [hd] at h
    | some s3 => exact ⟨s3, rfl, by simpa [hd] using h⟩
  simp only [Bool.and_eq_true, beq_iff_eq] at h
  obtain ⟨s2, h2⟩ := Option.isSome_iff_exists.1 h.1
  refine ⟨s2, s3, _, rfl, _, rfl, ?_⟩
  dsimp only
  exact ⟨by decide +kernel, by decide +kernel, by decide +kernel, by decide +kernel, rfl, by decide +kernel, by decide +kernel, by decide +kernel, h3, h2, (h.2 : (s3.ctx 0 0).srsn = 1).trans (by decide +kernel)⟩

/-! ### Barriers, POSTs, span messages -/

def bar0 (lvl : Nat) (arr : List Nat) (high : Nat) : Barrier := ⟨0, lvl, 0, 0, [0], arr, 0, high, false, []⟩
def post0 : PostReq := ⟨4, 0, 1, 0, 1, 1, 1, 0, 3⟩
def send0 : SendReq := ⟨4, 0, 0, 0, 1, 1, 0, 5, 0, 1, 1, 0, some (List.replicate 128 9)⟩
def msg0 : SpanMsg := ⟨5, 1, 1, List.replicate 128 9⟩
def spanLaunch : Launch := { noLaunch with dom := 5 }

/-- A row of the events of barriers, POSTs and span messages; group 0 is that of context 0 of cluster 0. -/
def BE (s : State) (i : Nat) (n := 0) (r := bar0 1 [0] 1) (q := send0) (m := msg0) (a := anAcc) : Prop :=
  Met (barrierEvents s n r 0 0 0 false post0 q (List.replicate 128 9) m a 0) s i
/-- A state with a forme die's record changed. -/
def inForme (f : Forme → Forme) (s : State := withL noLaunch idle0) : State := s.modForme f
def arrivedS (r : Barrier) : State :=
  { (inForme fun f => { f with bars := [r], nmod := 2 }).modCtx 0 0 fun x => { x with st := .blocked, wait := .dbarArrived r.lvl false } with
    cycle := 5 }
def owedAcc : Access := { anAcc with op := .store, owed := true, st := .performed, launch := 1 }
/-- A write of host memory that MC0 has accepted. -/
def owedHost : Access := { owedAcc with st := .home, tr := .ok 0x200000000000 1 }
def received5 : Barrier := { bar0 5 [0] 1 with recvd := [(1, 0)] }

theorem hyps_BarrierEvents :
    BE (arrivedS (bar0 1 [0] 1)) 0 ∧ BE (arrivedS (bar0 1 [0] 0)) 1 (r := bar0 1 [0] 0) ∧ BE (arrivedS (bar0 1 [] 0)) 2 (r := bar0 1 [] 0) ∧
    BE (arrivedS (bar0 5 [0] 1)) 3 (r := bar0 5 [0] 1) ∧ BE (arrivedS received5) 4 (r := received5) ∧
    BE (arrivedS (bar0 5 [0] 1)) 5 (n := 1) ∧ BE { arrivedS (bar0 1 [0] 1) with cycle := 2 ^ 32 } 6 ∧ BE (arrivedS (bar0 1 [0] 1)) 7 ∧
    BE (inForme (s := quiet idle0) fun f => { f with posts := [post0] }) 8 (n := 4) ∧
    BE (inForme fun f => { f with posts := [post0] }) 9 (n := 4) ∧
    BE (inForme (s := withL { noLaunch with groups := [(0, .saved 0)] } idle0) fun f => { f with posts := [post0] }) 10 (n := 4) ∧
    BE (inForme (s := withL spanLaunch idle0) fun f => { f with sends := [send0] }) 11 (n := 4) ∧
    BE (inForme (s := withL spanLaunch idle0) fun f => { f with sends := [{ send0 with bytes := none }] }) 12 (n := 4)
      (q := { send0 with bytes := none }) ∧
    BE (inForme (s := withL spanLaunch idle0) fun f => { f with arriving := [(4, msg0)] }) 13 (n := 4) ∧
    BE (inForme fun f => { f with arriving := [(4, msg0)], spanGone := [5] }) 14 (n := 4) ∧
    BE idle0 15 ∧ BE (inForme fun f => { f with spanUp := 0xFE }) 16 ∧
    BE { withL noLaunch idle0 with accs := [owedAcc] } 17 (n := 7) (a := owedAcc) ∧
    BE { withL noLaunch idle0 with accs := [owedHost] } 18 (n := 7) (a := owedHost) :=
  ⟨⟨_, rfl, _, rfl, by
      dsimp only
      refine ⟨by unfold highSince; decide +kernel, by decide +kernel, by decide +kernel, by decide +kernel, by decide, by decide +kernel,
        by decide +kernel, ?_⟩
      intro h hh k' c' _
      exact .inl (by simpa [bar0] using hh)⟩,
   ⟨_, rfl, _, rfl, by dsimp only; decide +kernel⟩, ⟨_, rfl, _, rfl, by dsimp only; decide +kernel⟩,
   ⟨_, rfl, _, rfl, by dsimp only; unfold highSince; decide +kernel⟩, ⟨_, rfl, _, rfl, by dsimp only; unfold highSince; decide +kernel⟩,
   ⟨_, rfl, _, rfl, by dsimp only; decide +kernel⟩,
   ⟨_, rfl, _, rfl, by dsimp only; decide +kernel⟩, ⟨_, rfl, _, rfl, by dsimp only; decide +kernel⟩,
   ⟨_, rfl, _, rfl, by dsimp only; decide +kernel⟩, ⟨_, rfl, _, rfl, by dsimp only; decide +kernel⟩,
   ⟨_, rfl, _, rfl, by dsimp only; decide +kernel⟩, ⟨_, rfl, _, rfl, by dsimp only; decide +kernel⟩,
   ⟨_, rfl, _, rfl, by dsimp only; decide +kernel⟩, ⟨_, rfl, _, rfl, by dsimp only; decide +kernel⟩,
   ⟨_, rfl, _, rfl, by dsimp only; decide +kernel⟩, ⟨_, rfl, _, rfl, by dsimp only; decide +kernel⟩,
   ⟨_, rfl, _, rfl, by dsimp only; decide +kernel⟩, ⟨_, rfl, _, rfl, by dsimp only; decide +kernel⟩,
   ⟨_, rfl, _, rfl, by dsimp only; decide +kernel⟩⟩
/-! ### Nests -/

/-- The nest of `nesty` on plane 0, its k-steps unskipped. -/
def n0 : Nest := { nesty.newNest false 0 (some 3) with skip := 0 }
def planed (p : Plane) : State := idle0.modCluster 0 fun c => { c with planes := [(0, p)] }
def nestS (n : Nest) : State := planed { Plane.reset with nest := some n }
def edge0 : Edge := ⟨false, 0, -127⟩

/-- A row of the events of plane 0 of cluster 0. -/
def NE (s : State) (i : Nat) (n := n0) (o : Nat × Nat := (0, 0)) : Prop :=
  Met (nestEvents s 0 0 n 0 0 edge0 edge0 [] o 1 3 0 0 0 4 false) s i

/-- A progressive nest at the end of pass 6 of 8, whose decision row has a margin. -/
def marginN : Nest := { n0 with endPass := true, j := 8, pass := 6, smode := 8, smarg := 2 }

theorem hyps_NestEvents_walk :
    NE (nestS n0) 0 ∧ NE (nestS { n0 with skip := 1 }) 1 (n := { n0 with skip := 1 }) ∧
    NE (nestS { n0 with due := 9 }) 2 (n := { n0 with due := 9 }) ∧
    (let n := { n0 with skip := 1, sstop := true, nv := [0x1000000000001, 0, 0, 0, 0, 0] }
     NE (nestS n) 3 (n := n)) ∧
    NE (nestS { n0 with skip := 1, apar := true }) 4 (n := { n0 with skip := 1, apar := true }) ∧
    NE (nestS { n0 with endPass := true, apar := true }) 5 (n := { n0 with endPass := true, apar := true }) ∧
    NE (nestS { n0 with endPass := true }) 6 (n := { n0 with endPass := true }) ∧
    NE (nestS { n0 with endPass := true, sstop := true }) 7 (n := { n0 with endPass := true, sstop := true }) ∧
    NE (planed { Plane.reset with acc := [(0, 5)], nest := some marginN }) 8 (n := marginN) ∧
    NE (nestS { n0 with endPass := true, j := 8, pstop := true }) 9 (n := { n0 with endPass := true, j := 8, pstop := true }) ∧
    NE (nestS { n0 with endPass := true, j := 8 }) 10 (n := { n0 with endPass := true, j := 8 }) :=
  ⟨⟨_, rfl, _, rfl, by dsimp only [nestReady, sitesFit, unstopped]; decide +kernel⟩,
   ⟨_, rfl, _, rfl, by dsimp only [nestReady, unstopped]; decide +kernel⟩, ⟨_, rfl, _, rfl, by dsimp only; decide +kernel⟩,
   ⟨_, rfl, _, rfl, by dsimp only [nestReady]; decide +kernel⟩, ⟨_, rfl, _, rfl, by dsimp only [nestReady, errorRoom]; decide +kernel⟩,
   ⟨_, rfl, _, rfl, by dsimp only [nestReady, errorRoom]; decide +kernel⟩, ⟨_, rfl, _, rfl, by dsimp only [nestReady]; decide +kernel⟩,
   ⟨_, rfl, _, rfl, by dsimp only [nestReady]; decide +kernel⟩, ⟨_, rfl, _, rfl, by dsimp only [nestReady]; decide +kernel⟩,
   ⟨_, rfl, _, rfl, by dsimp only [nestReady]; decide +kernel⟩, ⟨_, rfl, _, rfl, by dsimp only [nestReady, unstopped]; decide +kernel⟩⟩

theorem hyps_NestEvents_queue :
    NE (planed { Plane.reset with queue := [.sclr 0 0] }) 11 ∧ NE (planed { Plane.reset with queue := [.sgo n0] }) 12 ∧
    NE (planed { Plane.reset with queue := [.sacc 0 1 3 0 0 0 4 false] }) 13 ∧ NE (nestS n0) 14 ∧ NE (nestS n0) 15 ∧
    NE (nestS n0) 16 ∧ NE (nestS { n0 with retries := 3 }) 17 (n := { n0 with retries := 3 }) ∧ NE (nestS n0) 18 ∧ NE idle0 19 :=
  ⟨⟨_, rfl, _, rfl, by dsimp only; decide +kernel⟩, ⟨_, rfl, _, rfl, by dsimp only; decide +kernel⟩,
   ⟨_, rfl, _, rfl, by dsimp only; decide +kernel⟩, ⟨_, rfl, _, rfl, by dsimp only; decide +kernel⟩,
   ⟨_, rfl, _, rfl, by dsimp only [nestReady]; decide +kernel⟩, ⟨_, rfl, _, rfl, by dsimp only [nestReady]; decide +kernel⟩,
   ⟨_, rfl, _, rfl, by dsimp only [nestReady]; decide +kernel⟩, ⟨_, rfl, _, rfl, by dsimp only; decide +kernel⟩,
   ⟨_, rfl, _, rfl, by dsimp only; decide +kernel⟩⟩
/-! ### The compositor -/

/-- `idle0` with a module that is READY, and one queue, enabled or not, with its records from 0x10000 on. -/
def readyS (en : BitVec 32) (tail : BitVec 32) (l : List Launch) : State := idle0.modForme fun f =>
  { f with mstat := 5, queues := [(0, ⟨0x10000, en, tail, 0⟩)], launches := l }

/-- A row of the compositor's events. -/
def KE (s : State) (i : Nat) (v : BitVec 64 := 1) (n := 0) (h := 0) (l := noLaunch) (ls : List Launch := []) (p : Spot := ⟨0, 0, 0, 0, 0, 0, 0⟩) (e : Nat × Nat × Nat := (0, 0, 0)) : Prop :=
  Met (compositorEvents s 0 v n h l ls p e) s i

/-- A launch that is complete, one with a credit to apply, one still to be bound. -/
def completeL : Launch := { noLaunch with gcount := 1, nbound := 1, nexited := 1, groups := [(0, .exited)], cpladdr := 0x200000000000 }
def creditL : Launch := { completeL with st := .retiring, credits := [7] }
def pendingL : Launch := { noLaunch with st := .pending, groups := [], nbound := 0, gcount := 1, everRun := false }
def freeS (l : List Launch) : State := (readyS 0x80000000 0 l).setCtx 0 0 Ctx.reset
def inF (l : Launch) (f : Forme → Forme) : State := (withL l idle0).modForme f
def stop0 (since : Nat) : StopReq := ⟨3, 0, 0, some 0, since⟩

theorem hyps_CompositorEvents_queues :
    KE (readyS 0 0 []) 0 ∧ KE (readyS 0x80000000 0 []) 1 ∧ KE (readyS 0x80000000 0 []) 2 (v := 257) ∧ KE idle0 3 ∧
    KE (readyS 0 0 []) 4 ∧ KE (readyS 0x80000001 1 []) 5 ∧ KE (readyS 0 1 []) 6 :=
  ⟨⟨_, rfl, _, rfl, by dsimp only; decide +kernel⟩, ⟨_, rfl, _, rfl, by dsimp only; decide +kernel⟩,
   ⟨_, rfl, _, rfl, by dsimp only; decide +kernel⟩, ⟨_, rfl, _, rfl, by dsimp only; decide +kernel⟩,
   ⟨_, rfl, _, rfl, by dsimp only; decide +kernel⟩,
   ⟨_, rfl, _, rfl, by dsimp only [openTo, heldNowhere, lineFree]; decide +kernel⟩, ⟨_, rfl, _, rfl, by dsimp only; decide +kernel⟩⟩

theorem hyps_CompositorEvents_launches :
    KE (withL completeL idle0) 7 (l := completeL) ∧ KE (withL noLaunch idle0) 8 ∧
    KE (inF creditL fun f => { f with heldCredits := [(0, 7)] }) 9 (l := creditL) (h := 7) ∧
    KE (inF creditL fun f => { f with heldCredits := [(0, 7)], precredit := List.replicate 4096 (9, -1) }) 10 (l := creditL) (h := 7) ∧
    KE (withL noLaunch idle0) 11 ∧ KE (withL faultedLaunch idle0) 12 (l := faultedLaunch) :=
  ⟨⟨_, rfl, _, rfl, by dsimp only; decide +kernel⟩, ⟨_, rfl, _, rfl, by dsimp only; decide +kernel⟩,
   ⟨_, rfl, _, rfl, by dsimp only; decide +kernel⟩, ⟨_, rfl, _, rfl, by dsimp only; decide +kernel⟩,
   ⟨_, rfl, _, rfl, by dsimp only; decide +kernel⟩, ⟨_, rfl, _, rfl, by dsimp only; decide +kernel⟩⟩

theorem hyps_CompositorEvents_selection :
    KE { inF noLaunch fun f => { f with stops := [stop0 0] } with cycle := 2 ^ 24 } 13 ∧
    KE (inF noLaunch fun f => { f with stops := [stop0 0] }) 14 ∧ KE (readyS 0 0 [pendingL]) 15 ∧
    KE (freeS [pendingL]) 16 (l := pendingL) ∧ KE idle0 17 :=
  ⟨⟨_, rfl, _, rfl, by dsimp only; exact ⟨⟨stop0 0, by decide +kernel⟩, by decide +kernel⟩⟩,
   ⟨_, rfl, _, rfl, by dsimp only; decide +kernel⟩, ⟨_, rfl, _, rfl, by dsimp only; decide +kernel⟩,
   ⟨_, rfl, _, rfl, by dsimp only; decide +kernel⟩, ⟨_, rfl, _, rfl, by dsimp only; decide +kernel⟩⟩

/-! ### The batching units and the registers -/

def noGroup : CbGroup := ⟨0, false, []⟩
def noReq : CbReq := ⟨7, none, some 0⟩
def cst (b : Nat) : Constraint := ⟨5, 1, .ofNat 96 b, 9⟩

/-- A row of the batching units' events. -/
def BCE (s : State) (i : Nat) (v : BitVec 64 := 1) (g := noGroup) (c := cst 1) (j := 0) (o := 0) (h := 0x2000) (r := noReq)
    (a := anAcc) (tag : BitVec 32 := 0) (ms : List Instr := []) : Prop :=
  Met (batchEvents s 1 v g c j o h r [] a tag ms) s i

/-- Unit 1 taken by a launch, its ring of 16 records from 0x20000 on, one record in memory, and its state changed. -/
def unit1 (f : CbUnit → CbUnit) : State := (idle0.modUnit 1 fun x =>
  f { x with launch := some 0, win := 4, gmax := 4, rbase := 0x20000, rlog := 4 }).agentWrite 0x20000 (toBytes 32 (5 + 2 ^ 32 + 2 ^ 64))
def group0 (o : Bool) (b : Bool × Bool) : CbGroup := ⟨0, o, [(cst 1, b)]⟩
def asking (op : AccOp) (gs : List CbGroup) (f : CbUnit → CbUnit) : State :=
  { unit1 fun x => f { x with groups := gs } with accs := [{ anAcc with op := op }], cycle := 5 }
/-- A line that its event locks. -/
def lockedAt (a : Nat) (s : State) : State := s.modSlice (s.home a) fun x =>
  { x with lines := [⟨a / 256, 0, false, 0, 0, none, false, true, false, []⟩] }
def takeAcc : Access := { anAcc with op := .cbtake }
def doneAcc : Access := { anAcc with op := .cbdone 0 }

theorem hyps_BatchEvents_records :
    BCE (unit1 id) 0 ∧ BCE (unit1 id) 1 (v := 17) ∧ BCE idle0 2 ∧ BCE (unit1 id) 3 ∧ BCE (unit1 fun x => { x with tail := 1 }) 4 ∧
    BCE (unit1 fun x => { x with tail := 2, head := 1 }) 5 ∧ BCE (lockedAt 0x20000 (unit1 id)) 6 ∧
    BCE (unit1 fun x => { x with window := [cst 1], sealed := true }) 7 :=
  ⟨⟨_, rfl, _, rfl, by dsimp only; decide +kernel⟩, ⟨_, rfl, _, rfl, by dsimp only; decide +kernel⟩,
   ⟨_, rfl, _, rfl, by dsimp only; decide +kernel⟩, ⟨_, rfl, _, rfl, by dsimp only; decide +kernel⟩,
   ⟨_, rfl, _, rfl, by dsimp only [constraintOk, openTo, heldNowhere, lineFree]; decide +kernel⟩, ⟨_, rfl, _, rfl, by dsimp only [constraintOk, openTo, heldNowhere, lineFree]; decide +kernel⟩,
   ⟨_, rfl, _, rfl, by dsimp only; decide +kernel⟩, ⟨_, rfl, _, rfl, by dsimp only; decide +kernel⟩⟩

theorem hyps_BatchEvents_groups :
    BCE (unit1 fun x => { x with groups := [group0 false (false, false)] }) 8 (g := group0 false (false, false)) ∧
    BCE (unit1 fun x => { x with groups := [group0 false (false, false)], held := [1] }) 9 (g := group0 false (false, false)) ∧
    BCE (asking .cbtake [group0 true (false, false)] fun x => { x with takes := [noReq] }) 10 (g := group0 true (false, false))
      (a := takeAcc) ∧
    BCE (asking .cbtake [] fun x => { x with takes := [noReq] }) 11 (a := takeAcc) ∧
    BCE (asking (.cbdone 0) [group0 true (true, false)] fun x => { x with dones := [⟨7, some 0, none⟩] }) 12 (r := ⟨7, some 0, none⟩)
      (g := group0 true (true, false)) (a := doneAcc) ∧
    BCE (asking (.cbdone 0) [] fun x => { x with dones := [⟨7, some 0, none⟩] }) 13 (r := ⟨7, some 0, none⟩) (a := doneAcc) :=
  ⟨⟨_, rfl, _, rfl, by dsimp only; decide +kernel⟩, ⟨_, rfl, _, rfl, by dsimp only; decide +kernel⟩,
   ⟨_, rfl, _, rfl, by
      dsimp only
      exact ⟨⟨0, [], [], by decide +kernel, rfl, by decide +kernel, by decide +kernel, by simp, by simp⟩,
        by decide +kernel⟩⟩,
   ⟨_, rfl, _, rfl, by
      dsimp only
      exact ⟨⟨0, [], [], by decide +kernel, rfl, by decide +kernel, by decide +kernel, by simp, by simp⟩,
        by decide +kernel⟩⟩,
   ⟨_, rfl, _, rfl, by dsimp only; decide +kernel⟩, ⟨_, rfl, _, rfl, by dsimp only; decide +kernel⟩⟩

theorem hyps_BatchEvents_registers :
    BCE (idle0.modForme fun m => { m with eltail := 2 }) 14 ∧ BCE idle0 15 ∧ BCE idle0 16 (o := 0x10004) (ms := [.coldStart]) ∧
    BCE idle0 17 (o := 0x10002) ∧ BCE idle0 18 (o := 0xFFFFFF0) ∧ BCE idle0 19 ∧
    BCE (idle0.modForme fun m => { m with elbase := 0x200000002000 }) 20 (o := 0xFFFFFF0) ∧
    BCE (idle0.modForme fun m => { m with eltail := 4096 }) 21 (o := 0xFFFFFF0) :=
  ⟨⟨_, rfl, _, rfl, by dsimp only; decide +kernel⟩, ⟨_, rfl, _, rfl, by dsimp only; decide +kernel⟩,
   ⟨_, rfl, _, rfl, by dsimp only; decide +kernel⟩, ⟨_, rfl, _, rfl, by dsimp only; decide +kernel⟩,
   ⟨_, rfl, _, rfl, by dsimp only; decide +kernel⟩, ⟨_, rfl, _, rfl, trivial⟩,
   ⟨_, rfl, _, rfl, by dsimp only; decide +kernel⟩, ⟨_, rfl, _, rfl, by dsimp only; decide +kernel⟩⟩

/-! ### Translation, paging and granules -/

/-- `idle0` with three more pages from 64 MiB on: one in device memory, one not resident, one in host memory. -/
def paged : State :=
  [(0x1003010, 0x1004001), (0x1004000, 0x5000F), (0x1004008, 0x800), (0x1004010, 0x20000000010F)].foldl
    (fun s e => s.agentWrite e.1 (toBytes 8 e.2)) idle0
def path0 : WalkPath := ⟨0x1001001, 0x1002001, 0x1003001, 0x1004001, 0x5000F⟩
def pagedF (f : Forme → Forme) : State := paged.modForme f
def readyF (f : Forme → Forme) : State := (readyS 0 0 []).modForme f
def withA (a : Access) (s : State) : State := { s with accs := [a] }
def loadAt (op : AccOp) (va : Nat) (tr : Tr) : Access := { anAcc with op := op, va := va, tr := tr, st := .sent }
def writeA : Access := { loadAt .store 0x4010000 .nonres with eng := 1, data := [1, 2] }
/-- A job of context 0: eight bytes from local offset 0x100 to the offset given. -/
def job0 (op : CopyOp) (st : CopySt) (dst : Nat := 0x200) : Copy :=
  { id := 7, ctx := 0, bpc := 0, op := op, desc := [0x100, .ofNat 64 dst, .ofNat 64 (3 * 2 ^ 48 + 2 ^ 50 + 2 ^ 52), 0, 0, 0, 0, 0], cls := 0,
    hint := .byp, flag := some 3, st := st, parts := [(0, 0x100, List.replicate 8 1)], mdata := [], cstat := 0, gspace := 0, gaddrs := [],
    gesz := 1, bnd := bnd0, owed := false, due := 0 }
def req0 (va : Nat) (w : Bool) : StashReq := ⟨7, 0, 0, va, 1, 0, w, [], [], none, false⟩
def stashS (q : StashReq) (gs : List Granule) (f : Forme → Forme := id) : State := (pagedF f).modCluster 0 fun c =>
  { c with stashReqs := [q], regions := sset Region.reset c.regions 0 { c.region 0 with mode := .stash, map := some (q.va, 1), gran := gs } }

/-- A row of the paging events, on access or request 7. -/
def PGE (s : State) (i : Nat) (a := anAcc) (q := req0 0 false) (r : PagerReq := ⟨7, 1, 0x400, none⟩) (big := false) (pa := 0) (pte := 0)
    (lvl := 0) (cause := 0) (bs : List Byte := []) (n := 7) (s1 : State := s) : Prop :=
  Met (pagingEvents s s1 n a path0 1 0 q 0 0 r 0 0 big pa pte lvl cause bs 0) s i

theorem snd_eq {p : Tr × State} {t : Tr} (h : p.1 = t) : p = (t, p.2) := h ▸ rfl

theorem noAccs {s : State} (h : s.accs = []) {id : Nat} {y : Access} {p : Prop} (e : s.acc? id = some y) : p := by
  simp [State.acc?, h] at e

theorem hyps_PagingEvents_walks :
    (let a := loadAt .load 0x4000000 .pending; PGE (withA a paged) 0 (a := a)) ∧
    (let a := loadAt .store 0x6000000 .pending
     PGE (withA a paged) 1 (a := a) (s1 := ((withA a paged).xlate 0 1 0x6000000 a.needs).2) (cause := 0x20)) ∧
    PGE (withA anAcc paged) 2 ∧ PGE (readyF id) 3 ∧ PGE (readyF id) 4 ∧ PGE (readyF id) 5 ∧
    PGE (readyF fun m => { m with invbusy := true }) 6 ∧ PGE (readyF fun m => { m with invbusy := true }) 7 ∧
    PGE (readyF fun m => { m with invbusy := true }) 8 ∧ PGE (readyF fun m => { m with invbusy := true, invwait := [9] }) 9 ∧
    PGE (withA anAcc (readyF fun m => { m with invbusy := true, invwait := [7] })) 10 :=
  ⟨⟨_, rfl, _, rfl, by dsimp only [WalkPath.stands, tableReadable, tableEntry, windowCode]; decide +kernel⟩,
   ⟨_, rfl, _, rfl, by
      dsimp only [plainAccess]
      exact ⟨by decide +kernel, by decide +kernel, by decide +kernel,
        ⟨by decide +kernel, by decide +kernel, by decide +kernel, .inr rfl, nofun, nofun, by decide +kernel, by decide +kernel⟩,
        snd_eq (by decide +kernel), by decide +kernel⟩⟩,
   ⟨_, rfl, _, rfl, by dsimp only; decide +kernel⟩, ⟨_, rfl, _, rfl, by dsimp only; decide +kernel⟩,
   ⟨_, rfl, _, rfl, by dsimp only; decide +kernel⟩, ⟨_, rfl, _, rfl, by dsimp only; decide +kernel⟩,
   ⟨_, rfl, _, rfl, by dsimp only; decide +kernel⟩, ⟨_, rfl, _, rfl, by dsimp only; decide +kernel⟩,
   ⟨_, rfl, _, rfl, by dsimp only; decide +kernel⟩,
   ⟨_, rfl, _, rfl, by dsimp only; exact ⟨by decide +kernel, fun id _ y hy => noAccs (by decide +kernel) hy⟩⟩,
   ⟨_, rfl, _, rfl, by dsimp only; decide +kernel⟩⟩

theorem hyps_PagingEvents_pager :
    PGE ((withA writeA paged).modCluster 0 fun c => { c with copies := [{ job0 .cpy .writing with id := 0 }] }) 11 (a := writeA) (pa := 0x1004008) (pte := 0x800) ∧
    PGE { pagedF fun m => { m with bbWait := [(7, 0)] } with cycle := 2 ^ 20 } 12 ∧
    PGE (pagedF fun m => { m with bbWait := [(7, 0)] }) 13 ∧
    PGE (pagedF fun m => { m with pager := [⟨7, 1, 0x401, none⟩] }) 14 (r := ⟨7, 1, 0x401, none⟩) (pa := 0x1004008) (pte := 0x800) ∧
    (let r : PagerReq := ⟨7, 1, 0x401, some (0x1004008, 0x800, 0)⟩
     PGE ((pagedF fun m => { m with pager := [r] }).modCtx 0 0 fun x => { x with wait := .pager 7 0 0 }) 15 (r := r)
       (pa := 0x1004008) (pte := 0x800) ∧
     PGE (pagedF fun m => { m with pager := [r], invbusy := true }) 16 (r := r) (pa := 0x1004008) (pte := 0x800)) ∧
    PGE ((pagedF fun m => { m with pager := [⟨7, 1, 0x400, none⟩] }).modCtx 0 0 fun x => { x with wait := .pager 7 0 0 }) 17
      (pa := 0x1004000) (pte := 0x5000F) :=
  ⟨⟨_, rfl, _, rfl, by dsimp only; decide +kernel⟩, ⟨_, rfl, _, rfl, by dsimp only; decide +kernel⟩,
   ⟨_, rfl, _, rfl, by dsimp only; decide +kernel⟩, ⟨_, rfl, _, rfl, by dsimp only; decide +kernel⟩,
   ⟨⟨_, rfl, _, rfl, by dsimp only; decide +kernel⟩, ⟨_, rfl, _, rfl, by dsimp only; decide +kernel⟩⟩,
   ⟨_, rfl, _, rfl, by dsimp only; decide +kernel⟩⟩

def bounceAll (m : Forme) : Forme :=
  { m with bounce := (List.range 16).map fun i => ⟨1, 0x40100 + i, .allOnes 256, .ofNat 2048 i⟩ }

theorem sget_all {α : Type} {d : α} {p : α → Prop} (hd : p d) {m : Sparse α} (h : ∀ e ∈ m, p e.2) (k : Nat) : p (sget d m k) := by
  induction m with
  | nil => exact hd
  | cons e m ih =>
    simp only [sget]
    split
    · exact h _ (by simp)
    · exact ih fun f hf => h f (by simp [hf])

theorem dirs_free (s : State) (h : ∀ e ∈ s.slices, e.2.dir.length < 32768) (i : Nat) : (s.slice i).dir.length < 32768 :=
  sget_all (p := fun x : Slice => x.dir.length < 32768) (by decide) h i

theorem mapM_isSome {α β : Type} (f : α → Option β) (l : List α) (h : ∀ x ∈ l, (f x).isSome = true) : (l.mapM f).isSome = true := by
  induction l with
  | nil => rfl
  | cons a l ih =>
    obtain ⟨b, hb⟩ := Option.isSome_iff_exists.mp (h a (by simp))
    obtain ⟨c, hc⟩ := Option.isSome_iff_exists.mp (ih fun x hx => h x (by simp [hx]))
    simp [List.mapM_cons, hb, hc]

theorem bounced (s : State) (h : s.forme.bounce = (bounceAll s.forme).bounce) : (s.bounceBytes 1 0x4010000 4096).isSome = true := by
  refine mapM_isSome _ _ fun i hi => ?_
  simp only [List.mem_range] at hi
  rw [Option.isSome_map, List.find?_isSome, h]
  refine ⟨⟨1, 0x40100 + i / 256, .allOnes 256, .ofNat 2048 (i / 256)⟩, ?_, ?_⟩
  · simp only [bounceAll, List.mem_map, List.mem_range]
    exact ⟨i / 256, by omega, rfl⟩
  · simp only [BitVec.getLsbD_allOnes, Bool.and_eq_true, beq_iff_eq, decide_eq_true_eq]
    exact ⟨⟨trivial, by omega⟩, Nat.mod_lt _ (by decide)⟩

theorem drop_none {s : State} {k n : Nat} (h : (s.cluster k).regions = []) : s.dropReady k n = some s := by
  simp [State.dropReady, h]

/-- What `homesAnswer` asks of the state that the homes leave, as a test. -/
def answered (k r idx : Nat) (s2 : State) : Bool :=
  s2.slices.all (fun e => decide (e.2.dir.length < 32768)) && ((s2.cluster k).region r).gran.any fun g => g.idx == idx
theorem answer_of {s : State} {k r idx pa : Nat} {w : Bool}
    (h : ∀ l ∈ (List.range 16).map fun i => s.granLine pa i / 256, s.lineLocked l = false)
    (g : ((s.granReady pa ((List.range 16).map fun i => s.granLine pa i / 256) (some (k, r)) (!w)).any (answered k r idx)) = true) :
    ∃ s2, homesAnswer s s2 k r idx pa w := by
  obtain ⟨i, ha⟩ := (Option.any_eq_true_iff_get _ _).1 g
  simp only [answered, Bool.and_eq_true, List.all_eq_true, decide_eq_true_eq, List.any_eq_true, beq_iff_eq] at ha
  exact ⟨_, h, (Option.some_get i).symm, dirs_free _ ha.1, ha.2⟩

theorem hyps_PagingEvents_granules :
    (let q := req0 0x4010000 false
     let s := stashS q [] bounceAll
     let s1 := (s.xlate 0 1 q.va .read).2
     ∃ bs, PGE s 18 (q := q) (s1 := s1) (bs := bs)) ∧
    (let q := req0 0x4000000 true
     let s := stashS q [⟨0, some 0x50000, .shared, 0⟩]
     PGE s 19 (q := q) (pa := 0x50000) (s1 := (s.xlate 0 1 q.va .write).2)) ∧
    (let q := req0 0x4020000 false
     let s := stashS q []
     PGE s 20 (q := q) (pa := 0x200000000000) (s1 := (s.xlate 0 1 q.va .read).2)) ∧
    PGE idle0 21 ∧ PGE idle0 22 ∧
    PGE (lockedAt 0x50000 (stashS (req0 0 false) [⟨0, some 0x50000, .exclusive, 1⟩])) 23 (n := 0x50) ∧ PGE idle0 24 (n := 0x200000000) :=
  ⟨⟨_, _, rfl, _, rfl, by
      dsimp only
      exact ⟨by decide +kernel, snd_eq (by decide +kernel), rfl, (Option.some_get (bounced _ (by decide +kernel))).symm⟩⟩,
   ⟨_, rfl, _, rfl, by
      dsimp only
      exact ⟨by decide +kernel, snd_eq (by decide +kernel), ⟨⟨0, some 0x50000, .shared, 0⟩, by decide +kernel⟩,
        answer_of (by decide +kernel) (by decide +kernel)⟩⟩,
   ⟨_, rfl, _, rfl, by
      dsimp only
      exact ⟨by decide +kernel, snd_eq (by decide +kernel), by decide +kernel⟩⟩,
   ⟨_, rfl, _, rfl, by dsimp only; decide +kernel⟩, ⟨_, rfl, _, rfl, by dsimp only; exact ⟨by decide +kernel, by decide +kernel, drop_none (by decide +kernel)⟩⟩,
   ⟨_, rfl, _, rfl, by dsimp only; decide +kernel⟩, ⟨_, rfl, _, rfl, by dsimp only; decide +kernel⟩⟩

/-! ### Homes, the host's memory and the slices -/

def devS (op : AccOp) : Access := { loadAt op 0x50000 (.ok 0x50000 0) with hint := .byp, missDone := true, len := 8, data := List.replicate 8 1 }
def devL (op : AccOp) : Access := { devS op with dst := .s 1 false, tag := 4 }
def atHost (a : Access) (st : AccSt) : Access := { a with tr := .ok 0x200000000000 1, st := st }
def win0 : RedWin := ⟨0, 1, 0x50000, 4, []⟩
def noFill : Fill :=
  { line := 0x500, waiters := [], tenant := none, noev := false, handler := false, reqCl := 0, reqSl := false, kind := 0, asid := 1,
    hint := 0, off := 0, since := 0 }
def msgEv : Ev := ⟨3, 0, 0, 0x50000, 0, false, 0, 1, 0, 0, 0, 0, 0, []⟩
def run0 : Run := { ev := msgEv, pc := 0, x := [], used := 64, bud := 64, resv := none, locks := [], wait := .none, failed := [], next := 0 }
def sliceS (f : Slice → Slice) : State := idle0.modSlice 0 f
def pend4 : Pend := { pendS1 with tag := 4 }

/-- A row of the events of the homes, on access 7 of launch 0's group 0, or on line, reply or slice 0. -/
def HE (s : State) (i : Nat) (a := devS .store) (n := 7) (pa := 0x50000) (x : BitVec 64 := 0) (tok : BitVec 64 := 0) (bud := 64)
    (e := msgEv) (es : List Ev := []) (y : Reply := ⟨0x1000000000, 5, 0, 0⟩) (pd := pend4) (r := run0) : Prop :=
  Met (homeEvents s n a pa 1 false pd win0 x 0 noFill tok 0 e es bud 0 r y) s i

theorem hyps_HomeEvents_accesses :
    HE (withA (devS .store) idle0) 0 ∧ HE (withA (devL .load) idle0) 1 (a := devL .load) ∧
    HE (withA (atHost (devL .load) .sent) idle0) 2 (a := atHost (devL .load) .sent) (pa := 0x200000000000) ∧
    HE (withA { devS .store with st := .held } idle0) 3 (a := { devS .store with st := .held }) ∧
    HE { idle0 with accs := [{ devS .store with cl := 100 }, { devS .store with id := 6 }] } 4 (a := { devS .store with cl := 100 }) ∧
    (let a := { devS (.red .fadd 1) with st := .home }; HE (withA a (idle0.modForme fun m => { m with windows := [win0] })) 5 (a := a) (x := 1)) ∧
    HE (withA (atHost (devS .store) .home) idle0) 6 (a := atHost (devS .store) .home) (pa := 0x200000000000) ∧
    HE (withA (atHost (devL .load) .home) idle0) 7 (a := atHost (devL .load) .home) (pa := 0x200000000000) ∧
    HE (withA (atHost (devL .load) .home) idle0) 8 (a := atHost (devL .load) .home) (pa := 0x200000000000) :=
  ⟨⟨_, rfl, _, rfl, by dsimp only [homeReady, lineFree]; decide +kernel⟩,
   ⟨_, rfl, _, rfl, by dsimp only [homeReady, lineFree]; decide +kernel⟩,
   ⟨_, rfl, _, rfl, by dsimp only; decide +kernel⟩, ⟨_, rfl, _, rfl, by dsimp only; decide +kernel⟩,
   ⟨_, rfl, _, rfl, by dsimp only; decide +kernel⟩, ⟨_, rfl, _, rfl, by dsimp only; decide +kernel⟩,
   ⟨_, rfl, _, rfl, by dsimp only; decide +kernel⟩, ⟨_, rfl, _, rfl, by dsimp only; decide +kernel⟩,
   ⟨_, rfl, _, rfl, by dsimp only; decide +kernel⟩⟩

theorem hyps_HomeEvents_returns :
    (let a := { devL .load with st := .performed }
     HE (withA a (idle0.modCtx 0 0 fun x => { x with pend := [pend4] })) 9 (a := a)) ∧
    HE (withA (devS .store) idle0) 10 ∧
    (let a := { devS .store with st := .refused, launch := 1 }; HE (withA a idle0) 11 (a := a)) ∧
    (let a := { devS .store with st := .performed }
     HE (withA a (idle0.modForme fun m => { m with late := [7] })) 12 (a := a)) ∧ HE idle0 13 :=
  ⟨⟨_, rfl, _, rfl, by dsimp only; decide +kernel⟩, ⟨_, rfl, _, rfl, by dsimp only; decide +kernel⟩,
   ⟨_, rfl, _, rfl, by
      dsimp only [plainAccess]
      exact ⟨by decide +kernel, by decide +kernel, rfl, rfl,
        ⟨rfl, rfl, rfl, .inr rfl, nofun, nofun, by decide +kernel, by decide +kernel⟩, rfl, rfl, by decide +kernel⟩⟩,
   ⟨_, rfl, _, rfl, by dsimp only; decide +kernel⟩, ⟨_, rfl, _, rfl, by dsimp only; decide +kernel⟩⟩

theorem hyps_HomeEvents_slices :
    HE (sliceS fun x => { x with fills := [noFill], lines := [⟨0x500, 0, false, 0, 0, none, true, true, false, []⟩] }) 14 (n := 0x500) ∧
    HE (withA (devS (.hmsg 9)) idle0) 15 (a := devS (.hmsg 9)) (tok := 9) ∧
    HE ((sliceS fun x => { x with events := [msgEv], table := [(12, 2 ^ 63 + 2 ^ 38)] }).modForme fun m =>
      { m with tenants := [(0, 2 ^ 48)] }) 16 ∧
    HE (sliceS fun x => { x with run := some run0 }) 17 ∧ HE (sliceS fun x => { x with run := some run0 }) 18 ∧
    HE (sliceS fun x => { x with run := some { run0 with used := 0 } }) 19 (r := { run0 with used := 0 }) ∧
    HE (idle0.modForme fun m => { m with replies := [⟨0x1000000000, 5, 0, 0⟩] }) 20 (n := 0) ∧
    HE (idle0.modForme fun m => { m with replies := [⟨0, 5, 0, 0⟩] }) 21 (n := 0) (y := ⟨0, 5, 0, 0⟩) :=
  ⟨⟨_, rfl, _, rfl, by dsimp only; decide +kernel⟩,
   ⟨_, rfl, _, rfl, by dsimp only; exact ⟨by decide +kernel, rfl, rfl, by decide +kernel, rfl, by decide +kernel,
     by decide +kernel, by decide +kernel, by decide +kernel, by decide +kernel, by decide +kernel⟩⟩,
   ⟨_, rfl, _, rfl, by dsimp only; decide +kernel⟩, ⟨_, rfl, _, rfl, by dsimp only; decide +kernel⟩,
   ⟨_, rfl, _, rfl, by dsimp only; decide +kernel⟩, ⟨_, rfl, _, rfl, by dsimp only; decide +kernel⟩,
   ⟨_, rfl, _, rfl, by dsimp only; decide +kernel⟩, ⟨_, rfl, _, rfl, by dsimp only; decide +kernel⟩⟩

/-! ### The copy engine -/

def jobS (y : Copy) (f : Cluster → Cluster := id) (g : Forme → Forme := id) : State :=
  (idle0.modForme g).modCluster 0 fun c => f { c with copies := [y] }
def jobAcc (st : AccSt) : Access := { devS .load with eng := 8, st := st }
def galley0 : Galley := ⟨0, .wr, srcPattern [], 0, [(7, Option.none)], 0, .byp, 0, 0⟩

/-- A row of the copy engine's events, on job 7 of cluster 0. -/
def EE (s : State) (i : Nat) (y : Copy) (c : CpyKind := .cpy) (bs : List Byte := List.replicate 8 1) (p := 0x200) (va := 0x200) (len := 8)
    (tag := 7) (a := jobAcc .refused) (x := galley0) (base := 0x100000) (wid := 0) (mode := RegMode.stash) : Prop :=
  Met (engineEvents s 0 0 7 y c bs p va len tag a x 0 0 base wid mode false) s i

theorem hyps_EngineEvents_copies :
    (let y := job0 .cpy .queued; EE (jobS y fun c => { c with copies := [{ y with id := 6 }, y] }) 0 y) ∧
    (let y := job0 .cpyt .queued 0x100; EE (jobS y) 1 y (c := .cpyt)) ∧ (let y := job0 .cpy .queued; EE (jobS y) 2 y) ∧
    (let y := { job0 .cpy .reading with parts := [(9, 0x100, [])] }; EE (jobS y) 3 y) ∧
    (let y := job0 .cpy .reading; EE (jobS y) 4 y) ∧ (let y := job0 .cpy .writing; EE (jobS y) 5 y) ∧
    (let y := job0 .cpy .reading; EE (jobS y) 6 y) ∧
    (let y := job0 .cpy .reading; EE (withA (jobAcc .refused) (jobS y)) 7 y) ∧
    (let y := job0 .cpy .writing
     EE (lockedAt 0x50000 { jobS y with accs := [jobAcc .refused, { devS .store with id := 9, eng := 8 }] }) 8 y) ∧
    (let y := job0 .cpy .reading; EE (jobS y) 9 y) :=
  ⟨⟨_, rfl, _, rfl, by dsimp only [jobAt, copyMoves, jobMoves]; decide +kernel⟩,
   ⟨_, rfl, _, rfl, by dsimp only [jobAt, copyMoves, jobMoves, jobHome]; decide +kernel⟩,
   ⟨_, rfl, _, rfl, by
      dsimp only [jobAt, copyMoves, jobMoves, intact]
      refine ⟨by decide +kernel, rfl, by decide +kernel, rfl, by decide +kernel, rfl, by decide +kernel, fun z hz => ⟨1, 0x100, ?_⟩⟩
      have h : sourceSegs .cpy (job0 .cpy .queued).desc [] ++ (if (srcPattern (job0 .cpy .queued).desc).space = 0 then
          byteRuns (sourceSegs .cpy (job0 .cpy .queued).desc []) else sourceSegs .cpy (job0 .cpy .queued).desc []) =
            [(0x100, 8), (0x100, 8)] := by decide +kernel
      obtain rfl : z = (0x100, 8) := by simpa [h] using hz
      decide +kernel⟩,
   ⟨_, rfl, _, rfl, by dsimp only [jobAt]; decide +kernel⟩, ⟨_, rfl, _, rfl, by dsimp only [jobAt]; decide +kernel⟩,
   ⟨_, rfl, _, rfl, by dsimp only [jobAt, jobHome]; decide +kernel⟩, ⟨_, rfl, _, rfl, by dsimp only [jobAt]; decide +kernel⟩,
   ⟨_, rfl, _, rfl, by dsimp only [jobAt, jobHome]; decide +kernel⟩, ⟨_, rfl, _, rfl, by dsimp only [jobAt]; decide +kernel⟩,
   ⟨_, rfl, _, rfl, by dsimp only; decide +kernel⟩⟩

theorem hyps_EngineEvents_galleys :
    (let y := { job0 (.gfill 0 7) .reading with gesz := 8, gaddrs := [0x100] }; EE (jobS y) 10 y) ∧
    (let y := job0 (.gstore 0 0) .writing; EE (jobS y fun c => { c with galleys := [(0, galley0)] }) 11 y) ∧
    EE idle0 12 (job0 .cpy .queued) :=
  ⟨⟨_, rfl, _, rfl, by dsimp only; decide +kernel⟩, ⟨_, rfl, _, rfl, by dsimp only; decide +kernel⟩,
   ⟨_, rfl, _, rfl, by dsimp only; decide +kernel⟩⟩

theorem hyps_EngineEvents_regions :
    (let y := job0 (.unbind Option.none) .queued; EE (jobS y fun c => { c with copies := [{ y with id := 6, op := .cpy }, y] }) 13 y) ∧
    (let y := job0 (.unbind Option.none) .queued; EE (jobS y) 14 y) ∧
    (let y := job0 (.reshape 0 .stash) .writing; EE (jobS y) 15 y) ∧
    (let y := { job0 (.reshape 0 .stash) .writing with due := 99 }; EE (jobS y) 16 y) ∧
    (let y := job0 (.reshape 0 .stash) .queued; EE (withA { anAcc with id := 3, tr := .ok 0x100 3 } (jobS y)) 17 y) ∧
    (let y := job0 (.reshape 0 .stash) .queued; EE (jobS y) 18 y) ∧
    (let y := job0 (.stash 0 0x100000) .queued; EE (jobS y) 19 y) ∧ (let y := job0 (.cwb 0 false) .queued; EE (jobS y) 20 y) :=
  ⟨⟨_, rfl, _, rfl, by dsimp only [jobAt, jobMoves]; decide +kernel⟩,
   ⟨_, rfl, _, rfl, by dsimp only [jobAt, jobMoves, jobHome]; decide +kernel⟩,
   ⟨_, rfl, _, rfl, by dsimp only [jobAt, jobMoves]; decide +kernel⟩, ⟨_, rfl, _, rfl, by dsimp only [jobAt, jobMoves]; decide +kernel⟩,
   ⟨_, rfl, _, rfl, by dsimp only [jobAt, jobMoves]; decide +kernel⟩, ⟨_, rfl, _, rfl, by dsimp only [jobAt, jobMoves]; decide +kernel⟩,
   ⟨_, rfl, _, rfl, by dsimp only [jobAt, jobMoves]; decide +kernel⟩, ⟨_, rfl, _, rfl, by dsimp only [jobAt, jobMoves]; decide +kernel⟩⟩

def winDesc : List Word := [0x100000000000, 0, .ofNat 64 (3 * 2 ^ 50), 0, 0, 0, 0, 0]
theorem hyps_EngineEvents_windows :
    (let y := job0 (.rwin 0 0) .queued; EE (jobS y (g := fun m => { m with windows := [win0] })) 21 y) ∧
    (let y := job0 (.rwin 0 0) .queued; EE (jobS y) 22 y) ∧
    (let y := { job0 (.rwin 8 0) .queued with desc := winDesc }; EE (jobS y (g := fun m => { m with windows := List.replicate 4 win0 })) 23 y) ∧
    (let y := { job0 (.rwin 8 0) .queued with desc := winDesc }; EE (jobS y) 24 y) :=
  ⟨⟨_, rfl, _, rfl, by dsimp only [jobAt, jobMoves, jobHome]; exact ⟨by decide +kernel, rfl, by decide, by decide +kernel, rfl, win0, by decide +kernel⟩⟩,
   ⟨_, rfl, _, rfl, by dsimp only [jobAt, jobMoves, jobHome]; decide +kernel⟩,
   ⟨_, rfl, _, rfl, by dsimp only [jobAt, jobMoves, jobHome]; decide +kernel⟩,
   ⟨_, rfl, _, rfl, by dsimp only [jobAt, jobMoves, jobHome, openTo, heldNowhere, lineFree]; decide +kernel⟩⟩

/-! ### Resets, errors and the host's accesses to device memory -/

def chipS (st : ChipSt) : State := { idle0 with chips := [(0, st)] }
def busyAcc : Access := { devS .load with cl := 0, st := .home }

/-- A row of the module's events, on chiplet 0, memory chiplet 0 and link, line or row n. -/
def ME (s : State) (i : Nat) (n := 3) (T := 0) (K := 0) (C := 0) (pa := 0x50000) (c := true) (v : BitVec 64 := 5) : Prop :=
  Met (moduleEvents s 0 0 n T K C pa c v) s i

theorem hyps_ModuleEvents_chiplets :
    ME idle0 0 ∧ ME (chipS .down) 1 ∧ ME idle0 2 ∧ ME (chipS .down) 3 ∧ ME ((chipS .draining).setCtx 0 0 Ctx.reset) 4 ∧
    ME (chipS .draining) 5 ∧ ME (chipS (.quiesce 0 true)) 6 ∧ ME (withA busyAcc (chipS (.quiesce 0 true))) 7 ∧ ME (chipS .inReset) 8 :=
  ⟨⟨_, rfl, _, rfl, by dsimp only; decide +kernel⟩, ⟨_, rfl, _, rfl, by dsimp only; decide +kernel⟩,
   ⟨_, rfl, _, rfl, by dsimp only; decide +kernel⟩, ⟨_, rfl, _, rfl, by dsimp only; decide +kernel⟩,
   ⟨_, rfl, _, rfl, by dsimp only; decide +kernel⟩, ⟨_, rfl, _, rfl, by dsimp only; decide +kernel⟩,
   ⟨_, rfl, _, rfl, by dsimp only; decide +kernel⟩, ⟨_, rfl, _, rfl, by dsimp only; decide +kernel⟩,
   ⟨_, rfl, _, rfl, by dsimp only; decide +kernel⟩⟩

theorem hyps_ModuleEvents_memory :
    ME idle0 9 ∧ ME (idle0.modForme fun m => { m with memDown := [0] }) 10 ∧ ME (idle0.modForme fun m => { m with memDown := [0] }) 11 ∧
    ME idle0 12 ∧ ME idle0 13 ∧ ME (idle0.modForme fun m => { m with links := [(3, 8)] }) 14 ∧
    ME (idle0.modForme fun m => { m with links := [(3, 8)], failover := [0] }) 15 ∧ ME idle0 16 :=
  ⟨⟨_, rfl, _, rfl, by dsimp only; decide +kernel⟩, ⟨_, rfl, _, rfl, by dsimp only; decide +kernel⟩,
   ⟨_, rfl, _, rfl, by dsimp only; decide +kernel⟩, ⟨_, rfl, _, rfl, by dsimp only; decide +kernel⟩,
   ⟨_, rfl, _, rfl, by dsimp only; decide +kernel⟩, ⟨_, rfl, _, rfl, by dsimp only [secondPlane]; decide +kernel⟩,
   ⟨_, rfl, _, rfl, by dsimp only [secondPlane]; decide +kernel⟩, ⟨_, rfl, _, rfl, by dsimp only; decide +kernel⟩⟩

theorem hyps_ModuleEvents_errors :
    ME idle0 17 ∧ ME (sliceS fun x => { x with lines := [⟨0x500, 0, false, 0, 0, none, false, false, false, []⟩] }) 18 (n := 0x500) ∧
    ME idle0 19 ∧ ME idle0 20 ∧ ME idle0 21 ∧ ME idle0 22 ∧ ME idle0 23 (c := false) ∧ ME idle0 24 ∧ ME idle0 25 ∧
    ME { idle0.modForme fun m => { m with cecc := [(3, (0, 2))] } with cycle := 2 ^ 30 } 26 :=
  ⟨⟨_, rfl, _, rfl, trivial⟩, ⟨_, rfl, _, rfl, by dsimp only; decide +kernel⟩, ⟨_, rfl, _, rfl, trivial⟩,
   ⟨_, rfl, _, rfl, by dsimp only; decide +kernel⟩, ⟨_, rfl, _, rfl, by dsimp only; decide +kernel⟩,
   ⟨_, rfl, _, rfl, by dsimp only; decide +kernel⟩, ⟨_, rfl, _, rfl, by dsimp only; decide +kernel⟩,
   ⟨_, rfl, _, rfl, trivial⟩, ⟨_, rfl, _, rfl, by dsimp only; decide +kernel⟩, ⟨_, rfl, _, rfl, by dsimp only; decide +kernel⟩⟩

theorem hyps_ModuleEvents_host : ME (readyF id) 27 ∧ ME idle0 28 ∧ ME idle0 29 ∧ ME idle0 30 (n := 0) ∧
    ME (lockedAt 0x50000 (readyF id)) 31 ∧ ME (readyF id) 32 ∧ ME (readyF id) 33 ∧ ME (lockedAt 0x50000 (readyF id)) 34 ∧ ME idle0 35 ∧
    ME idle0 36 :=
  ⟨⟨_, rfl, _, rfl, by dsimp only [hostOpen, openTo, heldNowhere, lineFree]; decide +kernel⟩, ⟨_, rfl, _, rfl, by dsimp only; decide +kernel⟩,
   ⟨_, rfl, _, rfl, by dsimp only; decide +kernel⟩, ⟨_, rfl, _, rfl, by dsimp only; decide +kernel⟩,
   ⟨_, rfl, _, rfl, by dsimp only [hostHeld]; decide +kernel⟩, ⟨_, rfl, _, rfl, by dsimp only [hostOpen]; decide +kernel⟩,
   ⟨_, rfl, _, rfl, by dsimp only [hostOpen, openTo, heldNowhere, lineFree]; decide +kernel⟩,
   ⟨_, rfl, _, rfl, by dsimp only [hostHeld]; decide +kernel⟩,
   ⟨_, rfl, _, rfl, by dsimp only; decide +kernel⟩, ⟨_, rfl, _, rfl, by dsimp only; decide +kernel⟩⟩

/-! ### Power, sensors, the debugger and starts -/

def noImage : Image := Image.empty
def winS (w : Nat) (duty : List Nat := []) : State :=
  { idle0.modCluster 0 fun c => { c with win := w, duty := duty } with cycle := 256 }
def haltS (st : CtxSt) : State :=
  withL noLaunch ((idle0.modForme fun m => { m with haltedChips := [0] }).modCtx 0 0 fun x => { x with st := st })
def starting (f : Forme → Forme) : State := idle0.modForme fun m => f { m with starting := true }

/-- A row of these events, on cluster, chiplet and context 0. -/
def PE (s : State) (i : Nat) (s2 := s) (n := 0) (T := 0) (amps := 0) (t1 : Int := 50) (im := noImage) : Prop :=
  Met (powerEvents s s2 0 0 n T amps t1 t1 t1 noLaunch im 0 0) s i

theorem hyps_PowerEvents_windows :
    PE (winS 2) 0 ∧ PE (winS 1) 1 ∧ PE idle0 2 ∧ PE (winS 1 (List.replicate 16 255)) 3 ∧ PE idle0 4 ∧ PE idle0 5 ∧ PE idle0 6 (t1 := 130) ∧
    PE (idle0.modForme fun m => { m with temps := [(0, ⟨110, 25⟩)] }) 7 ∧ PE (idle0.modForme fun m => { m with throttled := [0] }) 8 ∧
    PE (idle0.modForme fun m => { m with throttled := [0] }) 9 ∧ PE idle0 10 ∧
    PE (idle0.modForme fun m => { m with temps := [(0, ⟨130, 25⟩)] }) 11 ∧ PE idle0 12 :=
  ⟨⟨_, rfl, _, rfl, by dsimp only; decide +kernel⟩, ⟨_, rfl, _, rfl, by dsimp only; decide +kernel⟩,
   ⟨_, rfl, _, rfl, by dsimp only; decide +kernel⟩, ⟨_, rfl, _, rfl, by dsimp only; decide +kernel⟩,
   ⟨_, rfl, _, rfl, by dsimp only; decide +kernel⟩, ⟨_, rfl, _, rfl, by dsimp only; decide +kernel⟩,
   ⟨_, rfl, _, rfl, by dsimp only; decide +kernel⟩, ⟨_, rfl, _, rfl, by dsimp only [hot]; decide +kernel⟩,
   ⟨_, rfl, _, rfl, by dsimp only; exact ⟨by decide +kernel, .inl (by decide +kernel)⟩⟩,
   ⟨_, rfl, _, rfl, by dsimp only [hot]; decide +kernel⟩,
   ⟨_, rfl, _, rfl, by dsimp only; exact ⟨by decide +kernel, .inl (by decide +kernel)⟩⟩,
   ⟨_, rfl, _, rfl, by dsimp only; decide +kernel⟩, ⟨_, rfl, _, rfl, by dsimp only; decide +kernel⟩⟩

theorem hyps_PowerEvents_current :
    PE (idle0.modForme fun m => { m with railAmps := 7701 }) 13 ∧ PE idle0 14 ∧
    PE { idle0.modForme fun m => { m with lowSince := some 0, halvings := 1 } with cycle := 2 ^ 20 } 15 ∧
    PE (idle0.modForme fun m => { m with lowSince := some 0 }) 16 ∧ PE idle0 17 (n := 1000) (amps := 2000) ∧
    PE idle0 18 (n := 1000) (amps := 1000) :=
  ⟨⟨_, rfl, _, rfl, by dsimp only; decide +kernel⟩, ⟨_, rfl, _, rfl, by dsimp only; decide +kernel⟩,
   ⟨_, rfl, _, rfl, by dsimp only; decide +kernel⟩, ⟨_, rfl, _, rfl, by dsimp only; decide +kernel⟩,
   ⟨_, rfl, _, rfl, by dsimp only; decide +kernel⟩, ⟨_, rfl, _, rfl, by dsimp only; decide +kernel⟩⟩

/-- The record of the halted group, written; every other context stands. -/
def savingHalted : State := (haltS .halted).modCtx 0 0 fun y =>
  { y with stopWait := y.wait.isStop, stopNr0 := !y.nr, nestsAt := some ((haltS .halted).ownedPlanes 0 0) }
def debugS : Option State := savingHalted.writeRecord noLaunch 0 0 3
theorem otherCtx {s : State} (h : s.ctxs.map Prod.fst = [0]) (k c : Nat) (hk : 4 * k + c ≠ 0) : s.ctx k c = Ctx.reset := by
  obtain ⟨⟨_, x⟩, l, hx, rfl, hl⟩ := List.map_eq_cons_iff.1 h
  obtain rfl := List.map_eq_nil_iff.1 hl
  simp [State.ctx, hx, sget, Ne.symm hk]

/-- Where no slice and no region holds anything, and no access is in flight, only a held page holds an agent back. -/
theorem spanFree_noSlices {s : State} (h : s.slices = []) (hc : s.NoCopies) (hs : s.accs = []) {asid va n : Nat}
    (hw : (pageParts va n).all (fun p => match s.walk asid p.1 with | .hold => false | _ => true) = true) :
    s.spanFree asid va n = true := by
  have hl : ∀ l, s.lineLocked l = false := fun l => by simp [State.lineLocked, State.slice, h, sget, Slice.locked, Slice.reset]
  have ha : ∀ pa m, s.agentFree pa m = true := fun pa m => by simp [State.agentFree, State.hostFree, hl, hs]
  have hr : ∀ ls, (s.reclaimAll ls none false).isSome = true := fun ls => by
    obtain ⟨u, hu, -⟩ := reclaimAll_only hc ls false
    simp [hu]
  simp only [State.spanFree, List.all_eq_true] at hw ⊢
  intro p hp
  have := hw p hp
  cases hq : s.walk asid p.1 <;> simp_all

theorem halted_free : (haltS .halted).haltedFree 0 0 = true := by
  have hl : (haltS .halted).launch? (((haltS .halted).ctx 0 0).bnd.launch - 1) = some noLaunch := by decide +kernel
  dsimp only [State.haltedFree]
  rw [hl]
  simp only [Option.all_some, Bool.or_eq_true]
  exact .inr (spanFree_noSlices (by decide +kernel) (by unfold State.NoCopies; decide +kernel) (by decide +kernel) (by decide +kernel))

theorem hyps_PowerEvents_debugger :
    PE idle0 19 ∧ (∃ s2, PE (haltS .halted) 20 (s2 := s2)) ∧ PE (haltS .halted) 21 ∧ PE idle0 22 := by
  have hs : debugS.isSome = true := by decide +kernel
  have h0 : (haltS .halted).ctxs.map Prod.fst = [0] := by decide +kernel
  obtain ⟨s2, h2⟩ := Option.isSome_iff_exists.1 hs
  have hc : savingHalted.NoCopies := by unfold State.NoCopies; decide +kernel
  have hk2 : s2.ctxs.map Prod.fst = [0] := by rw [writeRecord_ctxs hc h2]; decide +kernel
  refine ⟨⟨_, rfl, _, rfl, by dsimp only; decide +kernel⟩, ⟨s2, _, rfl, _, rfl, ?_⟩,
    ⟨_, rfl, _, rfl, by dsimp only; decide +kernel⟩, ⟨_, rfl, _, rfl, by dsimp only; decide +kernel⟩⟩
  dsimp only
  refine ⟨by decide +kernel, by decide, by decide, by decide +kernel, fun k c _ _ hn => ?_, halted_free, by decide +kernel, h2, fun k c hn => ?_⟩
  · rw [otherCtx h0 k c hn]; decide
  · rw [otherCtx hk2 k c hn, otherCtx h0 k c hn]

/-- A start that has come to a state. -/
def atStart (st : BitVec 32) (f : Forme → Forme) : State := State.reset.modForme fun m => f { m with starting := true, mstat := st }

theorem hyps_PowerEvents_starts :
    PE idle0 23 ∧ PE idle0 24 ∧ PE idle0 25 ∧ PE idle0 26 ∧ PE (starting id) 27 ∧ PE idle0 28 ∧ PE (atStart 0 id) 29 ∧
    PE (atStart 1 fun m => { m with slots := [] }) 30 ∧ PE idle0 43 ∧ PE (starting id) 44 ∧ PE (starting fun m => { m with failed := 2 }) 45 ∧
    PE idle0 46 :=
  ⟨⟨_, rfl, _, rfl, by dsimp only; decide +kernel⟩, ⟨_, rfl, _, rfl, by dsimp only; decide +kernel⟩,
   ⟨_, rfl, _, rfl, by dsimp only; decide +kernel⟩, ⟨_, rfl, _, rfl, by dsimp only; decide +kernel⟩,
   ⟨_, rfl, _, rfl, by dsimp only; decide +kernel⟩, ⟨_, rfl, _, rfl, by dsimp only; decide +kernel⟩,
   ⟨_, rfl, _, rfl, by dsimp only; decide +kernel⟩,
   ⟨_, rfl, _, rfl, by dsimp only; exact ⟨by decide +kernel, by decide +kernel, fun j hj => absurd hj (by
      rw [show (atStart 1 fun m => { m with slots := [] }).forme.slots = [] by decide +kernel]; exact List.not_mem_nil)⟩⟩,
   ⟨_, rfl, _, rfl, by dsimp only; decide +kernel⟩,
   ⟨_, rfl, _, rfl, by dsimp only; decide +kernel⟩, ⟨_, rfl, _, rfl, by dsimp only; decide +kernel⟩, ⟨_, rfl, _, rfl, trivial⟩⟩

/-- The rows whose premise is the outcome of a physical step (R424), which the model leaves free: each is met when it is so. -/
theorem hyps_PowerEvents_steps (st : Nat) (h : st = 2 ∨ st = 3 ∨ st = 4) :
    (Config.startStepOk 0 st = false → PE (atStart (.ofNat 32 st) id) (if st = 2 then 35 else if st = 3 then 38 else 41)) ∧
    (Config.startStepOk 0 st = true → (st = 2 → PE (atStart 2 fun m => { m with fitted := [(5, 7)] }) 36 ∧ PE (atStart 2 id) 37) ∧
      (st = 3 → PE (atStart 3 fun m => { m with startKind := 1 }) 39 ∧ PE (atStart 3 fun m => { m with startKind := 2 }) 40) ∧
      (st = 4 → PE (atStart 4 id) 42)) := by
  obtain rfl | rfl | rfl := h
  · exact ⟨fun e => ⟨_, rfl, _, rfl, by dsimp only; exact ⟨by decide +kernel, by decide +kernel, e⟩⟩, fun e => ⟨fun _ =>
      ⟨⟨_, rfl, _, rfl, by dsimp only; exact ⟨by decide +kernel, by decide +kernel, e, 5, by decide, by decide +kernel⟩⟩,
       ⟨_, rfl, _, rfl, by dsimp only; exact ⟨by decide +kernel, by decide +kernel, e, by decide +kernel⟩⟩⟩, nofun, nofun⟩⟩
  · exact ⟨fun e => ⟨_, rfl, _, rfl, by dsimp only; exact ⟨by decide +kernel, by decide +kernel, e⟩⟩, fun e => ⟨nofun, fun _ =>
      ⟨⟨_, rfl, _, rfl, by dsimp only; exact ⟨by decide +kernel, by decide +kernel, e, by decide +kernel⟩⟩,
       ⟨_, rfl, _, rfl, by dsimp only; exact ⟨by decide +kernel, by decide +kernel, e, by decide +kernel⟩⟩⟩, nofun⟩⟩
  · exact ⟨fun e => ⟨_, rfl, _, rfl, by dsimp only; exact ⟨by decide +kernel, by decide +kernel, e⟩⟩, fun e => ⟨nofun, nofun, fun _ =>
      ⟨_, rfl, _, rfl, by dsimp only; exact ⟨by decide +kernel, by decide +kernel, e⟩⟩⟩⟩

/-- A start that has come to VERIFY, with a slot whose SVN is one above the other's. -/
def oneImage : Image := { noImage with svn := 1 }
def atVerify (f : Forme → Forme) : State := atStart 1 fun m => f { m with slots := [noImage, oneImage], startKind := 1 }
/-- The rows of VERIFY, where the opaque Ed25519 (R427, R430) accepts what is signed, for a public key that the PUF's seed gives,
or does not. -/
theorem hyps_PowerEvents_verify (hv : ∀ k m g, Config.ed25519Verify k m g = true) :
    ((∀ x, Config.ed25519Public x ≠ toBytes 32 0) → PE (atVerify id) 31 (im := oneImage)) ∧
    ((∀ x, Config.ed25519Public x = toBytes 32 0) → PE (atVerify id) 32 (im := oneImage) ∧ PE (atVerify id) 33 (im := oneImage) ∧
      PE (atVerify fun m => { m with startKind := 2, trained := true, trainedBy := oneImage.bytes }) 34 (im := oneImage)) := by
  have fw : ∀ f : Forme → Forme, (∀ m, (f m).slots = m.slots) → (∀ m, (f m).idrec = m.idrec) →
      (atVerify f).forme.firmware = some oneImage := fun f h1 h2 => by
    have hs : slotOrder [noImage, oneImage] = [oneImage, noImage] := by decide +kernel
    simp only [Forme.firmware, atVerify, atStart, State.modForme, h1, hs, List.find?_cons, Forme.accepts, hv, h2, Bool.true_and]
    rfl
  have idn : ∀ f : Forme → Forme, (∀ m, (f m).idrec = m.idrec) → (∀ x, Config.ed25519Public x = toBytes 32 0) →
      (atVerify f).forme.identified = true := fun f h2 hp => by
    simp only [Forme.identified, atVerify, atStart, State.modForme, hv, hp, h2, Bool.true_and]
    rfl
  refine ⟨fun hp => ⟨_, rfl, _, rfl, ?_⟩, fun hp => ⟨⟨_, rfl, _, rfl, ?_⟩, ⟨_, rfl, _, rfl, ?_⟩, ⟨_, rfl, _, rfl, ?_⟩⟩⟩ <;> dsimp only
  · refine ⟨by decide +kernel, by decide +kernel, fw id (fun _ => rfl) fun _ => rfl, ?_⟩
    simp only [Forme.identified, hv, Bool.true_and, beq_eq_false_iff_ne, ne_eq]
    exact hp _
  · exact ⟨by decide +kernel, by decide +kernel, fw id (fun _ => rfl) fun _ => rfl, idn id (fun _ => rfl) hp, by decide +kernel⟩
  · refine ⟨by decide +kernel, by decide +kernel, ⟨noImage, .inl (by decide +kernel), by decide⟩, ?_, idn id (fun _ => rfl) hp, by decide +kernel⟩
    simp only [Forme.accepts, hv]
    decide +kernel
  · exact ⟨by decide +kernel, by decide +kernel, fw _ (fun _ => rfl) fun _ => rfl, idn _ (fun _ => rfl) hp, by decide +kernel⟩

/-! ### The handler cores -/

/-- A line of slice 0; the handler of tenant 0 with x5 and x6 as given, in a slice with lines and fills. -/
def line0 (d : BitVec 2048 := 0) : Line := ⟨0x500, d, true, 0, 0, none, false, false, false, []⟩
def runOf (x5 x6 : Word) : Run := { run0 with x := [(5, x5), (6, x6)], used := 0 }
def hartS (r : Run) (ls : List Line := []) (fs : List Fill := []) : State :=
  (sliceS fun x => { x with run := some r, lines := ls, fills := fs }).modForme fun m =>
    { m with tenants := [(0, 2 ^ 48)], ranges := [(1, 0, 2 ^ 39, true)] }
def hFills (line n : Nat) : List Fill := (List.range n).map fun i => { noFill with line := line + i, handler := true }
def locked4 (ls : List Nat) : Run := { runOf 0x50000 0 with locks := ls }

/-- A row of the handlers' instructions. -/
def HI (s : State) (i : Nat) (r : Run) (w : RvWord := .full (.op .add 3 4 5)) (o : RvOp := .op .add 3 4 5) (l := line0) (a := 0x10000) (dest := 0) : Prop :=
  Met (handlerInstrs s r 3 5 6 false .add 0x50000 dest l w o 4 a 8) s i

theorem hyps_HandlerInstructions_base :
    HI (hartS (runOf 1 2)) 0 (runOf 1 2) ∧
    HI (hartS (runOf 0x10000 2)) 1 (runOf 0x10000 2) (w := .full (.load .ld 3 5 0)) (o := .load .ld 3 5 0) ∧
    HI (hartS (runOf 0 2)) 2 (runOf 0 2) (w := .full (.load .ld 3 5 0)) (o := .load .ld 3 5 0) (a := 0) ∧ HI idle0 3 run0 :=
  ⟨⟨_, rfl, _, rfl, by dsimp only [handling]; exact ⟨.inl ⟨rfl, rfl⟩, by decide +kernel⟩⟩,
   ⟨_, rfl, _, rfl, by dsimp only [handling]; exact ⟨.inl ⟨rfl, rfl⟩, by decide +kernel⟩⟩,
   ⟨_, rfl, _, rfl, by dsimp only [handling]; exact ⟨.inl ⟨rfl, rfl⟩, by decide +kernel⟩⟩,
   ⟨_, rfl, _, rfl, by dsimp only; decide +kernel⟩⟩

/-- Sixteen other lines of a line's set, each held by an event. -/
def fullSet (line : Nat) : List Line := (List.range 16).map fun i => { line0 with line := line + (i + 1) * 393216, way := i, evLock := true }

theorem hyps_HandlerInstructions_words :
    (let r := runOf 0x50000 9
     HI (hartS r [line0]) 4 r ∧ HI (hartS r [line0]) 5 r ∧ HI (hartS r [line0]) 6 r ∧ HI (hartS r [line0 (2 ^ 64 - 1)]) 10 r ∧
     HI (hartS r [line0]) 11 r) ∧
    (let r := runOf (2 ^ 63) 9; HI (hartS r) 7 r ∧ HI (hartS r) 9 r) ∧
    (let r := runOf 0x50000 9; HI (hartS r [] [noFill]) 8 r) ∧
    (let r := runOf 0x50000 9
     HI (hartS r (line0 0x50400 :: fullSet 0x504)) 12 r (dest := 0x50400)) :=
  have h : ∃ l, (hartS (runOf 0x50000 9) [line0]).sl.line? 0x500 = some l ∧ l.poison = false := ⟨line0, by decide +kernel⟩
  have h2 : ∃ l, (hartS (runOf 0x50000 9) [line0 (2 ^ 64 - 1)]).sl.line? 0x500 = some l ∧ l.poison = false :=
    ⟨line0 (2 ^ 64 - 1), by decide +kernel⟩
  have h3 : ∃ l, (hartS (runOf 0x50000 9) (line0 0x50400 :: fullSet 0x504)).sl.line? 0x500 = some l ∧ l.poison = false :=
    ⟨line0 0x50400, by decide +kernel⟩
  ⟨⟨⟨_, rfl, _, rfl, by dsimp only [handling, wordAt, noCopies]; exact ⟨by decide +kernel, ⟨by decide +kernel, by decide, h⟩, by decide +kernel⟩⟩,
    ⟨_, rfl, _, rfl, by dsimp only [handling, wordAt, noCopies]; exact ⟨by decide +kernel, ⟨by decide +kernel, by decide, h⟩, by decide +kernel⟩⟩,
    ⟨_, rfl, _, rfl, by dsimp only [handling, wordAt, noCopies]; exact ⟨by decide +kernel, ⟨by decide +kernel, by decide, h⟩, by decide +kernel⟩⟩,
    ⟨_, rfl, _, rfl, by
      dsimp only [handling, wordAt, noCopies]
      exact ⟨by decide +kernel, ⟨by decide +kernel, by decide, h2⟩, by decide +kernel, by decide +kernel⟩⟩,
    ⟨_, rfl, _, rfl, by
      dsimp only [handling, wordAt, noCopies, roomFor]
      exact ⟨by decide +kernel, ⟨by decide +kernel, by decide, h⟩, by decide +kernel, by decide +kernel⟩⟩⟩,
   ⟨⟨_, rfl, _, rfl, by dsimp only; exact ⟨by decide +kernel, .inl (by decide +kernel)⟩⟩,
    ⟨_, rfl, _, rfl, by dsimp only; exact ⟨by decide +kernel, .inl (by decide +kernel)⟩⟩⟩,
   ⟨_, rfl, _, rfl, by dsimp only [handling]; decide +kernel⟩,
   ⟨_, rfl, _, rfl, by
      dsimp only [handling, wordAt, noCopies]
      exact ⟨by decide +kernel, ⟨by decide +kernel, by decide, h3⟩, by decide +kernel, by decide +kernel⟩⟩⟩

theorem hyps_HandlerInstructions_locks :
    (let r := runOf 0x50000 0; HI (hartS r) 13 r ∧ HI (hartS r [line0]) 15 r ∧ HI (hartS r) 17 r) ∧
    (let r := locked4 [0x500]; HI (hartS r [line0]) 14 r) ∧
    (let r := { locked4 [1, 2, 3, 4] with ev := { msgEv with kind := 1, laddr := 0x50000 } }; HI (hartS r [line0]) 14 r) ∧
    (let r := locked4 [1, 2, 3, 4]; HI (hartS r [line0]) 16 r) ∧ (let r := runOf (2 ^ 63) 0; HI (hartS r) 18 r) :=
  ⟨⟨⟨_, rfl, _, rfl, by dsimp only [handling]; decide +kernel⟩, ⟨_, rfl, _, rfl, by dsimp only [handling]; decide +kernel⟩,
    ⟨_, rfl, _, rfl, by dsimp only [handling]; decide +kernel⟩⟩,
   ⟨_, rfl, _, rfl, by dsimp only [handling]; decide +kernel⟩, ⟨_, rfl, _, rfl, by dsimp only [handling]; decide +kernel⟩,
   ⟨_, rfl, _, rfl, by dsimp only [handling]; decide +kernel⟩, ⟨_, rfl, _, rfl, by dsimp only; decide +kernel⟩⟩

theorem hyps_HandlerInstructions_fills :
    (let r := runOf (2 ^ 63) 0; HI (hartS r) 19 r ∧ HI (hartS r) 28 r) ∧
    (let r := runOf 0x50000 0
     HI (hartS r [line0]) 20 r ∧ HI (hartS r [] [noFill]) 21 r ∧ HI (hartS r [] (hFills 0x600 16)) 22 r ∧ HI (hartS r) 23 r ∧
     HI (hartS r (fullSet 0x500)) 24 r ∧ HI (hartS r [line0]) 25 r ∧ HI (hartS r [line0]) 27 r) ∧
    (let r := { runOf 0x50000 0 with ev := { msgEv with kind := 1, laddr := 0x50000 } }; HI (hartS r [line0]) 26 r) :=
  ⟨⟨⟨_, rfl, _, rfl, by dsimp only [handling]; decide +kernel⟩, ⟨_, rfl, _, rfl, by dsimp only; decide +kernel⟩⟩,
   ⟨⟨_, rfl, _, rfl, by dsimp only [handling]; decide +kernel⟩, ⟨_, rfl, _, rfl, by dsimp only [handling]; decide +kernel⟩,
    ⟨_, rfl, _, rfl, by dsimp only [handling]; decide +kernel⟩, ⟨_, rfl, _, rfl, by dsimp only [handling, roomFor]; decide +kernel⟩,
    ⟨_, rfl, _, rfl, by dsimp only [handling]; decide +kernel⟩, ⟨_, rfl, _, rfl, by dsimp only [handling, noCopies]; decide +kernel⟩, ⟨_, rfl, _, rfl, by dsimp only [handling]; decide +kernel⟩⟩,
   ⟨_, rfl, _, rfl, by dsimp only; decide +kernel⟩⟩

theorem hyps_HandlerInstructions_asks :
    (let r := runOf (2 ^ 63) 0; HI (hartS r) 29 r ∧ HI (hartS r) 34 r ∧ HI (hartS r) 35 r) ∧
    (let r := runOf 0x50000 0
     HI (hartS r [line0]) 30 r ∧ HI (hartS r [] [noFill]) 32 r ∧ HI (hartS r [line0]) 33 r ∧ HI (hartS r [line0]) 36 r ∧
     HI (hartS r) 37 r) ∧
    (let r := { runOf 0x50000 0 with wait := .fill 0x500 }; HI (hartS r [line0]) 31 r) ∧
    (let r := runOf 0x10000 0; HI (hartS r) 38 r) ∧ (let r := runOf 2 0; HI (hartS r) 39 r ∧ HI (hartS r) 40 r ∧ HI (hartS r) 42 r) ∧
    (let r := runOf 0 0; HI (hartS r) 41 r) :=
  ⟨⟨⟨_, rfl, _, rfl, by dsimp only [handling]; exact ⟨by decide +kernel, .inl (by decide +kernel)⟩⟩,
    ⟨_, rfl, _, rfl, by dsimp only; exact ⟨by decide +kernel, .inl (by decide +kernel)⟩⟩,
    ⟨_, rfl, _, rfl, by dsimp only [handling]; decide +kernel⟩⟩,
   ⟨⟨_, rfl, _, rfl, by dsimp only [handling]; decide +kernel⟩, ⟨_, rfl, _, rfl, by dsimp only [handling]; decide +kernel⟩,
    ⟨_, rfl, _, rfl, by dsimp only [handling]; decide +kernel⟩, ⟨_, rfl, _, rfl, by dsimp only [handling]; decide +kernel⟩,
    ⟨_, rfl, _, rfl, by dsimp only [handling]; decide +kernel⟩⟩,
   ⟨_, rfl, _, rfl, by dsimp only [handling]; decide +kernel⟩, ⟨_, rfl, _, rfl, by dsimp only [handling]; decide +kernel⟩,
   ⟨⟨_, rfl, _, rfl, by dsimp only; decide +kernel⟩, ⟨_, rfl, _, rfl, by dsimp only [handling]; decide +kernel⟩,
    ⟨_, rfl, _, rfl, by dsimp only [handling]; decide +kernel⟩⟩,
   ⟨_, rfl, _, rfl, by dsimp only [handling]; exact ⟨by decide +kernel, .inl (by decide +kernel)⟩⟩⟩

theorem hyps_HandlerInstructions_messages :
    (let r := runOf 0x10000 (2 ^ 63); HI (hartS r) 43 r) ∧ (let r := runOf 0x10000 0x50000; HI (hartS r) 44 r) ∧
    (let r := runOf 0x10000 (2 ^ 39); HI (hartS r) 45 r) ∧ (let r := runOf 0 0; HI (hartS r) 46 r) :=
  ⟨⟨_, rfl, _, rfl, by dsimp only [handling]; decide +kernel⟩, ⟨_, rfl, _, rfl, by dsimp only [handling]; decide +kernel⟩,
   ⟨_, rfl, _, rfl, by dsimp only [handling]; decide +kernel⟩, ⟨_, rfl, _, rfl, by dsimp only; decide +kernel⟩⟩

/-! ### Encodings, steps, memory -/

def nexts (o : Host.Outcome State Fault Refusal) : Bool := match o with | .next _ => true | _ => false
theorem next_of {o : Host.Outcome State Fault Refusal} (h : nexts o = true) : ∃ t, o = .next t := by
  cases o <;> simp_all [nexts]
theorem ok_of {α β : Type} {x : Except α β} (h : x.toOption.isSome = true) : ∃ y, x = .ok y := by
  cases x <;> simp_all [Except.toOption]
theorem error_of {α β : Type} {x : Except α β} (h : x.toOption.isSome = false) : ∃ y, x = .error y := by
  cases x <;> simp_all [Except.toOption]

theorem hyps_BundleEncoding :
    slotKind .s ∧ encodable .s false ⟨false, 0, .add 3 1 2 0⟩ ∧
      (∃ e, decodeSlot .s false 0x00200C1080000000 = .ok e) ∧ encodableBundle addB ∧ encodableBundle blkB := by
  refine ⟨by simp [slotKind], .inl (by decide +kernel), ok_of (by decide +kernel), ⟨fun n _ => ?_, by decide +kernel, by decide, nofun, by decide +kernel⟩,
    ⟨fun n _ => ?_, by decide +kernel, by decide, fun _ => ⟨rfl, rfl, _, rfl, by decide⟩, by decide +kernel⟩⟩
  · cases n <;> first | exact .inl (by decide +kernel) | exact .inr (.inl rfl)
  · cases n <;> first | exact .inl (by decide +kernel) | exact .inr (.inl rfl) | exact .inr (.inr ⟨rfl, rfl, _, rfl⟩)

theorem hyps_HandlerEncoding : encodableHandler (.slret 0) ∧ encodableHandler (.handlerBase (.compressed 0x852E)) :=
  ⟨⟨rfl, nofun⟩, ⟨rfl, fun b h => by cases h; decide +kernel⟩⟩

/-- A slot that the predicate p1 turns off; the state that a bundle of context 0 is fetched in. -/
def slotted (pn : Bool) : State := { on with slots := [⟨pn, 0, .add 3 1 2 0⟩], slotNos := [.s] }
def fetching : State := ((at0 addB id).landDue 0 0 (((at0 addB id).ctx 0 0).bundle + 1)).aim 0 0
def fetchingBad : State := (((at0 addB id).agentWrite 0 (List.replicate 64 255)).landDue 0 0 (((at0 addB id).ctx 0 0).bundle + 1)).aim 0 0
def fetched (x : Nat × State ⊕ Try) : Option Nat := match x with | .inl y => some y.1 | _ => Option.none
theorem inl_of {x : Nat × State ⊕ Try} {w : Nat} (h : fetched x = some w) : ∃ s1, x = .inl (w, s1) := by
  cases x with
  | inl y => exact ⟨y.2, by cases y; simp_all [fetched]⟩
  | inr _ => simp [fetched] at h
/-- A handler whose next instruction is slret x0. -/
def hartAt : State := (((hartS (runOf 0 0)).modSlice 0 fun x =>
  { x with code := [(0, 0x2B), (1, 0x20)] }).modForme fun m => { m with tenants := [(0, 2 ^ 48 + 2 ^ 24)] })

theorem hyps_StepRunsDecoded :
    (∃ t, exec (.add 3 1 2 0) ((slotted false).nextSlot .s) = .next t ∧ ((slotted false).nextSlot .s).enabled ⟨false, 0, .add 3 1 2 0⟩ = true) ∧
    ((slotted true).nextSlot .s).enabled ⟨true, 0, .add 3 1 2 0⟩ = false ∧
    idle0.slots = [] ∧ idle0.agenda = [] ∧
    ((hartAt.slice 0).run = some (runOf 0 0) ∧ (runOf 0 0).wait = .none ∧ (hartAt.slice 0).codeRead 0 2 % 4 = 3 ∧
      (hartAt.codePart 0).1 ≤ 0 ∧ 0 + 4 ≤ (hartAt.codePart 0).2 ∧ decodeHandler ((hartAt.slice 0).codeRead 0 4) = some (.slret 0)) ∧
    ((at0 addB id).ctx 0 0).rest = [] ∧ (∃ w s1 b, fetching.fetchBundle = .inl (w, s1) ∧ decodeBundle w = .ok b) ∧
    (∃ w s1 e, fetchingBad.fetchBundle = .inl (w, s1) ∧ decodeBundle w = .error e) ∧
    ∃ s1, idle0.xlate 0 1 0 .fetch = (.ok 0 0, s1) ∧ s1.linePoison (s1.linear 0) = false := by
  obtain ⟨t, ht⟩ := next_of (o := exec (.add 3 1 2 0) ((slotted false).nextSlot .s)) (by decide +kernel)
  obtain ⟨s1, h1⟩ := inl_of (x := fetching.fetchBundle) (w := encodeBundle addB) (by decide +kernel)
  obtain ⟨b, hb⟩ := ok_of (x := decodeBundle (encodeBundle addB)) (by decide +kernel)
  obtain ⟨s2, h2⟩ := inl_of (x := fetchingBad.fetchBundle) (w := 2 ^ 512 - 1) (by decide +kernel)
  obtain ⟨e, he⟩ := error_of (x := decodeBundle (2 ^ 512 - 1)) (by decide +kernel)
  exact ⟨⟨t, ht, by decide +kernel⟩, by decide +kernel, by decide +kernel, by decide +kernel, by decide +kernel, by decide +kernel,
    ⟨_, s1, b, h1, hb⟩, ⟨_, s2, e, h2, he⟩, _, snd_eq (by decide +kernel), by decide +kernel⟩

theorem hyps_TrialsUseExec : (Instr.add 3 1 2 0).kind ≠ .handler ∧ (Instr.add 3 1 2 0).kind ≠ .event := by decide

theorem hyps_MemoryStaysCanonical : Memory.wf (at0 addB id) ∧ ∃ t, step (at0 addB id) = .next t :=
  ⟨by decide +kernel, next_of (by decide +kernel)⟩

/-! ## Words that decode to nothing, and the spec's worked examples -/

/-- An opcode that no map assigns; a NOP with a bit set; a reserved field not zero; SF = 3 of the header (R238, R243). -/
theorem test_decode_rejects :
    (decodeSlot .s false (0x7F * 2 ^ 53)).toOption = none ∧ (decodeSlot .v false 1).toOption = none ∧
    (decodeSlot .s false 0x03400C1080000042).toOption = none ∧ (decodeBundle (3 * 2 ^ 509)).toOption = none ∧
    decodeHandler 0x0000000B = some (.slrd 0 0) ∧ decodeHandler 0x0200000B = none := by decide +kernel

/-- R241's example: EW = 3 and one addition, every other slot zero. -/
theorem test_bundle_example :
    encodeBundle { addB with hdr := ⟨false, 0, 3⟩, s := ⟨false, 0, .add 3 1 2 0⟩ } = 0x01800000 * 2 ^ 480 + 0x00200C1080000000 * 2 ^ 360 ∧
    (decodeBundle (0x01800000 * 2 ^ 480 + 0x00200C1080000000 * 2 ^ 360)).toOption = some { addB with hdr := ⟨false, 0, 3⟩, s := ⟨false, 0, .add 3 1 2 0⟩ } := by
  decide +kernel

/-- The state after an instruction of the bundle, or reset. -/
def after (i : Instr) (s : State) : State := match exec i s with | .next t => t | _ => State.reset

/-- R263's example: the two halves of 0x0123456789ABCDEF. -/
theorem test_li_lih :
    (((after (.li 7 0x16789ABCDEF) on).me.regs.s.lookup 7).map fun v => v.val.toNat) = some 0x16789ABCDEF ∧
    (((after (.lih 7 0x48D1) (withB fun b => { b with s := [(7, ⟨0x16789ABCDEF, false⟩)] })).me.regs.s.lookup 7).map fun v => v.val.toNat) = some 0x0123456789ABCDEF := by
  decide +kernel

/-- R45's example: 3.3, -0.7, 0.05, 5.0 as MXFP4 and as MXI8: scale, elements, NX. -/
theorem test_blocks :
    let vs := ([0x40533333, 0xBF333333, 0x3D4CCCCD, 0x40A00000] : List Nat).map Fmt.f32.decode
    let x := toBlock .mxfp4 .rne vs
    (x.1, x.2.1, x.2.2 &&& flagNX) = (0x7F, [5, 9, 0, 6], flagNX) ∧ toBlock .mxi8 .rne vs = (0x81, [0x35, 0xF5, 1, 0x50], flagNX) := by
  decide +kernel

/-- R305's example: elements 0 to 3 of v1 are 1.0, 3/128, -5/128 and 0. -/
theorem test_vcvtx :
    let t := after (.vcvtx false .f32 .mxi8 .rne 20 1 21 0) (withB fun b => { b with v := [(1, ⟨.ofNat 1024 (0x3F800000 + 0x3CC00000 * 2 ^ 32 + 0xBD200000 * 2 ^ 64), false⟩)] })
    (t.me.pend.filter fun p => p.dst == .v 20).map (fun p => p.val.toNat % 2 ^ 32) = [0x00FE0240] ∧
    (t.me.pend.filter fun p => p.dst == .v 21).map (fun p => p.val.toNat % 2 ^ 8) = [0x7F] := by
  decide +kernel

/-- Rows of R46's table: ties to E4M3 and E5M2, in the four modes. -/
theorem test_ties :
    (([.rne, .rz, .ru, .rd] : List Rm).map fun m => (convert .f32 .e4m3 m 0x41880000).1) = [0x58, 0x58, 0x59, 0x58] ∧
    (([.rne, .rz, .ru, .rd] : List Rm).map fun m => convert .f32 .e4m3 m 0x43E80000) =
      [(0x7E, flagNX), (0x7E, flagNX), (0x7E, flagNX ||| flagOF), (0x7E, flagNX)] ∧
    (([.rne, .rz, .ru, .rd] : List Rm).map fun m => (convert .f32 .e5m2 m 0x47700000).1) = [0x7C, 0x7B, 0x7C, 0x7B] := by
  decide +kernel

/-- The table after R56: the first eight coordinates of both generators. -/
theorem test_generators :
    (List.range 8).map gen1 = [0, 0x8000, 0x4000, 0xC000, 0x2000, 0xA000, 0x6000, 0xE000] ∧
    (List.range 8).map gen2 = [0, 0x8000, 0xC000, 0x4000, 0xA000, 0x2000, 0x6000, 0xE000] := by decide +kernel

/-- The counts of the example after R61, at j = 6, and the value that SACC delivers for A = -36 (R61). -/
theorem test_sites :
    (([(96, 160), (32, 224), (0, 64), (128, 32)] : List (Nat × Nat)).map fun e => siteCount false (0, 0) e.1 e.2 0 64) = [15, 7, 0, 4] ∧
    Fmt.f32.roundFin .rne true 36 (-4) false = (0xC0100000, 0) := by decide +kernel

/-- R137's example: the first scan of ten records, with W = 8 and G = 3. -/
theorem test_scan :
    let cs : List Constraint := ([(0, 1, 2), (1, 2, 3), (2, 4, 5), (3, 1, 6), (4, 3, 4), (5, 5, 6), (7, 2, 7)] : List (Nat × Nat × Nat)).map
      fun e => ⟨.ofNat 32 e.1, 2, .ofNat 96 (e.2.1 + e.2.2 * 2 ^ 24), 0⟩
    let w := cs.take 6 ++ [⟨6, 1, 7, 0⟩] ++ cs.drop 6
    (scanWindow 3 w).grp.map (fun c => c.cid.toNat) = [0, 2, 6] ∧ (scanWindow 3 w).left.map (fun c => c.cid.toNat) = [1, 3, 4, 5, 7] := by
  decide +kernel

/-- R155's example: an interleaved address, its linear alias, its home. -/
theorem test_home : idle0.linear 0x100000064A10 = 0xB400001010 ∧ idle0.home 0xB400001010 = 360 := by decide +kernel

/-- R179's example: 1.0 with 2^-61, 3 × 2^-61 and -0.5 added, in two orders. -/
theorem test_shadow :
    ((((Shadow.zero.add 0x3F800000).add 0x21000000).add 0x21C00000).add 0xBF000000).value = 0x3F000000 ∧
    ((((Shadow.zero.add 0xBF000000).add 0x21C00000).add 0x3F800000).add 0x21000000).value = 0x3F000000 := by decide +kernel

/-- R433's example: SLEWLIM 1,200 on 384 clusters. R292: 0x96 is the three-way exclusive or, 0xE8 the majority. -/
theorem test_ramp_lut :
    idle0.ramp = 1155 ∧ lut3 0x96 0b00001111 0b00110011 0b01010101 = 0b01101001 ∧
    lut3 0xE8 0b00001111 0b00110011 0b01010101 = 0b00010111 := by decide +kernel

/-- R2, R23: the numbers of a VLN-C80-M, two chiplets of each arc degraded: clusters, and the arc of cluster 40. -/
theorem test_form_c80 :
    let s := State.reset.modForme fun m => { m with degmap := 0x003003003003003003003003 }
    s.nclus = 320 ∧ State.reset.nclus = 384 ∧ s.unitAt 40 3 = 1 ∧ s.unitAt 39 3 = 0 ∧ State.reset.unitAt 47 3 = 0 := by
  decide +kernel

end Sys2Proof.Tests
end

section
/-!
SUPPORT. The arithmetic of the S slot on numbers, as R260, R261 and R263 state it; what its instructions do, row by row of
`scalarTable`; and the result of bound 1 that overtakes an older one (R249), which settles O2.
-/
namespace Sys2Proof.Machine

/-! ## Words as numbers -/

theorem word_eq_ofNat {a : Word} {n : Nat} (h : a.toNat = n % 2 ^ 64) : a = .ofNat 64 n :=
  BitVec.eq_of_toNat_eq (by rw [h, BitVec.toNat_ofNat])

theorem add_shiftLeft_eq_ofNat (a b : Word) (m : Nat) : a + b <<< m = .ofNat 64 (a.toNat + b.toNat * 2 ^ m) :=
  word_eq_ofNat (by simp [Nat.shiftLeft_eq])

theorem sub_shiftLeft_eq_ofInt (a b : Word) (m : Nat) :
    a - b <<< m = .ofInt 64 ((a.toNat : Int) - (b.toNat : Int) * 2 ^ m) := by
  have hb : b <<< m = .ofNat 64 (b.toNat * 2 ^ m) := word_eq_ofNat (by simp [Nat.shiftLeft_eq])
  have hz : (b.toNat : Int) * 2 ^ m = ((b.toNat * 2 ^ m : Nat) : Int) := by push_cast; rfl
  rw [hz, Int.sub_eq_add_neg, BitVec.ofInt_add, BitVec.ofInt_neg, BitVec.ofInt_natCast, BitVec.ofInt_natCast, ← hb,
    BitVec.ofNat_toNat, BitVec.setWidth_eq, BitVec.sub_eq_add_neg]

theorem signExtend_eq_ofInt {w : Nat} (b : BitVec w) (hw : w ≤ 64) : b.signExtend 64 = .ofInt 64 b.toInt := by
  rw [← BitVec.toInt_signExtend_of_le hw, BitVec.ofInt_toInt]

theorem add_signExtend_eq_ofInt {w : Nat} (a : Word) (b : BitVec w) (hw : w ≤ 64) :
    a + b.signExtend 64 = .ofInt 64 (a.toNat + b.toInt) := by
  rw [BitVec.ofInt_add, BitVec.ofInt_natCast, BitVec.ofNat_toNat, BitVec.setWidth_eq, signExtend_eq_ofInt b hw]

theorem mul_eq_ofNat (a b : Word) : a * b = .ofNat 64 (a.toNat * b.toNat) := word_eq_ofNat (BitVec.toNat_mul a b)

theorem mul_add_eq_ofNat (a b c : Word) : a * b + c = .ofNat 64 (a.toNat * b.toNat + c.toNat) :=
  word_eq_ofNat (by simp)

theorem and_eq_ofNat (a b : Word) : a &&& b = .ofNat 64 (a.toNat &&& b.toNat) := by
  rw [← BitVec.toNat_and, BitVec.ofNat_toNat, BitVec.setWidth_eq]

theorem or_eq_ofNat (a b : Word) : a ||| b = .ofNat 64 (a.toNat ||| b.toNat) := by
  rw [← BitVec.toNat_or, BitVec.ofNat_toNat, BitVec.setWidth_eq]

theorem xor_eq_ofNat (a b : Word) : a ^^^ b = .ofNat 64 (a.toNat ^^^ b.toNat) := by
  rw [← BitVec.toNat_xor, BitVec.ofNat_toNat, BitVec.setWidth_eq]

theorem and_not_eq_ofNat (a b : Word) : a &&& ~~~b = .ofNat 64 (a.toNat &&& (2 ^ 64 - 1 - b.toNat)) := by
  rw [and_eq_ofNat, BitVec.toNat_not]

theorem shiftLeft_eq_ofNat (a : Word) (m : Nat) : a <<< m = .ofNat 64 (a.toNat * 2 ^ m) :=
  word_eq_ofNat (by rw [BitVec.toNat_shiftLeft, Nat.shiftLeft_eq])

theorem shiftRight_eq_ofNat (a : Word) (m : Nat) : a >>> m = .ofNat 64 (a.toNat / 2 ^ m) := by
  rw [← Nat.shiftRight_eq_div_pow, ← BitVec.toNat_ushiftRight, BitVec.ofNat_toNat, BitVec.setWidth_eq]

theorem sshiftRight_eq_ofInt (a : Word) (m : Nat) : a.sshiftRight m = .ofInt 64 (a.toInt / 2 ^ m) := by
  have h : a.toInt / 2 ^ m = (a.sshiftRight m).toInt := by
    rw [BitVec.toInt_sshiftRight, Int.shiftRight_eq_div_pow]; norm_cast
  rw [h, BitVec.ofInt_toInt]

/-- The two halves of a rotation have no bit in common, so that OR adds them. -/
theorem rotl_eq_ofNat (a : Word) {m : Nat} (hm : m < 64) :
    rotl a m = .ofNat 64 (a.toNat * 2 ^ m + a.toNat / 2 ^ (64 - m)) := by
  rw [BitVec.ofNat_add, ← shiftLeft_eq_ofNat, ← shiftRight_eq_ofNat, rotl, Nat.mod_eq_of_lt hm]
  rcases Nat.eq_zero_or_pos m with rfl | h0
  · simp [BitVec.ushiftRight_eq_zero (x := a) (Nat.le_refl 64)]
  · have hd : a <<< m &&& a >>> (64 - m) = 0 := by
      ext i hi
      simp only [BitVec.getElem_and, BitVec.getElem_shiftLeft, BitVec.getElem_ushiftRight]
      by_cases h : i < m
      · simp [h]
      · simp [BitVec.getLsbD_of_ge a (64 - m + i) (by omega)]
    rw [Nat.mod_eq_of_lt (by omega : 64 - m < 64), BitVec.add_eq_or_of_and_eq_zero _ _ hd]

theorem divide_signed (a b : Word) : divide true a b =
    (.ofInt 64 (Claims.quotRem a.toInt b.toInt).1, .ofInt 64 (Claims.quotRem a.toInt b.toInt).2) := by
  by_cases h : b = 0
  · simp [divide, Claims.quotRem, h]
  · have hz : b.toInt ≠ 0 := fun hz => h (BitVec.eq_of_toInt_eq hz)
    rw [divide, Claims.quotRem, if_neg h, if_neg hz, if_pos rfl]

theorem divide_unsigned (a b : Word) : divide false a b =
    (.ofInt 64 (Claims.quotRem a.toNat b.toNat).1, .ofInt 64 (Claims.quotRem a.toNat b.toNat).2) := by
  by_cases h : b = 0
  · simp [divide, Claims.quotRem, h]
  · have hz : (b.toNat : Int) ≠ 0 := fun hz => h (BitVec.eq_of_toNat_eq (Int.ofNat_inj.mp hz))
    rw [divide, Claims.quotRem, if_neg h, if_neg hz, if_neg Bool.false_ne_true, ← Int.ofNat_tdiv, ← Int.ofNat_tmod,
      BitVec.ofInt_natCast, BitVec.ofInt_natCast]

/-- The highest bit that is set decides the count of the zeros above it. -/
theorem leadZeros_eq {x n : Nat} (h : x < 2 ^ n) : leadZeros x n = if x = 0 then n else n - 1 - x.log2 := by
  induction n with
  | zero => simp_all [leadZeros]
  | succ n ih =>
    rw [Nat.pow_succ] at h
    by_cases hx : x < 2 ^ n
    · rw [leadZeros, Nat.div_eq_of_lt hx, if_neg (by decide), ih hx]
      split
      · omega
      · next h0 =>
        have := (Nat.log2_lt h0).mpr hx
        omega
    · have hd : x / 2 ^ n = 1 := Nat.div_eq_of_lt_le (by omega) (by omega)
      have h0 : x ≠ 0 := fun h0 => hx (h0 ▸ Nat.two_pow_pos n)
      have hl : x.log2 = n := (Nat.log2_eq_iff h0).mpr ⟨by omega, by rw [Nat.pow_succ]; omega⟩
      simp [leadZeros, hd, h0, hl]

theorem trailZeros_add_eq_find (x n i : Nat) :
    trailZeros x n i + i = ((List.range' i n).find? fun j => x.testBit j).getD (i + n) := by
  induction n generalizing i with
  | zero => simp [trailZeros]
  | succ n ih =>
    rw [trailZeros, List.range'_succ, List.find?_cons, Nat.testBit_eq_decide_div_mod_eq]
    by_cases h : x / 2 ^ i % 2 = 1
    · simp [h]
    · have hi : 1 + trailZeros x n (i + 1) + i = trailZeros x n (i + 1) + (i + 1) := by omega
      rw [if_neg h, decide_eq_false h, hi, ih (i + 1), Nat.add_right_comm, Nat.add_assoc]

theorem trailZeros_eq_find (x n : Nat) :
    trailZeros x n 0 = ((List.range n).find? fun j => x.testBit j).getD n := by
  simpa [List.range_eq_range'] using trailZeros_add_eq_find x n 0

theorem popCount_eq_countP (x n : Nat) : popCount x n = (List.range n).countP fun j => x.testBit j := by
  induction n with
  | zero => rfl
  | succ n ih =>
    rw [popCount, ih, List.range_succ, List.countP_append, List.countP_singleton, Nat.testBit_eq_decide_div_mod_eq]
    rcases Nat.mod_two_eq_zero_or_one (x / 2 ^ n) with h | h <;> simp [h]

theorem ite_slt_eq_ofInt_min (a b : Word) : (if a.slt b then a else b) = .ofInt 64 (min a.toInt b.toInt) := by
  by_cases h : a.toInt < b.toInt
  · simp [BitVec.slt, h, Int.min_eq_left (Int.le_of_lt h)]
  · simp [BitVec.slt, h, Int.min_eq_right (Int.not_lt.mp h)]

theorem ite_slt_eq_ofInt_max (a b : Word) : (if a.slt b then b else a) = .ofInt 64 (max a.toInt b.toInt) := by
  by_cases h : a.toInt < b.toInt
  · simp [BitVec.slt, h, Int.max_eq_right (Int.le_of_lt h)]
  · simp [BitVec.slt, h, Int.max_eq_left (Int.not_lt.mp h)]

theorem ite_ult_eq_ofNat_min (a b : Word) : (if a.ult b then a else b) = .ofNat 64 (min a.toNat b.toNat) := by
  by_cases h : a.toNat < b.toNat
  · simp [BitVec.ult, h, Nat.min_eq_left (Nat.le_of_lt h)]
  · simp [BitVec.ult, h, Nat.min_eq_right (Nat.not_lt.mp h)]

theorem ite_ult_eq_ofNat_max (a b : Word) : (if a.ult b then b else a) = .ofNat 64 (max a.toNat b.toNat) := by
  by_cases h : a.toNat < b.toNat
  · simp [BitVec.ult, h, Nat.max_eq_right (Nat.le_of_lt h)]
  · simp [BitVec.ult, h, Nat.max_eq_left (Nat.not_lt.mp h)]

/-- The two halves that LIH joins have no bit in common. -/
theorem high_or_low_eq_ofNat (i : BitVec 22) (a : Word) :
    i.setWidth 64 <<< 42 ||| a &&& 0x3FFFFFFFFFF = .ofNat 64 (i.toNat * 2 ^ 42 + a.toNat % 2 ^ 42) := by
  have hi := i.isLt
  have ha := Nat.mod_lt a.toNat (Nat.two_pow_pos 42)
  refine word_eq_ofNat ?_
  have hl : (i.setWidth 64 <<< 42).toNat = i.toNat <<< 42 := by
    rw [BitVec.toNat_shiftLeft, BitVec.toNat_setWidth, Nat.shiftLeft_eq]
    omega
  have hr : (a &&& 0x3FFFFFFFFFF).toNat = a.toNat % 2 ^ 42 := by
    rw [BitVec.toNat_and, ← Nat.and_two_pow_sub_one_eq_mod]
    rfl
  rw [BitVec.toNat_or, hl, hr, ← Nat.shiftLeft_add_eq_or_of_lt ha, Nat.shiftLeft_eq]
  omega

/-! ## A result that overtakes -/

/-- The rule of `State.scramble`: every result in flight of the context in issue is marked if it is overtaken. -/
theorem State.me_scramble (s : State) (d : Dst) (due : Nat) :
    (s.scramble d due).me = { s.me with pend := s.me.pend.map (Pend.scramble d due s.free) } :=
  State.me_modMe s fun x => { x with pend := x.pend.map (Pend.scramble d due s.free) }

/-- R249: an older result whose bound does not end before the new one's is marked undefined. -/
theorem Pend.scramble_of_le {p : Pend} {due d : Nat} (n : Nat) (hd : p.due = some d) (hl : due ≤ d) :
    p.scramble p.dst due n = { p with undef := some n } := by
  simp [Pend.scramble, hd, hl]

/-- R249: a clean scalar result of bound 1 with older ones in flight to its register lands at once, and marks those that it
overtakes. -/
theorem State.me_putS_one_inFlight {s : State} {d : SReg} (hf : s.inFlight (.s d) = true) (v : Word) :
    (s.putS d v false 1).me =
      { s.me with regs := { s.me.regs with s := sset ⟨0, false⟩ s.me.regs.s d.toNat ⟨v, false⟩ },
                  pend := s.me.pend.map (Pend.scramble (.s d) (s.cur.bno + 1) s.free) } := by
  simp [State.putS, State.put, hf, Ctx.land, State.me_scramble]

end Sys2Proof.Machine

namespace Sys2Proof.Claims
open Sys2Proof.Machine

/-- The machine after the result of a rule of the S slot. -/
def putRule (s : State) (r : ScalarRule) : State := s.putS r.dst r.val (r.srcs.any fun x => (s.rdS x).psn) r.bound

theorem sop1_eq_putRule {s : State} {sd sa : SReg} {n : Nat} {f : Word → Word} {v : Word} (h : f (s.rdS sa).val = v) :
    s.sop1 sd sa n f = .next (putRule s ⟨sd, [sa], v, n⟩) := by
  simp [State.sop1_next, putRule, h]

theorem sop2_eq_putRule {s : State} {sd sa sb : SReg} {n : Nat} {f : Word → Word → Word} {v : Word}
    (h : f (s.rdS sa).val (s.rdS sb).val = v) : s.sop2 sd sa sb n f = .next (putRule s ⟨sd, [sa, sb], v, n⟩) := by
  simp [State.sop2_next, putRule, h]

theorem shift_eq_putRule {s : State} {sd sa : SReg} {f : Word → Nat → Word} {v : Word} (amt : ShAmt)
    (h : f (s.rdS sa).val (shiftAmount s amt).1 = v) :
    s.shift sd sa amt f = .next (putRule s ⟨sd, sa :: (shiftAmount s amt).2, v, 1⟩) := by
  cases amt with
  | imm n => rw [State.shift, sop1_eq_putRule h]; rfl
  | reg sb => rw [State.shift, sop2_eq_putRule h]; rfl

theorem shiftAmount_lt (s : State) (amt : ShAmt) : (shiftAmount s amt).1 < 64 := by
  cases amt with
  | imm n => exact n.isLt
  | reg sb => exact Nat.mod_lt _ (by decide)

/-- Each row of the table is what its instruction does, poison included (R260, R261, R263). -/
theorem exec_scalarTable (s : State) (o : ScalarOps) : ∀ e ∈ scalarTable s o, exec e.1 s = .next (putRule s e.2) := by
  simp only [scalarTable, List.forall_mem_append, List.forall_mem_cons, List.not_mem_nil, false_imp_iff, implies_true, and_true,
    exec_add, execAdd, exec_sub, execSub, exec_addi, execAddi, exec_mul, execMul, exec_mulh, execMulh, exec_mulhn, execMulhn,
    exec_div, execDiv, exec_divn, execDivn, exec_rem, execRem, exec_remn, execRemn, exec_and, execAnd, exec_or, execOr, exec_xor,
    execXor, exec_andn, execAndn, exec_shl, execShl, exec_shr, execShr, exec_sar, execSar, exec_rot, execRot, exec_clz, execClz,
    exec_ctz, execCtz, exec_popc, execPopc, exec_min, execMin, exec_max, execMax, exec_minn, execMinn, exec_maxn, execMaxn,
    exec_sel, execSel, exec_li, execLi, exec_lih, execLih, exec_mov, execMov]
  refine ⟨⟨⟨?_, ?_, ?_, ?_, ?_, ?_, ?_, ?_, ?_, ?_, ?_⟩, ?_, ?_, ?_, ?_, ?_, ?_, ?_, ?_, ?_, ?_, ?_⟩,
    ?_, ?_, ?_, ?_, ?_, ?_, ?_, ?_⟩
  · exact sop2_eq_putRule (add_shiftLeft_eq_ofNat ..)
  · exact sop2_eq_putRule (sub_shiftLeft_eq_ofInt ..)
  · exact sop1_eq_putRule (add_signExtend_eq_ofInt _ _ (by decide))
  · exact sop2_eq_putRule (mul_eq_ofNat ..)
  · simp [putRule, mul_add_eq_ofNat, Bool.or_assoc]
  · exact sop2_eq_putRule rfl
  · exact sop2_eq_putRule rfl
  · exact sop2_eq_putRule (congrArg Prod.fst (divide_signed ..))
  · exact sop2_eq_putRule (congrArg Prod.fst (divide_unsigned ..))
  · exact sop2_eq_putRule (congrArg Prod.snd (divide_signed ..))
  · exact sop2_eq_putRule (congrArg Prod.snd (divide_unsigned ..))
  · exact sop2_eq_putRule (and_eq_ofNat ..)
  · exact sop2_eq_putRule (or_eq_ofNat ..)
  · exact sop2_eq_putRule (xor_eq_ofNat ..)
  · exact sop2_eq_putRule (and_not_eq_ofNat ..)
  · exact shift_eq_putRule _ (shiftLeft_eq_ofNat ..)
  · exact shift_eq_putRule _ (shiftRight_eq_ofNat ..)
  · exact shift_eq_putRule _ (sshiftRight_eq_ofInt ..)
  · exact shift_eq_putRule _ (rotl_eq_ofNat _ (shiftAmount_lt s o.amt))
  · exact sop1_eq_putRule (congrArg (BitVec.ofNat 64) (leadZeros_eq (s.rdS o.sa).val.isLt))
  · exact sop1_eq_putRule (congrArg (BitVec.ofNat 64) (trailZeros_eq_find ..))
  · exact sop1_eq_putRule (congrArg (BitVec.ofNat 64) (popCount_eq_countP ..))
  · exact sop2_eq_putRule (ite_slt_eq_ofInt_min ..)
  · exact sop2_eq_putRule (ite_slt_eq_ofInt_max ..)
  · exact sop2_eq_putRule (ite_ult_eq_ofNat_min ..)
  · exact sop2_eq_putRule (ite_ult_eq_ofNat_max ..)
  · exact sop2_eq_putRule (by cases s.rdP o.p <;> cases o.neg <;> rfl)
  · simp [putRule, signExtend_eq_ofInt]
  · exact sop1_eq_putRule (high_or_low_eq_ofNat ..)
  · exact sop1_eq_putRule rfl

/-- Settles O2: the older result is marked with a free value's number, and the new one lands over it at once. -/
theorem scalarOvertakes : Obligations.ScalarOvertakes := by
  unfold Obligations.ScalarOvertakes
  intro s o p e he hbound hclean hp hdst hlater
  obtain ⟨d, hdue, hlt⟩ := hlater p hp hdst
  have hpsn : (e.2.srcs.any fun x => (s.rdS x).psn) = false := by simpa using hclean
  have hf : s.inFlight (.s e.2.dst) = true := by simpa [State.inFlight] using ⟨p, hp, hdst⟩
  have hme := State.me_putS_one_inFlight hf e.2.val
  refine ⟨s.putS e.2.dst e.2.val false 1, ?_, ?_, ?_, rfl⟩
  · rw [exec_scalarTable s o e he, putRule, hpsn, hbound]
  · rw [hme]
    exact sget_sset _ _ _ _
  · rw [hme, ← Pend.scramble_of_le s.free hdue (Nat.le_of_lt hlt), hdst]
    exact List.mem_map_of_mem hp

end Sys2Proof.Claims
end

section
/-!
SUPPORT. What the window reads right after reset: the queues' block is zero, byte by byte (R108, R423), which settles O59.
-/
namespace Sys2Proof.Machine

theorem ofBytes_eq_zero {bs : List Byte} (h : ∀ b ∈ bs, b = 0) : ofBytes bs = 0 := by
  induction bs with
  | nil => rfl
  | cons b bs ih =>
    rw [ofBytes, h b (List.mem_cons_self ..), ih fun c hc => h c (List.mem_cons_of_mem _ hc)]
    rfl

/-- Bytes of the window whose words are zero make the number zero. -/
theorem State.ofBytes_regRead_eq_zero {s : State} {o n : Nat} (h : ∀ i < n, s.regWord ((o + i) / 4 * 4) = 0) :
    ofBytes (s.regRead o n) = 0 := by
  refine ofBytes_eq_zero fun b hb => ?_
  obtain ⟨i, hi, rfl⟩ := List.mem_map.mp hb
  rw [h i (List.mem_range.mp hi), Nat.zero_div]
  rfl

theorem State.pendOf_reset (q : Nat) : State.reset.pendOf q = 0 := rfl

theorem State.loanOf_reset (q : Nat) : State.reset.loanOf q = 0 := by
  unfold State.loanOf
  simp only [State.pendOf_reset, Nat.zero_sub]

/-- No queue has a base, a launch or a record after reset (R108). -/
theorem State.queueWord_reset (q o : Nat) : State.reset.queueWord q o = 0 := by
  have hq : State.reset.queue q = ⟨0, 0, 0, 0⟩ := rfl
  unfold State.queueWord
  simp only [hq, State.pendOf_reset, State.loanOf_reset]
  split <;> rfl

/-- Every word of the queues' block reads zero after reset (R108, R423). -/
theorem State.regWord_reset_queues {o : Nat} (hl : 0x1000 ≤ o) (hh : o < 0x2000) : State.reset.regWord o = 0 := by
  have hr : State.reset.isReady = false := rfl
  rw [State.regWord, hr, if_neg Bool.false_ne_true, if_neg (by omega), if_neg (by omega), if_neg (by omega),
    if_neg (by omega), if_pos ⟨hl, hh⟩]
  exact State.queueWord_reset _ _

/-- Every aligned part of the queues' block reads zero after reset. -/
theorem State.regRead_reset_queues {o n : Nat} (hl : 0x1000 ≤ o) (hh : o + n ≤ 0x2000) :
    ofBytes (State.reset.regRead o n) = 0 :=
  State.ofBytes_regRead_eq_zero fun i hi => State.regWord_reset_queues (by omega) (by omega)

theorem State.ctx_reset (k c : Nat) : State.reset.ctx k c = Ctx.reset := rfl

end Sys2Proof.Machine

namespace Sys2Proof.Claims
open Sys2Proof.Machine

/-- Settles O59: the fields of the reset state are those of its definition; the single registers are read one by one, the
queues' all at once. -/
theorem resetValues : Obligations.ResetValues := by
  unfold Obligations.ResetValues
  refine ⟨⟨⟨.nil, nofun⟩, .nil, nofun⟩, rfl, rfl, fun k c => ?_, by decide +kernel, fun q hq => ⟨?_, ?_, ?_⟩⟩
  · rw [State.ctx_reset]
    exact ⟨rfl, rfl, rfl⟩
  all_goals exact State.regRead_reset_queues (by omega) (by omega)

end Sys2Proof.Claims
end

section
/-!
SUPPORT. Poison marks of device memory (R479, R480): what clears them when a home takes copies back, and an error record whose
append takes back the only good copy of a line just marked, which refutes O50.
-/
namespace Sys2Proof.Machine

/-! ## What keeps a mark, and what clears it (R480) -/

theorem length_toBytes (n x : Nat) : (toBytes n x).length = n := by
  induction n generalizing x with
  | zero => rfl
  | succ n ih => rw [toBytes, List.length_cons, ih]

/-- A record of the error log has 64 bytes (R463). -/
theorem length_recordBytes (n : Nat) (e : ErrRec) (lost : Bool) (cycle : Nat) : (recordBytes n e lost cycle).length = 64 := by
  simp only [recordBytes, List.length_append, length_toBytes]

@[simp] theorem State.memPoison_setHomeByte (s : State) (a : Nat) (b : Byte) : (s.setHomeByte a b).memPoison = s.memPoison := by
  unfold State.setHomeByte
  dsimp only
  split <;> rfl

@[simp] theorem State.memPoison_homeWrite (s : State) (a : Nat) (bs : List Byte) : (s.homeWrite a bs).memPoison = s.memPoison := by
  induction bs generalizing s a with
  | nil => rfl
  | cons b bs ih => rw [State.homeWrite, ih, State.memPoison_setHomeByte]

@[simp] theorem State.memPoison_setPhysByte (s : State) (a : Nat) (b : Byte) : (s.setPhysByte a b).memPoison = s.memPoison := by
  unfold State.setPhysByte
  split
  · rfl
  · exact State.memPoison_setHomeByte ..

@[simp] theorem State.memPoison_physWrite (s : State) (a : Nat) (bs : List Byte) : (s.physWrite a bs).memPoison = s.memPoison := by
  induction bs generalizing s a with
  | nil => rfl
  | cons b bs ih => rw [State.physWrite, ih, State.memPoison_setPhysByte]

@[simp] theorem State.memPoison_invalidated (s : State) (line : Nat) (but : Option Nat) :
    (s.invalidated line but).memPoison = s.memPoison := by
  unfold State.invalidated
  dsimp only
  split <;> rfl

/-- A writeback writes its whole line, which clears the line's mark (R480). -/
theorem State.memPoison_writeBackLine (s : State) (st : Store) (off lin : Nat) :
    (s.writeBackLine st off lin).memPoison = s.memPoison.filter fun l => l != lin / 256 := by
  rw [State.writeBackLine, State.clearPoison, State.memPoison_homeWrite]

theorem State.memPoison_writeBackLines (s : State) (st : Store) (ds : List (Nat × Nat)) :
    (ds.foldl (fun s e => s.writeBackLine st e.1 (e.2 * 256)) s).memPoison =
      s.memPoison.filter fun l => ds.all fun e => l != e.2 := by
  induction ds generalizing s with
  | nil => exact (List.filter_eq_self.mpr fun _ _ => rfl).symm
  | cons d ds ih =>
    rw [List.foldl_cons, ih, State.memPoison_writeBackLine, List.filter_filter]
    refine List.filter_congr fun l _ => ?_
    rw [Nat.mul_div_cancel _ (by decide), List.all_cons, Bool.and_comm]

/-- What a region gives back on a recall loses its marks: every dirty line of the granules that the recall names, whether the
recall is for that line or for another of its granule (R164, R480). -/
theorem State.memPoison_recallRegion (s : State) (k r line : Nat) (e : Bool) :
    (s.recallRegion k r line e).memPoison =
      s.memPoison.filter fun l => (s.dirtyOf (s.namedBy ((s.cluster k).region r) line e)).all fun d => l != d.2 := by
  unfold State.recallRegion
  dsimp only
  split
  · next h =>
    obtain ⟨hg, hl⟩ := Bool.and_eq_true_iff.mp h
    rw [State.dirtyOf, List.isEmpty_iff.mp hg, List.isEmpty_iff.mp hl]
    exact (List.filter_eq_self.mpr fun _ _ => rfl).symm
  · exact State.memPoison_writeBackLines ..

/-- A write that covers no whole line clears no mark beyond those of the copies that it takes back. -/
theorem State.memPoison_agentWrite {s : State} {pa : Nat} {bs : List Byte} (h : bs.length < 256) :
    (s.agentWrite pa bs).memPoison = (s.takeBack pa bs.length false).memPoison := by
  have hw : s.wholeLines pa bs.length = [] := if_pos (.inr h)
  rw [State.agentWrite, hw, List.foldl_nil, State.memPoison_physWrite]

theorem State.memPoison_raiseIrq (s : State) (v : Nat) : (s.raiseIrq v).memPoison = s.memPoison := by
  unfold State.raiseIrq
  split
  · rfl
  · split <;> rfl

/-- Where the ring has room, a record's append takes back the copies of its 64 bytes (R462). -/
theorem State.memPoison_logErr {s : State} (e : ErrRec) (h : (s.forme.eltail - s.forme.elhead).toNat < 4096) :
    (s.logErr e).memPoison = (s.takeBack (s.forme.elbase.toNat + 64 * (s.forme.eltail.toNat % 4096)) 64 false).memPoison := by
  unfold State.logErr
  rw [if_neg (Nat.not_le.mpr h)]
  dsimp only
  split
  all_goals
    simp only [State.memPoison_raiseIrq, State.modForme]
    rw [State.memPoison_agentWrite (by rw [length_recordBytes]; decide), length_recordBytes]

/-- An uncorrectable error in device memory marks its line, and then the record is appended (R464, R479). -/
theorem exec_uncorrectableError_memory (n : Nat) (s : State) :
    ∃ e, exec (.uncorrectableError 0 n) s =
      .next (State.logErr { s with memPoison := if s.memPoison.contains n then s.memPoison else s.memPoison ++ [n] } e) :=
  ⟨_, rfl⟩

end Sys2Proof.Machine

namespace Sys2Proof.Claims
open Sys2Proof.Machine

/-- The second line of the first granule of the interleaved window: line 0 of channel 1. -/
def markedLine : Nat := 2 ^ 25

/-- A module that is READY, its error ring empty at linear address 0. Region 0 of cluster 0 holds the one dirty copy of
`markedLine`, named by the interleaved window: its granule there also holds line 0 of channel 0, the ring's first (R154,
R164). -/
def dirtyBesideRing : State :=
  (State.reset.modForme fun m => { m with mstat := 5, starting := false }).modCluster 0 fun c =>
    { c with regions := [(0, { Region.reset with mode := .cache, lines := [⟨1, 1, markedLine, 2 ^ 32, 0, true, true⟩] })] }

/-- The same, the line marked: what the record's append then finds. -/
def markedBesideRing : State := { dirtyBesideRing with memPoison := [markedLine] }

/-- The recall for the ring's line writes the marked line back. -/
theorem dirtyOf_markedBesideRing :
    markedBesideRing.dirtyOf (markedBesideRing.namedBy ((markedBesideRing.cluster 0).region 0) 0 false) = [(2048, markedLine)] := by
  decide +kernel

/-- Taking back the copies of the ring's first record clears the mark. -/
theorem memPoison_takeBack_markedBesideRing : (markedBesideRing.takeBack 0 64 false).memPoison = [] := by
  have hl : markedBesideRing.linesOf 0 64 = [0] := by decide +kernel
  have hr : markedBesideRing.otherRegions none = [(0, 0)] := by decide +kernel
  simp only [State.takeBack, hl, List.foldl_cons, List.foldl_nil, State.recall, hr, Bool.false_eq_true, if_false,
    State.memPoison_invalidated]
  rw [State.memPoison_recallRegion, dirtyOf_markedBesideRing]
  rfl

/-- The event leaves the line unmarked. -/
theorem exec_uncorrectableError_dirtyBesideRing :
    ∃ t, exec (.uncorrectableError 0 markedLine) dirtyBesideRing = .next t ∧ t.memPoison = [] := by
  obtain ⟨e, he⟩ := exec_uncorrectableError_memory markedLine dirtyBesideRing
  refine ⟨_, he, ?_⟩
  calc (markedBesideRing.logErr e).memPoison
    _ = (markedBesideRing.takeBack 0 64 false).memPoison := State.memPoison_logErr e (by decide)
    _ = [] := memPoison_takeBack_markedBesideRing

/-- Refutes O50: an uncorrectable error in device memory does not always leave its line marked. UECC is recorded after the line
is marked, and the append of the record takes back the copies of every line of the granule of the ring's line (R164). Where a
cluster holds the marked line dirty and in one granule of the interleaved window with the ring's, the line is written back
whole, which clears its mark (R480). -/
theorem not_moduleEvents : ¬ Obligations.ModuleEvents := by
  unfold Obligations.ModuleEvents
  intro h
  have hrule := h dirtyBesideRing 0 0 markedLine 0 0 0 0 false 0
    (.uncorrectableError 0 markedLine, True, fun t => markedLine ∈ t.memPoison ∧ logged dirtyBesideRing t ∧ t.ctxs = dirtyBesideRing.ctxs)
    (List.mem_append_left _ (List.mem_append_right _ (List.mem_cons_self ..)))
  obtain ⟨t, ht, hmarked, -, -⟩ := hrule trivial
  obtain ⟨u, hu, hclear⟩ := exec_uncorrectableError_dirtyBesideRing
  obtain rfl : u = t := Host.Outcome.next.inj (hu.symm.trans ht)
  rw [hclear] at hmarked
  exact List.not_mem_nil hmarked

end Sys2Proof.Claims
end

section
/-!
SUPPORT. Queued plane operations (R367), results in flight that an exchange overtakes (R249, R354), and the issue of a nest by SGO
(R362, R363), which settle O30.
-/
namespace Sys2Proof.Machine

/-! ## A queued plane operation (R367) -/

@[simp] theorem State.me_setNr (s : State) : s.setNr.me = { s.me with nr := true } := State.me_modMe s _

@[simp] theorem State.planeOf_setNr (s : State) (n : Nat) : s.setNr.planeOf n = s.planeOf n := by
  simp only [State.planeOf, State.physPlane, State.me_setNr]
  rfl

@[simp] theorem Cluster.plane_modPlane (c : Cluster) (n : Nat) (f : Plane → Plane) : (c.modPlane n f).plane n = f (c.plane n) :=
  sget_sset ..

@[simp] theorem State.me_queueOp (s : State) (n : Nat) (o : PlaneOp) : (s.queueOp n o).me = s.me := rfl
@[simp] theorem State.queueOp_accs (s : State) (n : Nat) (o : PlaneOp) : (s.queueOp n o).accs = s.accs := rfl
@[simp] theorem State.queueOp_mem (s : State) (n : Nat) (o : PlaneOp) : (s.queueOp n o).mem = s.mem := rfl

@[simp] theorem State.cc_queueOp (s : State) (n : Nat) (o : PlaneOp) :
    (s.queueOp n o).cc = s.cc.modPlane (s.physPlane n) fun p => { p with queue := p.queue ++ [o] } :=
  State.cc_modCc s fun c => c.modPlane (s.physPlane n) fun p => { p with queue := p.queue ++ [o] }

/-- The operation is the last of its plane's queue. -/
theorem State.planeOf_queueOp (s : State) (n : Nat) (o : PlaneOp) :
    (s.queueOp n o).planeOf n = { s.planeOf n with queue := (s.planeOf n).queue ++ [o] } := by
  simp [State.planeOf, State.physPlane]

/-! ## What overtaken results leave unchanged (R249) -/

/-- What marking the results overtaken by one write keeps, marking those of several writes keeps too. -/
theorem State.scrambleAll_keeps {α : Type} {f : State → α} (hf : ∀ s d due, f (s.scramble d due) = f s) (s : State)
    (ds : List Dst) : f (s.scrambleAll ds) = f s := by
  induction ds generalizing s with
  | nil => rfl
  | cons d ds ih =>
    calc f (s.scrambleAll (d :: ds))
      _ = f (if s.inFlight d then s.scramble d (s.cur.bno + 1) else s) := ih _
      _ = f s := by split <;> simp only [hf]

/-! ## The issue of a nest (R354, R362, R363) -/

/-- Operand tiles entered in the range scoreboard under a nest's id (R170). -/
def Cluster.enterTiles (c : Cluster) (key id : Nat) (tiles : List Nat) : Cluster :=
  { c with rsb := c.rsb ++ tiles.map fun t => RsEntry.of key id false 2 (t * 0xA000) ((t + 1) * 0xA000) }

/-- The context after an SGO: with SWAP the shadows that its slot sees are exchanged with the live copies (R354). -/
def Ctx.issueNest (x : Ctx) (sw : Bool) (v : Banks) (hm : Nat) : Ctx :=
  { x with ord := x.ord + 1, regs := if sw then x.regs.swapNest v hm else x.regs }

/-- The cluster and the context as SGO leaves them before results in flight are marked and the nest is queued. -/
def State.exchangeNest (s : State) (sw : Bool) (hm : BitVec 2) : State :=
  State.modMe { s.modCc fun c => c.enterTiles s.key s.nextId (s.nestTiles sw hm) with nextId := s.nextId + 1 } fun x =>
    x.issueNest sw s.view.regs hm.toNat

/-- The machine as SGO leaves it before its nest is queued. -/
def State.latchNest (s : State) (sw : Bool) (hm : BitVec 2) : State :=
  if sw then (s.exchangeNest sw hm).scrambleAll (nestShadows hm) else s.exchangeNest sw hm

/-- An SGO with no failing check and no wait queues its nest. -/
theorem exec_sgo_issues {s : State} {sw : Bool} {hm : BitVec 2} {pl : PlaneNo} (flag : Option FReg) (hw : sgoSwapWait sw s = false)
    (hc : sgoCheck sw hm pl s = none) (hs : sgoStall sw hm s = false) (he : sgoEnergy s = false) :
    exec (.sgo sw hm pl flag) s =
      .next ((s.latchNest sw hm).queueOp pl.toNat (.sgo (s.newNest sw hm flag))).setNr := by
  simp only [exec_sgo, execSgo, hw, hc, hs, he, Bool.false_eq_true, if_false]
  rfl

theorem State.me_exchangeNest (s : State) (sw : Bool) (hm : BitVec 2) :
    (s.exchangeNest sw hm).me = s.me.issueNest sw s.view.regs hm.toNat :=
  State.me_modMe _ fun x => x.issueNest sw s.view.regs hm.toNat

theorem State.cc_exchangeNest (s : State) (sw : Bool) (hm : BitVec 2) :
    (s.exchangeNest sw hm).cc = s.cc.enterTiles s.key s.nextId (s.nestTiles sw hm) :=
  State.cc_modCc s fun c => c.enterTiles s.key s.nextId (s.nestTiles sw hm)

/-- The marking of overtaken results (R249) changes nothing else. -/
theorem State.latchNest_keeps {α : Type} {f : State → α} (hf : ∀ s d due, f (s.scramble d due) = f s) (s : State) (sw : Bool)
    (hm : BitVec 2) : f (s.latchNest sw hm) = f (s.exchangeNest sw hm) := by
  cases sw
  case false => rfl
  case true => exact State.scrambleAll_keeps hf _ _

@[simp] theorem State.latchNest_accs (s : State) (sw : Bool) (hm : BitVec 2) : (s.latchNest sw hm).accs = s.accs :=
  State.latchNest_keeps (f := State.accs) (fun _ _ _ => rfl) s sw hm

@[simp] theorem State.latchNest_mem (s : State) (sw : Bool) (hm : BitVec 2) : (s.latchNest sw hm).mem = s.mem :=
  State.latchNest_keeps (f := State.mem) (fun _ _ _ => rfl) s sw hm

theorem State.regs_latchNest (s : State) (sw : Bool) (hm : BitVec 2) :
    (s.latchNest sw hm).me.regs = if sw then s.me.regs.swapNest s.view.regs hm.toNat else s.me.regs := by
  rw [State.latchNest_keeps (f := fun s => s.me.regs) (fun s d due => by rw [State.me_scramble]), State.me_exchangeNest]
  rfl

theorem State.bnd_latchNest (s : State) (sw : Bool) (hm : BitVec 2) : (s.latchNest sw hm).me.bnd = s.me.bnd := by
  rw [State.latchNest_keeps (f := fun s => s.me.bnd) (fun s d due => by rw [State.me_scramble]), State.me_exchangeNest]
  rfl

theorem State.planes_latchNest (s : State) (sw : Bool) (hm : BitVec 2) : (s.latchNest sw hm).cc.planes = s.cc.planes := by
  rw [State.latchNest_keeps (f := fun s => s.cc.planes) (fun _ _ _ => rfl), State.cc_exchangeNest]
  rfl

theorem State.planeOf_latchNest (s : State) (sw : Bool) (hm : BitVec 2) (n : Nat) :
    (s.latchNest sw hm).planeOf n = s.planeOf n := by
  simp only [State.planeOf, State.physPlane, Cluster.plane, State.planes_latchNest, State.bnd_latchNest]

/-- A plane at or beyond CARR fails the first check of SGO (R80, R362). -/
theorem sgoCheck_of_carr_le {s : State} {pl : PlaneNo} (sw : Bool) (hm : BitVec 2) (h : s.me.bnd.carr ≤ pl.toNat) :
    sgoCheck sw hm pl s = some (s.trapOf 0x0007 pl.toNat) := by
  have hp : s.planeCheck pl.toNat = some (s.trapOf 0x0007 pl.toNat) := by
    have hn : 0 * 2 ^ 36 + pl.toNat % 2 ^ 23 = pl.toNat := by omega
    rw [State.planeCheck, State.claimCheck, if_neg (Nat.not_lt.mpr h), State.claimTrap, hn]
  simp [sgoCheck, firstTrap, hp]

end Sys2Proof.Machine

namespace Sys2Proof.Claims
open Sys2Proof.Machine

/-- R354, R363: the plane's queue ends with the nest. -/
theorem queue_sgo (s : State) (sw : Bool) (hm : BitVec 2) (pl : PlaneNo) (n : Nest) :
    (((s.latchNest sw hm).queueOp pl.toNat (.sgo n)).setNr.planeOf pl.toNat).queue = (s.planeOf pl.toNat).queue ++ [.sgo n] := by
  rw [State.planeOf_setNr, State.planeOf_queueOp, State.planeOf_latchNest]

/-- R354: without SWAP no register changes; with it those of the exchange alone. -/
theorem regs_sgo (s : State) (sw : Bool) (hm : BitVec 2) (pl : PlaneNo) (n : Nest) :
    ((s.latchNest sw hm).queueOp pl.toNat (.sgo n)).setNr.me.regs =
      if sw then s.me.regs.swapNest s.view.regs hm.toNat else s.me.regs := by
  rw [State.me_setNr, State.me_queueOp]
  exact s.regs_latchNest sw hm

theorem streamStarts_holds : streamStarts := by
  intro s sw hm pl flag hw hc hs he
  refine ⟨_, s.newNest sw hm flag, exec_sgo_issues flag hw hc hs he, by rw [State.me_setNr], queue_sgo .., rfl, rfl, rfl, rfl, rfl,
    rfl, rfl, rfl, rfl, rfl, rfl, by simp, by simp, ?_⟩
  rw [regs_sgo]
  cases sw <;> simp [Banks.swapNest]

theorem streamClaim_holds : streamClaim := by
  intro s sw hm pl flag hw hcl
  simp only [exec_sgo, execSgo, hw, sgoCheck_of_carr_le sw hm hcl, Bool.false_eq_true, if_false]
  rfl

/-- Settles O30: an SGO that is checked and waits for nothing queues the nest that it latches, and the claim is its first check. -/
theorem streamIssue : Obligations.StreamIssue := ⟨streamStarts_holds, streamClaim_holds⟩

end Sys2Proof.Claims
end

section
/-!
SUPPORT. What the issue of an access does (R445), said once, and the issue of LDX, CBTAKE, CBDONE and HMSG (R141, R143, R221, R320,
R325, R333), which settles O38.
-/
namespace Sys2Proof.Machine

/-! ## Entering an access (R162, R445) -/

theorem State.mem_accs_addAcc (s : State) (a : Access) : a ∈ (s.addAcc a).accs :=
  List.mem_append_right _ (List.mem_singleton_self a)

/-- An access with its translation replaced. -/
def Access.withTr (a : Access) (t : Tr) : Access := { a with tr := t }

/-- t is s after the slot in issue has entered access a: a is among its accesses, as it was made but for its translation, and
beside the accesses and the moves that follow t is what `State.addAcc` makes of s. -/
structure State.Enters (s : State) (a : Access) (t : State) : Prop where
  mem : ∃ tr, a.withTr tr ∈ t.accs
  frame : t = { s.addAcc a with accs := t.accs, agenda := t.agenda }

namespace State.Enters

variable {s t : State} {a : Access} (h : s.Enters a t)
include h

theorem me : t.me = { s.me with ord := s.me.ord + 1 } := by
  rw [h.frame]
  exact State.me_modMe s fun x => { x with ord := x.ord + 1 }

theorem clusters : t.clusters = s.clusters := by rw [h.frame]; rfl
theorem slices : t.slices = s.slices := by rw [h.frame]; rfl
theorem mem_eq : t.mem = s.mem := by rw [h.frame]; rfl
theorem memFill : t.memFill = s.memFill := by rw [h.frame]; rfl
theorem hostMem : t.hostMem = s.hostMem := by rw [h.frame]; rfl
theorem cur : t.cur = s.cur := by rw [h.frame]; rfl

theorem cc : t.cc = s.cc := by
  simp only [State.cc, State.cluster, h.cur, h.clusters]

theorem galley? (v : VReg) : t.galley? v = s.galley? v := by
  simp only [State.galley?, h.me, h.cc]

end State.Enters

theorem State.addAcc_enters (s : State) (a : Access) : s.Enters a (s.addAcc a) :=
  ⟨⟨a.tr, s.mem_accs_addAcc a⟩, rfl⟩

/-- Is a translation one that an access goes on with: under way, or of a page outside host memory? -/
def Tr.goesOn (t : Tr) : Prop := t = .pending ∨ ∃ pa mt, mt ≠ 1 ∧ t = .ok pa mt

/-- A translation that goes on is entered in the access, and at most a move follows. -/
theorem State.setTr_of_goesOn (s : State) (a : Access) {t : Tr} (h : t.goesOn) :
    ∃ ms, s.setTr a t = (s.setAcc a.id fun b => { b with tr := t }).soon ms := by
  rcases h with rfl | ⟨pa, mt, hmt, rfl⟩
  · exact ⟨_, rfl⟩
  · have hhost : (mt == 1) = false := by simpa using hmt
    simp only [State.setTr, hhost, Bool.and_false, Bool.false_eq_true, if_false]
    split
    · exact ⟨_, rfl⟩
    · exact ⟨[], rfl⟩

/-- Entering an access whose translation goes on changes nothing but the lists of accesses and moves. -/
theorem State.addAcc_setTr_enters (s : State) (a : Access) {t : Tr} (h : t.goesOn) :
    s.Enters a ((s.addAcc a).setTr a t) := by
  obtain ⟨ms, hms⟩ := (s.addAcc a).setTr_of_goesOn a h
  rw [hms]
  exact ⟨⟨t, List.mem_map.mpr ⟨a, s.mem_accs_addAcc a, if_pos (beq_self_eq_true a.id)⟩⟩, rfl⟩

/-- An access that a stash granule serves, or whose translation goes on, is entered (R162, R445). -/
theorem State.issueFar_enters {s : State} {a : Access} (hp : a.tr = .pending)
    (h : (s.stashSpot a).isSome = true ∨ (s.tlbLookup a.cl a.asid a.va a.needs).goesOn) : s.Enters a (s.issueFar a) := by
  simp only [State.issueFar, hp]
  cases hspot : s.stashSpot a with
  | none => exact s.addAcc_setTr_enters a (h.resolve_left (by simp [hspot]))
  | some p =>
    dsimp only
    split <;> exact ⟨⟨_, s.mem_accs_addAcc _⟩, rfl⟩

/-! ## LDX (R320) -/

theorem lookup_map_modify (l : List (Nat × Galley)) (g : Nat) (f : Galley → Galley) :
    (l.map fun e => if e.1 = g then (g, f e.2) else e).lookup g = (l.lookup g).map f := by
  induction l with
  | nil => rfl
  | cons e l ih =>
    obtain ⟨i, x⟩ := e
    by_cases hi : i = g
    · simp [hi]
    · simpa [hi, List.lookup_cons, beq_eq_false_iff_ne.mpr (Ne.symm hi)] using ih

/-- The galley that a v register names is bound under its physical number. -/
theorem State.lookup_of_galley? {s : State} {v : VReg} {p : Nat} {x : Galley} (h : s.galley? v = some (p, x)) :
    s.cc.galleys.lookup p = some x := by
  unfold State.galley? at h
  obtain ⟨-, hbound⟩ := Option.ite_none_right_eq_some.mp h
  obtain ⟨y, hy, heq⟩ := Option.map_eq_some_iff.mp hbound
  obtain ⟨rfl, rfl⟩ := Prod.mk.inj heq
  exact hy

/-- A galley with one more entry, owed to an id (R320). -/
def Galley.oweEntry (x : Galley) (id : Nat) : Galley := { x with q := x.q ++ [(id, none)] }

/-- A cluster whose galley p owes one more entry. -/
def Cluster.oweEntry (c : Cluster) (p id : Nat) : Cluster :=
  { c with galleys := c.galleys.map fun e => if e.1 = p then (p, e.2.oweEntry id) else e }

theorem Cluster.lookup_oweEntry (c : Cluster) (p id : Nat) :
    (c.oweEntry p id).galleys.lookup p = (c.galleys.lookup p).map (·.oweEntry id) := lookup_map_modify c.galleys p (·.oweEntry id)

/-- The machine with one more entry of galley p, owed to the access of the next id (R320). -/
def State.oweEntry (s : State) (p : Nat) : State :=
  { s.modGalley p fun y => y.oweEntry s.nextId with nextId := s.nextId + 1 }

theorem State.cc_oweEntry (s : State) (p : Nat) : (s.oweEntry p).cc = s.cc.oweEntry p s.nextId :=
  State.cc_modCc s fun c => c.oweEntry p s.nextId

/-- The new entry is the last of its galley. -/
theorem State.lookup_oweEntry {s : State} {p : Nat} {x : Galley} (h : s.cc.galleys.lookup p = some x) :
    (s.oweEntry p).cc.galleys.lookup p = some (x.oweEntry s.nextId) := by
  rw [State.cc_oweEntry, Cluster.lookup_oweEntry, h, Option.map_some]

/-- An owed entry changes no mapping of the stash. -/
theorem State.stashAt_oweEntry (s : State) (p asid va : Nat) :
    (s.oweEntry p).cc.stashAt asid va = s.cc.stashAt asid va := by
  rw [State.cc_oweEntry]
  rfl

/-- An owed entry changes no translation. -/
theorem State.tlbLookup_oweEntry (s : State) (p asid va : Nat) (n : Need) :
    (s.oweEntry p).tlbLookup s.cur.cl.toNat asid va n = s.tlbLookup s.cur.cl.toNat asid va n := by
  have hcl : (s.oweEntry p).cluster s.cur.cl.toNat = s.cc.oweEntry p s.nextId := s.cc_oweEntry p
  rw [State.tlbLookup, hcl]
  rfl

theorem ldxCheck_eq_none {s : State} {g : GalleyNo} {a : FAddr} {p : Nat} {x : Galley}
    (hg : s.galley? (galleyReg g) = some (p, x)) (hk : x.kind = .ldx) (ha : s.ea a.ab a.off.toInt % 128 = 0) :
    ldxCheck g a s = none := by
  simp [ldxCheck, firstTrap, State.alignCheck, hg, hk, ha]

/-- The access of an LDX (R320). -/
def State.ldxAcc (s : State) (p : Nat) (x : Galley) (hint : Hint) (ea : Nat) : Access :=
  { (s.oweEntry p).newAcc .load ea 128 (.ofNat 4 x.cls) hint with dst := .galley p s.nextId, tag := s.nextId }

/-- An LDX that is checked and waits for nothing owes an entry and issues its access. -/
theorem exec_ldx_issues {s : State} {g : GalleyNo} {a : FAddr} {p : Nat} {x : Galley} (hint : Hint)
    (hg : s.galley? (galleyReg g) = some (p, x)) (hk : x.kind = .ldx) (hq : x.q.length < 8) (hr : s.requestsFree 1 = true)
    (ha : s.ea a.ab a.off.toInt % 128 = 0) (hm : s.stashMiss (s.ea a.ab a.off.toInt) true = none) :
    exec (.ldx g hint a) s =
      .next ((s.oweEntry p).issueFar (s.ldxAcc p x hint (s.ea a.ab a.off.toInt))).setNr := by
  simp only [exec_ldx, execLdx, ldxCheck_eq_none hg hk ha, hg, hr, hm, Nat.not_le.mpr hq, Bool.true_eq_false, or_self, if_false]
  rfl

/-! ## CBTAKE and CBDONE (R141, R143, R325) -/

@[simp] theorem State.unit_setNr (s : State) (u : Nat) : s.setNr.unit u = s.unit u := rfl
@[simp] theorem State.unit_soon (s : State) (ms : List Instr) (u : Nat) : (s.soon ms).unit u = s.unit u := rfl
@[simp] theorem State.unit_modUnit (s : State) (u : Nat) (f : CbUnit → CbUnit) : (s.modUnit u f).unit u = f (s.unit u) :=
  sget_sset ..

theorem State.batchCheck_eq_none {s : State} {u : Nat} (h : s.me.bnd.cbu = some u) : s.batchCheck = none := by
  simp [State.batchCheck, h]

theorem State.dstCheck_v_eq_none {s : State} {v : VReg} (h : s.galley? v = none) : s.dstCheck (.v v) = none := by
  simp [State.dstCheck, h]

theorem State.sbCheck_eq_none {s : State} (h : s.heldCount s.cur.cl.toNat s.cur.ctx.toNat < 256) : s.sbCheck = none := by
  rw [State.sbCheck, if_pos h]

theorem State.poisonS_eq_none {s : State} {n : SReg} (h : (s.rdS n).psn = false) : s.poisonS n = none := by
  simp [State.poisonS, h]

theorem State.me_owe (s : State) (d : Dst) (cls : Nat) :
    (s.owe d cls).me = { s.me with pend := s.me.pend ++ [⟨s.nextId, d, 0, false, none, false, cls, none⟩] } :=
  State.me_modMe s fun x => { x with pend := x.pend ++ [⟨s.nextId, d, 0, false, none, false, cls, none⟩] }

/-- The access of a CBTAKE, in the machine that owes its result (R141, R192). -/
def State.takeAcc (s : State) (vd : VReg) (cls : Cls) : Access :=
  { s.newAcc .cbtake 0 0 cls .none with dst := .v vd, tag := s.nextId - 1, tr := .ok 0 0, acq := some (3, 0xFFFF) }

/-- The machine with a request waiting at a unit for a member (R141). -/
def State.requestMember (s : State) (u id : Nat) : State := s.modUnit u fun x => { x with takes := x.takes ++ [⟨id, none, none⟩] }

theorem State.me_requestMember (s : State) (u id : Nat) : (s.requestMember u id).me = s.me := rfl

/-- The request is one of its unit's. -/
theorem State.mem_takes_requestMember (s : State) (u id : Nat) :
    (⟨id, none, none⟩ : CbReq) ∈ ((s.requestMember u id).unit u).takes := by
  rw [State.requestMember, State.unit_modUnit]
  exact List.mem_append_right _ (List.mem_singleton_self _)

/-- A CBTAKE that is checked and waits for nothing owes its result, enters its access and makes its request of the unit. -/
theorem exec_cbtake_enters {s : State} {vd : VReg} {u : Nat} (cls : Cls) (hu : s.me.bnd.cbu = some u)
    (hd : s.galley? vd = none) (hr : s.requestsFree 1 = true) :
    ∃ t, exec (.cbtake vd cls) s = .next ((t.requestMember u (s.nextId + 1)).soon [.homeAccess (s.nextId + 1)]).setNr ∧
      (s.owe (.v vd) cls.toNat).Enters ((s.owe (.v vd) cls.toNat).takeAcc vd cls) t := by
  refine ⟨_, ?_, State.addAcc_enters ..⟩
  have hc : firstTrap [s.batchCheck, s.dstCheck (.v vd)] = none := by
    simp [firstTrap, State.batchCheck_eq_none hu, State.dstCheck_v_eq_none hd]
  simp only [exec_cbtake, execCbtake, hc, hr, if_true, hu, Option.getD_some]
  rfl

/-- The report of a CBDONE (R143, R192). -/
def State.doneAcc (s : State) (ss : SReg) : Access :=
  { s.newAcc (.cbdone ((s.rdS ss).val.setWidth 32)) 0 0 0 .none with st := .held, tr := .ok 0 0, rel := some (3, 0xFFFF) }

/-- A CBDONE that is checked enters its report, held. -/
theorem exec_cbdone_enters {s : State} {ss : SReg} {u : Nat} (hu : s.me.bnd.cbu = some u) (hp : (s.rdS ss).psn = false)
    (hb : s.heldCount s.cur.cl.toNat s.cur.ctx.toNat < 256) :
    ∃ t, exec (.cbdone ss) s = .next t.setNr ∧ s.Enters (s.doneAcc ss) t := by
  refine ⟨_, ?_, State.addAcc_enters ..⟩
  have hc : firstTrap [s.batchCheck, s.poisonS ss, s.sbCheck] = none := by
    simp [firstTrap, State.batchCheck_eq_none hu, State.poisonS_eq_none hp, State.sbCheck_eq_none hb]
  simp only [exec_cbdone, execCbdone, hc]
  rfl

/-! ## HMSG (R221, R333) -/

theorem State.replyCheck_eq_none {s : State} {rpl : Option (FReg × BitVec 16)}
    (h : ∀ p, rpl = some p → s.plainOk (64 * p.2.toNat) 64 = true) : s.replyCheck rpl = none := by
  cases rpl with
  | none => rfl
  | some p => simp [State.replyCheck, h p rfl]

/-- A register that names no galley and is not poisoned passes the checks of store data. -/
theorem State.eq_none_of_mem_dataCheckV {s : State} {v : VReg} (h : s.galley? v = none) (hp : (s.rdV v).psn = false) :
    ∀ t ∈ s.dataCheckV v, t = none := by
  simp [State.dataCheckV, State.srcV_reg h, hp, State.popCheck, h]

/-- The message of an HMSG (R221). -/
def State.messageAcc (s : State) (vs : VReg) (ab : AReg) (cls : Cls) (rpl : Option (FReg × BitVec 16)) : Access :=
  { s.newAcc (.hmsg (s.token rpl)) (s.ea ab 0) 1 cls .none with st := .held, data := (vbytes (s.rdV vs).val).take 64 }

/-- An HMSG of a register that is checked issues its message. -/
theorem exec_hmsg_issues {s : State} {vs : VReg} {rpl : Option (FReg × BitVec 16)} (ab : AReg) (cls : Cls)
    (hg : s.galley? vs = none) (hp : (s.rdV vs).psn = false) (hb : s.heldCount s.cur.cl.toNat s.cur.ctx.toNat < 256)
    (hr : ∀ p, rpl = some p → s.plainOk (64 * p.2.toNat) 64 = true) :
    exec (.hmsg vs ab cls rpl) s = .next ((s.issueFar (s.messageAcc vs ab cls rpl)).popV [vs]) := by
  have hc : firstTrap ([s.replyCheck rpl] ++ s.dataCheckV vs ++ [s.sbCheck]) = none := by
    simpa [firstTrap, State.replyCheck_eq_none hr, State.sbCheck_eq_none hb] using State.eq_none_of_mem_dataCheckV hg hp
  have hw : s.vStall [vs] none = false := State.vStall_src (by simpa using hg)
  simp only [exec_hmsg, execHmsg, hc, hw, State.srcV_reg hg, Bool.false_eq_true, if_false]
  rfl

end Sys2Proof.Machine

namespace Sys2Proof.Claims
open Sys2Proof.Machine

/-- R8: byte i of a number. -/
theorem toBytes_eq_dataBytes (n x : Nat) : toBytes n x = dataBytes n x := by
  induction n generalizing x with
  | zero => rfl
  | succ n ih =>
    have hb (i : Nat) : x / 256 / 2 ^ (8 * i) = x / 2 ^ (8 * (i + 1)) := by
      rw [Nat.div_div_eq_div_mul, Nat.mul_succ, Nat.add_comm (8 * i), Nat.pow_add]
    rw [toBytes, ih, dataBytes, dataBytes, List.range_succ_eq_map, List.map_cons, List.map_map]
    simp [hb, Function.comp_def]

/-- R333: the bytes of a message are the low 64 of its register. -/
theorem take_vbytes (x : VWord) : (vbytes x).take 64 = dataBytes 64 x.toNat := by
  rw [vbytes, toBytes_eq_dataBytes, dataBytes, ← List.map_take, List.take_range]
  rfl

/-- Entering an access stores nothing. -/
theorem nothingStored_of_enters {s t : State} {a : Access} (h : s.Enters a t) : nothingStored s t :=
  ⟨by rw [h.me], h.clusters, h.slices, h.mem_eq, h.memFill, h.hostMem, h.cur⟩

/-- R320: the access of an LDX is entered behind its entry, by its stash granule or its page's translation. -/
theorem exec_ldx_enters {s : State} {g : GalleyNo} {a : FAddr} {p : Nat} {x : Galley} (hint : Hint)
    (hg : s.galley? (galleyReg g) = some (p, x)) (hk : x.kind = .ldx) (hq : x.q.length < 8) (hr : s.requestsFree 1 = true)
    (ha : farEa s a.ab a.off.toInt % 128 = 0) (hm : s.stashMiss (farEa s a.ab a.off.toInt) true = none)
    (h : stashOr s (farEa s a.ab a.off.toInt) .read) :
    ∃ t, exec (.ldx g hint a) s = .next t.setNr ∧
      (s.oweEntry p).Enters (s.ldxAcc p x hint (farEa s a.ab a.off.toInt)) t := by
  refine ⟨_, exec_ldx_issues hint hg hk hq hr ha hm, State.issueFar_enters rfl (h.imp (fun hs => ?_) fun ht => ?_)⟩
  · have hat : (s.oweEntry p).stashSpot (s.ldxAcc p x hint (farEa s a.ab a.off.toInt)) =
        (s.cc.stashAt s.me.bnd.asid (farEa s a.ab a.off.toInt)).map fun e => e.1 * 2 ^ 17 + e.2 :=
      congrArg (Option.map _) (s.stashAt_oweEntry p ..)
    exact (congrArg Option.isSome hat).trans (Option.isSome_map.trans hs)
  · exact (s.tlbLookup_oweEntry p s.me.bnd.asid (farEa s a.ab a.off.toInt) .read).symm ▸ ht

/-- R333: the message of an HMSG whose page is readable is entered; no granule serves it, and no galley is popped. -/
theorem exec_hmsg_enters {s : State} {vs : VReg} {ab : AReg} {rpl : Option (FReg × BitVec 16)} (cls : Cls) (hv : plainV s vs)
    (hb : s.heldCount s.cur.cl.toNat s.cur.ctx.toNat < 256)
    (hr : ∀ p, rpl = some p → s.plainOk (64 * p.2.toNat) 64 = true) (h : translates s (farEa s ab 0) .read) :
    ∃ t, exec (.hmsg vs ab cls rpl) s = .next t ∧ s.Enters (s.messageAcc vs ab cls rpl) t := by
  obtain ⟨hg, hp⟩ := hv
  have hent : s.Enters (s.messageAcc vs ab cls rpl) (s.issueFar (s.messageAcc vs ab cls rpl)) :=
    State.issueFar_enters rfl (.inr h)
  refine ⟨_, exec_hmsg_issues ab cls hg hp hb hr, ?_⟩
  rwa [State.popV_reg (by simpa [hent.galley?] using hg)]

/-- Settles O38: each instruction passes its checks and enters its access, which is as the instruction makes it but for its
translation. -/
theorem messagesAndEntries : Obligations.MessagesAndEntries := by
  unfold Obligations.MessagesAndEntries
  intro s g hint a vd cls ss ab gp x u rpl
  refine ⟨?ldx, ?cbtake, ?cbdone, ?hmsg⟩
  case ldx =>
    intro hg hk hq hr ha hm hserved
    obtain ⟨t, hexec, hent⟩ := exec_ldx_enters hint hg hk hq hr ha hm hserved
    obtain ⟨tr, hmem⟩ := hent.mem
    have hentry : t.cc.galleys.lookup gp = some (x.oweEntry s.nextId) := by
      rw [hent.cc, State.lookup_oweEntry (State.lookup_of_galley? hg)]
    exact ⟨_, _, hexec, by rw [State.me_setNr], hmem, rfl, rfl, rfl, hentry, hent.mem_eq⟩
  case cbtake =>
    intro hu hd hr
    obtain ⟨t, hexec, hent⟩ := exec_cbtake_enters cls hu hd hr
    obtain ⟨tr, hmem⟩ := hent.mem
    refine ⟨_, _, hexec, by rw [State.me_setNr], hmem, rfl, rfl, ⟨⟨s.nextId + 1, none, none⟩, ?_, rfl⟩, hent.mem_eq, ?_⟩
    · rw [State.unit_setNr, State.unit_soon]
      exact t.mem_takes_requestMember ..
    · rw [State.me_setNr, State.me_soon, State.me_requestMember, hent.me, State.me_owe]
  case cbdone =>
    intro hu hp hb
    obtain ⟨t, hexec, hent⟩ := exec_cbdone_enters hu hp hb
    obtain ⟨tr, hmem⟩ := hent.mem
    exact ⟨_, _, hexec, by rw [State.me_setNr], hmem, rfl, rfl, hent.mem_eq, by rw [State.me_setNr, hent.me]⟩
  case hmsg =>
    intro hv hb hr ht
    obtain ⟨t, hexec, hent⟩ := exec_hmsg_enters cls hv hb hr ht
    obtain ⟨tr, hmem⟩ := hent.mem
    refine ⟨_, _, hexec, hmem, rfl, ?_, rfl, take_vbytes _, nothingStored_of_enters hent⟩
    cases rpl <;> rfl

end Sys2Proof.Claims
end
